-- ==== Sys2Proof/Word.lean ====
section
/-!
DEFINITION. The words of the DZF-384: what the manual numbers bit by bit (R4) or lets wrap (R351).
Counts, sizes and indexes are `Nat`.
-/
namespace Sys2Proof

/-- One byte of a register, packet, record or of the state area. -/
abbrev Byte := BitVec 8

/-- An FP32 bit pattern, code 0x0 of Table 02.1. -/
abbrev F32 := BitVec 32

/-- A tide count, 64 bits, wrapping (R351, R352). -/
abbrev Tide := BitVec 64

/-- A crossing or hawser sequence number or a link credit counter: 24 bits, wrapping (R351). -/
abbrev Seq := BitVec 24

/-- A frame sequence number: 12 bits, wrapping (R236). -/
abbrev FSeq := BitVec 12

/-- A ring index or the event SEQ: 32 bits, wrapping (R351). -/
abbrev Index := BitVec 32

/-- A sparse table: keys with values, in ascending key order. A key not listed holds its table's reset value. -/
abbrev Tab (α : Type) := List (Nat × α)

end Sys2Proof
end

