-- ==== Sys2Proof/Syntax.lean ====
section
/-!
DEFINITION. The commands of the DZF-384: one constructor of `Instr` per row of spec/opcode_table.json, and the
types of their operands, in the manual's own fields (Tables 03.9, 04.9, 04.10, 05.4, 06.3-06.6, 09.4, 09.5, 12.1).
-/
namespace Sys2Proof

/-! ### Packets (Tables 06.3 to 06.6) -/

/-- Tide message parameters, Table 05.4. Times are tide counts with a fraction in 1/256 ns. -/
structure TideMsg where
  kind : Nat
  priority : Nat
  hops : Nat
  ref : Bool
  locked : Bool
  seq : Nat
  t1Frac : Nat
  t2Frac : Nat
  t3Frac : Nat
  serial : Nat
  t1 : Tide
  t2 : Tide
  t3 : Tide
  deriving DecidableEq, Repr, Inhabited

/-- Bytes 24-63 of a long header, Table 06.5. For `GATHER`, `step` holds the tag's STEP (offset 8 of Table 04.12)
and `aux` its first eight bytes read little-endian (JOB, OCTX, DIGEST32). -/
structure LongHdr where
  units : Nat
  tail : Nat
  ctx : Nat
  opNum : Nat
  pkt : Nat
  chunk : Nat
  cond : Nat
  fmt : Nat
  part : Nat
  nodeFan : Nat
  addr : Nat
  step : Nat
  aux : Nat
  deriving DecidableEq, Repr, Inhabited

/-- What a packet carries behind its common header: the parameters of Table 06.6 for a short packet, the long
header and payload for a long one, or the raw 40 bytes of a kind Table 06.4 does not list. -/
inductive Body where
  | contribute (ctx opNum f k resultBase : Nat)
  | credit (ctx opNum chunk baseOp baseChunk : Nat)
  | resend (ctx opNum chunk : Nat)
  | status (ctx opNum chunk status refKind stepSent stepExpected : Nat)
  | gatherReq (ctx opNum chunk resultAddr version : Nat)
  | drawReq (stream blocks index step resultAddr : Nat)
  | launch (l : Tide)
  | landing (status ctx chunk msgBase msgLen opNum : Nat)
  | writeDone (status ctx chunk msgBase msgLen opNum peerRank : Nat)
  | ringStop (ctx origin : Nat)
  | tide (m : TideMsg)
  | xack (cum : Seq) (sack : BitVec 256)
  | xsync (inc : BitVec 2) (isOpen : Bool)
  | long (kind : Nat) (h : LongHdr) (payload : List Byte)
  | unknown (kind : Nat) (bytes : List Byte)
  deriving DecidableEq, Repr, Inhabited

/-- The common header of Table 06.3 without KIND, which the body fixes. -/
structure Header where
  cls : Nat
  rte : Nat
  phase : Nat
  lane : Nat
  epoch : Nat
  last : Bool
  ord : Bool
  dstForm : Nat
  job : Nat
  dst : Nat
  src : Nat
  srcRank : Nat
  hops : Nat
  seq : Seq
  xmit : Nat
  xland : Nat
  xing : Bool
  ingress : Nat
  egress : Nat
  egressLanding : Nat
  notifyDst : Bool
  notifySrc : Bool
  inc : BitVec 2
  tag : Nat
  deriving DecidableEq, Repr, Inhabited

/-- A packet. `rsvd`: some RSVD header or parameter bit is 1 (R167). `lengthOk`: UNITS and TAIL agree with the
packet's length on the link (Table 06.7). -/
structure Packet where
  hdr : Header
  body : Body
  rsvd : Bool
  lengthOk : Bool
  deriving DecidableEq, Repr, Inhabited

/-- A packet handed up by the link layer: the slip and hawser it entered through, and the packet. -/
structure Arrival where
  slip : Nat
  hawser : Nat
  pkt : Packet
  deriving DecidableEq, Repr, Inhabited

/-! ### Link messages (Tables 09.4 and 09.5) -/

/-- `IDENT`, Table 09.4. `rsvd`: some RSVD bit is 1. -/
structure Ident where
  role : Nat
  protoMax : Nat
  protoMin : Nat
  arev : Nat
  widthUp : Nat
  slip : Nat
  serial : Nat
  hawser : Nat
  width : Nat
  fabricAddr : Nat
  fwMeasurement : List Byte
  rsvd : Bool
  deriving DecidableEq, Repr, Inhabited

/-- `IDENT_ACK`, Table 09.5. -/
structure IdentAck where
  proto : Nat
  result : Nat
  rsvd : Bool
  deriving DecidableEq, Repr, Inhabited

/-! ### Commands (Table 12.1) -/

/-- Where a command came from: a queue pair, or a service-port client by MAC address. -/
inductive Source where
  | ring (qp : Nat)
  | service (mac : Nat)
  deriving DecidableEq, Repr, Inhabited

/-- The command packet of Table 12.1. `flags` and `rsvd6` hold bytes 4 and 6-7; `params` the 32 bytes of PARAMS. -/
structure Cmd where
  opcode : Nat
  tag : Nat
  flags : Nat
  job : Nat
  rsvd6 : Nat
  descLen : Nat
  resultLen : Nat
  descAddr : Nat
  resultAddr : Nat
  params : List Byte
  deriving DecidableEq, Repr, Inhabited

/-- One execution of a command: its source and packet; the descriptor bytes read from host memory or carried in the
frame, `none` when the read failed on the link (R307); whether the write of the result succeeds on the link (R308); and whether the
write of the completion does (DMA_ERR, Table 11.6). -/
structure Exec where
  src : Source
  cmd : Cmd
  desc : Option (List Byte)
  resultOk : Bool
  entryOk : Bool
  deriving DecidableEq, Repr, Inhabited

/-! ### Other operands -/

/-- The phase-locked loops of Table 13.2. -/
inductive Loop where
  | core | datapath | tide | cxlPhy
  | hbm (s : Nat)
  | serdes (k : Nat)
  deriving DecidableEq, Repr, Inhabited

/-- The units of Tables 13.4, 14.7 and 16.2. -/
inductive UnitRef where
  | landing (l : Nat) | laneGroup (g : Nat) | engine (k : Nat) | stack (s : Nat) | core (c : Nat) | sha3 (e : Nat)
  | mldsa
  deriving DecidableEq, Repr, Inhabited

/-- The units that have idle states of their own (Table 13.4, without slips). -/
inductive PowerUnit where
  | landing (l : Nat) | deck | stack (s : Nat)
  deriving DecidableEq, Repr, Inhabited

/-- The rings that BAR0 controls (Table 11.3). -/
inductive RingId where
  | qp (q : Nat) | ev | aud
  deriving DecidableEq, Repr, Inhabited

/-- The ring configuration registers of R288. -/
inductive RingReg where
  | base | cqBase | writeBack | ctrl
  deriving DecidableEq, Repr, Inhabited

/-- One sample of a monitor: a reading, or a sensor that fails to answer. Temperatures are signed, 0.01 degrees;
voltages mV; process monitors MHz (Table 13.7). -/
inductive Sample where
  | reading (v : Int)
  | noAnswer
  deriving DecidableEq, Repr, Inhabited

/-- How a read of parity-protected data went (R345): passed, passed on the repeat, or failed twice. -/
inductive ParityResult where
  | ok | retryOk | failed
  deriving DecidableEq, Repr, Inhabited

/-- What a stack's own error correction reports of a read (R346). -/
inductive EccResult where
  | clean | corrected | uncorrected
  deriving DecidableEq, Repr, Inhabited

/-- A configuration register of the one function (R281, R283, R284, R324), by what it holds: its offset is PCIe's or CXL's. `bar n` is
base address register n; the MSI-X, PCIe, power management and AER registers are those of their capabilities; `range1SizeHigh` and
`range1SizeLow` are of the CXL device DVSEC. -/
inductive ConfigReg where
  | id | command | classCode | bar (n : Nat)
  | msixControl | msixTable | msixPba
  | deviceControl | linkCapabilities | linkControl | l1Substates | pmcsr
  | aerUncStatus | aerUncMask | aerUncSeverity | aerCorStatus | aerCorMask
  | range1SizeHigh | range1SizeLow
  | other (offset : Nat)
  deriving DecidableEq, Repr, Inhabited

/-- The locations of Table 14.6, with what each row names: the queued packet's place in a landing; the crossing whose
copy or held packet was hit; the position and slot of a contribution; the position of a tally; the lane group; the
table entry and whether any landing's copy passes; the context entry; the held chunk; the image; the line; the core. -/
inductive ParityLoc where
  | queued (landing : Nat) (entry : Nat)
  | copyOrHeld (landing peer peerLanding lane : Nat)
  | contribution (rctx pos slot : Nat)
  | tally (rctx pos : Nat)
  | laneGroup (g : Nat)
  | tableEntry (landing : Nat) (index : Nat) (anyCopyPasses : Bool)
  | context (rctx pos : Nat)
  | oldRecord (octx seg chunk : Nat)
  | gatherImage (octx seg chunk version : Nat)
  | memLine (stack : Nat) (line : Nat)
  | coreCache (c : Nat)
  deriving DecidableEq, Repr, Inhabited

/-- One side's training control field bits as received, Table 10.4, with its CRC: 176 symbols, levels 0-3, of a
training frame on a physical lane (0 lower, 1 upper). -/
structure TrainRx where
  lane : Nat
  levels : List Nat
  deriving DecidableEq, Repr, Inhabited

/-- The EtherType and the service header of a service frame (R300, Table 11.10), and the length of its payload in bytes. -/
structure ServiceHdr where
  etherType : Nat
  version : Nat
  ftype : Nat
  seq : Nat
  len : Nat
  deriving DecidableEq, Repr, Inhabited

/-- What a service frame says before its payload (R300): the MAC addresses, the EtherType and the service header. -/
structure FrameHdr extends ServiceHdr where
  dst : Nat
  src : Nat
  deriving DecidableEq, Repr, Inhabited

/-- A frame to no address of a part. -/
def FrameHdr.stray : FrameHdr := { dst := 0, src := 0, etherType := 0, version := 0, ftype := 0, seq := 0, len := 0 }

/-- An IMAGE frame's payload, Table 15.8. `malformed`: a field of the frame breaks the table (R370). -/
structure ImageFrame where
  hdr : FrameHdr
  slot : Nat
  transferId : Nat
  value : Nat
  data : List Byte
  malformed : Bool
  deriving DecidableEq, Repr, Inhabited

/-- The commands, in the order of spec/opcode_table.json. An operand with a default names the ordinary case: a write that the link
carries, a read without an error corrected in its stack. -/
inductive Instr where
  | inputInRange
  | inputStable
  | railInWindow
  | inputOutOfRange
  | inputUndervoltage
  | inputOvervoltage
  | resetAssert
  | resetRelease (recoveryN : Bool)
  | pllLock (l : Loop)
  | pllLockLoss (l : Loop)
  | componentLoadDone
  | selfTestDone (u : UnitRef) (passed : Bool)
  | hbmInitDone (failed : List Nat)
  | opticsCalibrationDone (k : Nat) (passed : Bool) (bias : List Nat) (txPower : List Int)
  | startupComplete
  | healthCheckTimeout
  | devResetExpiry
  | configRequest (r : ConfigReg := .id) (write : Option Nat := none)
  | cxlLinkTrained (mode width : Nat)
  | cxlLinkDown
  | linkHotReset
  | functionLevelReset
  | d3hotExit
  | cxlMemRead (hpa : Nat) (parity : ParityResult) (ecc : EccResult := .clean)
  | cxlMemWrite (hpa : Nat) (data : List Byte)
  | bar0RefusedAccess (offset size : Nat) (write : Bool)
  | tideLowRead
  | ringConfigWrite (r : RingId) (reg : RingReg) (value : Nat)
  | ringEnable (r : RingId) (value : Nat)
  | ringDisable (r : RingId) (value : Nat)
  | ringIdle (r : RingId)
  | statusW1cWrite (r : RingId) (value setting : Nat)
  | registerWrite (offset size value : Nat)
  | sqTailDoorbell (q : Nat) (value : Index)
  | cqHeadDoorbell (q : Nat) (value : Index)
  | evHeadDoorbell (value : Index)
  | audHeadDoorbell (value : Index)
  | commandFetch (q : Nat) (entry : Option (List Byte))
  | commandDispatch (q : Nat) (desc : Option (List Byte)) (resultOk : Bool) (entryOk : Bool := true)
  | irqCoalTimer (r : RingId)
  | eventRingWrite (ok : Bool := true)
  | afiqueSign
  | auditRingWrite (ok : Bool := true)
  | devInfo (x : Exec)
  | nop (x : Exec)
  | monitorRead (x : Exec)
  | setLatencyBudget (x : Exec)
  | throttleSet (x : Exec)
  | devReset (x : Exec)
  | jobCreate (x : Exec)
  | jobDestroy (x : Exec)
  | jobRanksSet (x : Exec)
  | jobClassSet (x : Exec)
  | jobSliceSet (x : Exec)
  | phaseMapSet (x : Exec)
  | jobQuery (x : Exec)
  | crossingOpen (x : Exec)
  | crossingClose (x : Exec)
  | crossingReset (x : Exec)
  | crossingQuery (x : Exec)
  | endpointSet (x : Exec)
  | routeSet (x : Exec)
  | routeSwitch (x : Exec)
  | routeQuery (x : Exec)
  | fabricAddrSet (x : Exec)
  | bufferSet (x : Exec)
  | serviceSet (x : Exec)
  | tollSet (x : Exec)
  | switchSet (x : Exec)
  | tideTableSet (x : Exec)
  | hawserSet (x : Exec)
  | hawserClear (x : Exec)
  | neighbourMapSet (x : Exec)
  | neighbourQuery (x : Exec)
  | linkCountersRead (x : Exec)
  | laneConfig (x : Exec)
  | laneLoopback (x : Exec)
  | laneStatusRead (x : Exec)
  | laneCountersRead (x : Exec)
  | opticsRead (x : Exec)
  | rctxCreate (x : Exec)
  | rctxDestroy (x : Exec)
  | rctxQuery (x : Exec)
  | rctxReform (x : Exec)
  | octxCreate (x : Exec)
  | octxDestroy (x : Exec)
  | octxQuery (x : Exec)
  | stepCommit (x : Exec)
  | stepRollback (x : Exec)
  | reshardFence (x : Exec)
  | tideConfig (x : Exec)
  | tideQuery (x : Exec)
  | launchAt (x : Exec)
  | determinismSet (x : Exec)
  | topologySet (x : Exec)
  | auditRingSet (x : Exec)
  | auditSeal (x : Exec)
  | auditPath (x : Exec)
  | faultRead (x : Exec)
  | faultAck (x : Exec)
  | faultClear (x : Exec)
  | faultModeSet (x : Exec)
  | faultInject (x : Exec)
  | purserRead (x : Exec)
  | attest (x : Exec)
  | certRead (x : Exec)
  | imageQuery (x : Exec)
  | activate (x : Exec)
  | identify
  | identifyMemoryDevice
  | getSupportedLogs
  | getLog (log offset length : Nat)
  | getEventRecords (log : Nat)
  | clearEventRecords (log : Nat) (all : Bool) (handles : List Nat)
  | getEventInterruptPolicy
  | setEventInterruptPolicy (policy : List Byte)
  | getHealthInfo
  | getAlertConfiguration
  | setAlertConfiguration (config : List Byte)
  | getTimestamp
  | setTimestamp (value : Nat)
  | getFwInfo
  | mailboxUnsupported (opcode : Nat)
  | discover (f : FrameHdr)
  | serviceFrameDiscard (f : FrameHdr := FrameHdr.stray)
  | serviceCommand (dst src : Nat) (h : ServiceHdr) (payload : List Byte)
  | subscribe (f : FrameHdr) (on : Bool)
  | imageBegin (f : ImageFrame)
  | slotEraseDone
  | imageData (f : ImageFrame)
  | imageEnd (f : ImageFrame)
  | imageAbort (f : ImageFrame)
  | transferSilence
  | smbusMonitorRead (command : Nat)
  | smbusDevStatusRead
  | smbusSerialRead
  | smbusPowerRead
  | smbusThrottleRead
  | smbusNack (command : Nat)
  | smbusTimeout
  | monitorSample (samples : List Sample) (power current : Nat)
  | voltageWindowTimeout (index : Nat)
  | thermalTrip (index : Nat)
  | throttleTick
  | unitIdleEntry (u : PowerUnit)
  | unitWake (u : PowerUnit)
  | unitWakeDone (u : PowerUnit)
  | unitHeartbeatTimeout (u : UnitRef)
  | parityFailure (loc : ParityLoc) (r : ParityResult) (ecc : EccResult := .clean)
  | trainingFrame (slip : Nat) (rx : TrainRx)
  | bringupStepDone (slip : Nat)
  | bringupStepTimeout (slip : Nat)
  | lightLoss (slip : Nat)
  | alignmentMarker (slip : Nat) (lower upper : List Nat) (skew : Int)
  | codewordReceive (slip : Nat) (lower upper : List Nat)
  | nakReplay (slip : Nat)
  | replayTimeout (slip : Nat)
  | packetStart (slip : Nat)
  | identTimer (slip : Nat)
  | ident (slip : Nat) (m : Ident)
  | identAck (slip : Nat) (m : IdentAck)
  | identTimeout (slip : Nat)
  | laneIdleEntry (slip : Nat)
  | laneWake (slip : Nat)
  | laneWakeDone (slip : Nat)
  | wakeFail (slip : Nat)
  | opticsAlarm (engine lane : Nat) (power : Bool)
  | opticsAlarmClear (engine lane : Nat) (power : Bool)
  | engineLost (engine : Nat) (laserSupply : Bool)
  | announceTimer
  | announce (slip : Nat) (m : TideMsg)
  | syncTimer
  | syncReq (slip : Nat) (m : TideMsg) (t2 : Tide) (t2Frac : Nat)
  | syncResp (slip : Nat) (m : TideMsg) (t4 : Tide) (t4Frac : Nat)
  | parentSilence
  | ppsEdge (intervalNs : Nat) (refOk : Bool)
  | ppsMissing
  | tideWrap
  | jobLaunch (job : Nat)
  | routeSwitchTime
  | bankRetire
  | tideTableInstall (slip : Nat)
  | reroute (hawser : Nat)
  | partitionEvaluation
  | transitPacket (a : Arrival)
  | unknownPacket (a : Arrival)
  | xsync (a : Arrival)
  | xsyncTimer (landing peer peerLanding : Nat)
  | xack (a : Arrival)
  | xackTimer (landing peer peerLanding lane : Nat)
  | crossingSend (landing peer peerLanding lane : Nat)
  | originSend (landing : Nat)
  | retransmitTimeout (landing peer peerLanding lane : Nat)
  | write (a : Arrival)
  | contribute (a : Arrival)
  | contrib (a : Arrival)
  | scale (a : Arrival)
  | trailer (a : Arrival)
  | pdesc (a : Arrival)
  | pdata (a : Arrival)
  | credit (a : Arrival)
  | creditSend (rctx slot : Nat)
  | resend (a : Arrival)
  | status (a : Arrival)
  | ringStop (a : Arrival)
  | result (a : Arrival)
  | gather (a : Arrival)
  | gatherReq (a : Arrival)
  | drawReq (a : Arrival)
  | beacon (a : Arrival)
  | norm (a : Arrival)
  | move (a : Arrival)
  | softLagExpiry (rctx pos : Nat)
  | hardLagExpiry (rctx pos : Nat)
  | foldBatch
  | foldBatchDone
  | updateSweep
  | gatherSweep
  | recordWriteDone (octx seg chunk : Nat)
  | imageDigestDone (octx seg chunk : Nat)
  | chunkRelease (rctx pos : Nat)
  | beaconTimeout (octx : Nat)
  | reshardInstall (octx : Nat)
  | mcastResidue (landing entry : Nat)
  | writeDoneArrival (a : Arrival)
  | badCycle
  | patternSymbolReceive (slip lane : Nat) (levels : List Nat)
  deriving DecidableEq, Repr, Inhabited

end Sys2Proof
end

