-- ==== Sys2Proof/WellFormed.lean ====
section
/-!
DEFINITION. Which commands are well formed: numbers within the part's units (chapter 01) and fields within their widths
(Tables 06.3, 12.1, 09.4). The sender of a command gives it well formed; no meaning relies on it.
-/
namespace Sys2Proof

/-- A number below a bound. -/
def below (n bound : Nat) : Bool := decide (n < bound)

/-- A common header whose fields fit Table 06.3. -/
def Header.wf (h : Header) : Bool :=
  below h.cls 8 && below h.rte 2 && below h.phase 4 && below h.lane 4 && below h.epoch 16 && below h.dstForm 4 && below h.job 256 &&
    below h.dst 65536 && below h.src 65536 && below h.srcRank 65536 && below h.hops 65536 && below h.xmit 16 && below h.xland 8 &&
    below h.ingress 65536 && below h.egress 65536 && below h.egressLanding 8 && below h.tag 65536

/-- A long header whose fields fit Table 06.5. -/
def LongHdr.wf (h : LongHdr) : Bool :=
  below h.units 256 && below h.tail 256 && below h.ctx 65536 && below h.opNum 65536 && below h.pkt 65536 && below h.chunk (2 ^ 32) &&
    below h.cond 65536 && below h.fmt 16 && below h.part 4 && below h.nodeFan 256 && below h.addr (2 ^ 64) && below h.step (2 ^ 64) &&
    below h.aux (2 ^ 64)

/-- A long packet's bytes fill its units. -/
def Body.wf (b : Body) : Bool :=
  match b with
  | .long kind h payload => h.wf && below kind 256 && payload.length == 64 * h.units
  | .unknown kind bytes => below kind 256 && bytes.length == 40
  | _ => true

/-- A packet handed up by a slip of the part. -/
def Arrival.wf (a : Arrival) : Bool := below a.slip 384 && below a.hawser 384 && a.pkt.hdr.wf && a.pkt.body.wf

/-- A command packet whose fields fit Table 12.1. -/
def Cmd.wf (c : Cmd) : Bool :=
  below c.opcode 65536 && below c.tag 65536 && below c.flags 256 && below c.job 256 && below c.rsvd6 65536 &&
    below c.descLen (2 ^ 32) && below c.resultLen (2 ^ 32) && below c.descAddr (2 ^ 64) && below c.resultAddr (2 ^ 64) &&
    c.params.length == 32

/-- An execution from one of the 16 queue pairs, or from a MAC address, with the descriptor it announces. -/
def Exec.wf (x : Exec) : Bool :=
  x.cmd.wf && (match x.src with
    | .ring q => below q 16
    | .service m => below m (2 ^ 48)) &&
    (match x.desc with
      | some d => d.length == x.cmd.descLen
      | none => true)

/-- A ring of the part. -/
def RingId.wf (r : RingId) : Bool :=
  match r with
  | .qp q => below q 16
  | _ => true

/-- A unit of the part. -/
def UnitRef.wf (u : UnitRef) : Bool :=
  match u with
  | .landing l => below l 8
  | .laneGroup g => below g 16
  | .engine k => below k 48
  | .stack n => below n 8
  | .core c => below c 16
  | .sha3 e => below e 192
  | .mldsa => true

/-- A service frame's header whose fields fit Table 11.10. -/
def FrameHdr.wf (f : FrameHdr) : Bool :=
  below f.dst (2 ^ 48) && below f.src (2 ^ 48) && below f.etherType 65536 && below f.version 256 && below f.ftype 256 && below f.seq 65536

/-- A lane's PAM4 levels, n of them. -/
def Symbols.wf (n : Nat) (levels : List Nat) : Bool := levels.length == n && levels.all (fun l => below l 4)

/-- A command is well formed. -/
def Instr.wf (i : Instr) : Bool :=
  match i with
  | .inputInRange => true
  | .inputStable => true
  | .railInWindow => true
  | .inputOutOfRange => true
  | .inputUndervoltage => true
  | .inputOvervoltage => true
  | .resetAssert => true
  | .resetRelease _ => true
  | .pllLock _ => true
  | .pllLockLoss _ => true
  | .componentLoadDone => true
  | .selfTestDone u _ => u.wf
  | .hbmInitDone _ => true
  | .opticsCalibrationDone k _ _ _ => below k 48
  | .startupComplete => true
  | .healthCheckTimeout => true
  | .devResetExpiry => true
  | .configRequest _ _ => true
  | .cxlLinkTrained _ _ => true
  | .cxlLinkDown => true
  | .linkHotReset => true
  | .functionLevelReset => true
  | .d3hotExit => true
  | .cxlMemRead _ _ _ => true
  | .cxlMemWrite _ data => data.length == 64
  | .bar0RefusedAccess _ _ _ => true
  | .tideLowRead => true
  | .ringConfigWrite r _ _ => r.wf
  | .ringEnable r _ => r.wf
  | .ringDisable r _ => r.wf
  | .ringIdle r => r.wf
  | .statusW1cWrite r _ _ => r.wf
  | .registerWrite _ _ _ => true
  | .sqTailDoorbell q _ => below q 16
  | .cqHeadDoorbell q _ => below q 16
  | .evHeadDoorbell _ => true
  | .audHeadDoorbell _ => true
  | .commandFetch q entry => below q 16 && (entry.getD (List.replicate 64 0)).length == 64
  | .commandDispatch q _ _ _ => below q 16
  | .irqCoalTimer r => r.wf
  | .eventRingWrite _ => true
  | .afiqueSign => true
  | .auditRingWrite _ => true
  | .devInfo x => x.wf
  | .nop x => x.wf
  | .monitorRead x => x.wf
  | .setLatencyBudget x => x.wf
  | .throttleSet x => x.wf
  | .devReset x => x.wf
  | .jobCreate x => x.wf
  | .jobDestroy x => x.wf
  | .jobRanksSet x => x.wf
  | .jobClassSet x => x.wf
  | .jobSliceSet x => x.wf
  | .phaseMapSet x => x.wf
  | .jobQuery x => x.wf
  | .crossingOpen x => x.wf
  | .crossingClose x => x.wf
  | .crossingReset x => x.wf
  | .crossingQuery x => x.wf
  | .endpointSet x => x.wf
  | .routeSet x => x.wf
  | .routeSwitch x => x.wf
  | .routeQuery x => x.wf
  | .fabricAddrSet x => x.wf
  | .bufferSet x => x.wf
  | .serviceSet x => x.wf
  | .tollSet x => x.wf
  | .switchSet x => x.wf
  | .tideTableSet x => x.wf
  | .hawserSet x => x.wf
  | .hawserClear x => x.wf
  | .neighbourMapSet x => x.wf
  | .neighbourQuery x => x.wf
  | .linkCountersRead x => x.wf
  | .laneConfig x => x.wf
  | .laneLoopback x => x.wf
  | .laneStatusRead x => x.wf
  | .laneCountersRead x => x.wf
  | .opticsRead x => x.wf
  | .rctxCreate x => x.wf
  | .rctxDestroy x => x.wf
  | .rctxQuery x => x.wf
  | .rctxReform x => x.wf
  | .octxCreate x => x.wf
  | .octxDestroy x => x.wf
  | .octxQuery x => x.wf
  | .stepCommit x => x.wf
  | .stepRollback x => x.wf
  | .reshardFence x => x.wf
  | .tideConfig x => x.wf
  | .tideQuery x => x.wf
  | .launchAt x => x.wf
  | .determinismSet x => x.wf
  | .topologySet x => x.wf
  | .auditRingSet x => x.wf
  | .auditSeal x => x.wf
  | .auditPath x => x.wf
  | .faultRead x => x.wf
  | .faultAck x => x.wf
  | .faultClear x => x.wf
  | .faultModeSet x => x.wf
  | .faultInject x => x.wf
  | .purserRead x => x.wf
  | .attest x => x.wf
  | .certRead x => x.wf
  | .imageQuery x => x.wf
  | .activate x => x.wf
  | .identify => true
  | .identifyMemoryDevice => true
  | .getSupportedLogs => true
  | .getLog _ _ _ => true
  | .getEventRecords _ => true
  | .clearEventRecords _ _ _ => true
  | .getEventInterruptPolicy => true
  | .setEventInterruptPolicy _ => true
  | .getHealthInfo => true
  | .getAlertConfiguration => true
  | .setAlertConfiguration _ => true
  | .getTimestamp => true
  | .setTimestamp _ => true
  | .getFwInfo => true
  | .mailboxUnsupported _ => true
  | .discover f => f.wf
  | .serviceFrameDiscard f => f.wf
  | .serviceCommand dst src h payload => FrameHdr.wf { h with dst := dst, src := src } && payload.length == h.len
  | .subscribe f _ => f.wf
  | .imageBegin f => f.hdr.wf
  | .slotEraseDone => true
  | .imageData f => f.hdr.wf
  | .imageEnd f => f.hdr.wf
  | .imageAbort f => f.hdr.wf
  | .transferSilence => true
  | .smbusMonitorRead _ => true
  | .smbusDevStatusRead => true
  | .smbusSerialRead => true
  | .smbusPowerRead => true
  | .smbusThrottleRead => true
  | .smbusNack _ => true
  | .smbusTimeout => true
  | .monitorSample samples _ _ => samples.length == 112
  | .voltageWindowTimeout i => below i 32
  | .thermalTrip i => below i 64
  | .throttleTick => true
  | .unitIdleEntry _ => true
  | .unitWake _ => true
  | .unitWakeDone _ => true
  | .unitHeartbeatTimeout u => u.wf
  | .parityFailure _ _ _ => true
  | .trainingFrame slip rx => below slip 384 && rx.levels.length == 176
  | .bringupStepDone slip => below slip 384
  | .bringupStepTimeout slip => below slip 384
  | .lightLoss slip => below slip 384
  | .alignmentMarker slip lower upper _ => below slip 384 && Symbols.wf 64 lower && Symbols.wf 64 upper
  | .codewordReceive slip lower upper => below slip 384 && Symbols.wf 1360 lower && Symbols.wf 1360 upper
  | .nakReplay slip => below slip 384
  | .replayTimeout slip => below slip 384
  | .packetStart slip => below slip 384
  | .identTimer slip => below slip 384
  | .ident slip _ => below slip 384
  | .identAck slip _ => below slip 384
  | .identTimeout slip => below slip 384
  | .laneIdleEntry slip => below slip 384
  | .laneWake slip => below slip 384
  | .laneWakeDone slip => below slip 384
  | .wakeFail slip => below slip 384
  | .opticsAlarm engine lane _ => below engine 48 && below lane 16
  | .opticsAlarmClear engine lane _ => below engine 48 && below lane 16
  | .engineLost engine _ => below engine 48
  | .announceTimer => true
  | .announce slip _ => below slip 384
  | .syncTimer => true
  | .syncReq slip _ _ _ => below slip 384
  | .syncResp slip _ _ _ => below slip 384
  | .parentSilence => true
  | .ppsEdge _ _ => true
  | .ppsMissing => true
  | .tideWrap => true
  | .jobLaunch job => below job 256
  | .routeSwitchTime => true
  | .bankRetire => true
  | .tideTableInstall slip => below slip 384
  | .reroute hawser => below hawser 384
  | .partitionEvaluation => true
  | .transitPacket a => a.wf
  | .unknownPacket a => a.wf
  | .xsync a => a.wf
  | .xsyncTimer landing peer peerLanding => below landing 8 && below peer 65536 && below peerLanding 8
  | .xack a => a.wf
  | .xackTimer landing peer peerLanding lane => below landing 8 && below peer 65536 && below peerLanding 8 && below lane 4
  | .crossingSend landing peer peerLanding lane => below landing 8 && below peer 65536 && below peerLanding 8 && below lane 4
  | .originSend landing => below landing 8
  | .retransmitTimeout landing peer peerLanding lane => below landing 8 && below peer 65536 && below peerLanding 8 && below lane 4
  | .write a => a.wf
  | .contribute a => a.wf
  | .contrib a => a.wf
  | .scale a => a.wf
  | .trailer a => a.wf
  | .pdesc a => a.wf
  | .pdata a => a.wf
  | .credit a => a.wf
  | .creditSend rctx _ => below rctx 4096
  | .resend a => a.wf
  | .status a => a.wf
  | .ringStop a => a.wf
  | .result a => a.wf
  | .gather a => a.wf
  | .gatherReq a => a.wf
  | .drawReq a => a.wf
  | .beacon a => a.wf
  | .norm a => a.wf
  | .move a => a.wf
  | .softLagExpiry rctx _ => below rctx 4096
  | .hardLagExpiry rctx _ => below rctx 4096
  | .foldBatch => true
  | .foldBatchDone => true
  | .updateSweep => true
  | .gatherSweep => true
  | .recordWriteDone octx _ _ => below octx 4096
  | .imageDigestDone octx _ _ => below octx 4096
  | .chunkRelease rctx _ => below rctx 4096
  | .beaconTimeout octx => below octx 4096
  | .reshardInstall octx => below octx 4096
  | .mcastResidue landing _ => below landing 8
  | .writeDoneArrival a => a.wf
  | .badCycle => true
  | .patternSymbolReceive slip lane _ => below slip 384 && below lane 2

end Sys2Proof
end

