-- ==== Sys2Proof/Machine/Bytes.lean ====
section
/-!
DEFINITION. Byte strings (R5, R6), sparse tables, and wrapping comparisons (R173, R236, R352).
-/
namespace Sys2Proof.Machine

/-! ### Little-endian fields (R5) -/

/-- The value of a little-endian field. -/
def leNat : List Byte → Nat
  | [] => 0
  | b :: bs => b.toNat + 256 * leNat bs

/-- `n` little-endian bytes of a value. -/
def le : Nat → Nat → List Byte
  | 0, _ => []
  | n + 1, v => BitVec.ofNat 8 v :: le n (v / 256)

/-- `n` little-endian bytes of a signed value, two's complement. -/
def leInt (n : Nat) (v : Int) : List Byte := le n (v % (2 : Int) ^ (8 * n)).toNat

/-- `n` zero bytes. -/
def zeros (n : Nat) : List Byte := List.replicate n 0

/-- The `n` bytes at an offset. -/
def bytesAt (bs : List Byte) (off n : Nat) : List Byte := (bs.drop off).take n

/-- The field of `n` bytes at an offset. -/
def field (bs : List Byte) (off n : Nat) : Nat := leNat (bytesAt bs off n)

/-- The bits `hi` to `lo` of a value (R4). -/
def bits (v hi lo : Nat) : Nat := (v >>> lo) % 2 ^ (hi + 1 - lo)

/-- One bit of a value. -/
def bit (v i : Nat) : Bool := v.testBit i

/-- A Bool as a bit. -/
def b2n (b : Bool) : Nat := if b then 1 else 0

/-- Whether every byte of a range is 0: the RSVD test of R9. -/
def zeroAt (bs : List Byte) (off n : Nat) : Bool := (bytesAt bs off n).all (· == 0)

/-- A byte string cut or padded with zeros to `n` bytes. -/
def fit (n : Nat) (bs : List Byte) : List Byte := (bs ++ zeros (n - bs.length)).take n

/-- A value with a set of bits, one per listed index. -/
def maskOf (is : List Nat) : Nat := is.foldl (fun a i => a ||| 2 ^ i) 0

/-- The indexes below `n` whose bit is set. -/
def setBits (n v : Nat) : List Nat := (List.range n).filter v.testBit

/-- The ASCII bytes of a string. -/
def ascii (t : String) : List Byte := t.toList.map (fun c => BitVec.ofNat 8 c.toNat)

/-! ### Sparse tables -/

/-- The value listed for a key. -/
def tabGet? {α : Type} (t : Tab α) (k : Nat) : Option α := (t.find? (fun p => p.1 == k)).map Prod.snd

/-- The value of a key, or the table's reset value. -/
def tabGet {α : Type} (t : Tab α) (k : Nat) (d : α) : α := (tabGet? t k).getD d

/-- The table with a key's value set, keys ascending. -/
def tabPut {α : Type} : Tab α → Nat → α → Tab α
  | [], k, v => [(k, v)]
  | (k', v') :: t, k, v => if k < k' then (k, v) :: (k', v') :: t else if k = k' then (k, v) :: t
    else (k', v') :: tabPut t k v

/-- The table without a key. -/
def tabDel {α : Type} (t : Tab α) (k : Nat) : Tab α := t.filter (fun p => p.1 != k)

/-- The table with a listed key's value changed. -/
def tabMod {α : Type} (t : Tab α) (k : Nat) (f : α → α) : Tab α :=
  t.map (fun p => if p.1 = k then (p.1, f p.2) else p)

/-- Whether a key is listed. -/
def tabHas {α : Type} (t : Tab α) (k : Nat) : Bool := (tabGet? t k).isSome

/-! ### Wrapping comparisons -/

/-- Sequence number `a` is before `b` (R173): (b - a) mod 2^24 in 1 to 2^23 - 1. -/
def seqBefore (a b : Seq) : Bool := 1 ≤ (b - a).toNat && (b - a).toNat < 2 ^ 23

/-- Frame number `a` is before `b` (R236). -/
def fseqBefore (a b : FSeq) : Bool := 1 ≤ (b - a).toNat && (b - a).toNat ≤ 2047

/-- Tide count `a` lies in the future of `now` (R352): difference in 1 to 2^63 - 1. -/
def tideFuture (a now : Tide) : Bool := 1 ≤ (a - now).toNat && (a - now).toNat < 2 ^ 63

/-- Ticks from `a` to `now`, modulo 2^64; none have passed while `a` lies in the future (R352). -/
def tideSince (a now : Tide) : Nat := if tideFuture a now then 0 else (now - a).toNat

/-- Whether tide count `a` has been reached at `now` (R352). -/
def tideReached (a now : Tide) : Bool := !tideFuture a now

/-- A saturating sum (R349, R251). -/
def satAdd (w a b : Nat) : Nat := min (a + b) (2 ^ w - 1)

/-- ceil(a / b). -/
def ceilDiv (a b : Nat) : Nat := (a + b - 1) / b

/-- `a` rounded up to a multiple of `b`. -/
def roundUp (a b : Nat) : Nat := ceilDiv a b * b

/-- floor of the base-2 logarithm; 0 for 0. -/
def log2 (n : Nat) : Nat := Nat.log2 n

/-- A list cut into runs of `n`, with `fuel` at least the number of runs. -/
def chunksOf {α : Type} : Nat → Nat → List α → List (List α)
  | 0, _, _ => []
  | fuel + 1, n, l => if l.isEmpty then [] else l.take n :: chunksOf fuel n (l.drop n)

/-! ### Sorting -/

/-- A list with an entry put before the first that it does not come after. -/
def insertBy {α : Type} (before : α → α → Bool) (x : α) : List α → List α
  | [] => [x]
  | y :: ys => if before x y then x :: y :: ys else y :: insertBy before x ys

/-- A list in an order; entries that tie keep theirs. -/
def sortBy {α : Type} (before : α → α → Bool) : List α → List α
  | [] => []
  | x :: xs => insertBy before x (sortBy before xs)

/-- Numbers in ascending order. -/
def sortNat (ns : List Nat) : List Nat := sortBy (fun a b => decide (a ≤ b)) ns

end Sys2Proof.Machine
end

