-- ==== Sys2Proof/Machine/Digest.lean ====
section
/-!
DEFINITION. Digests (R6): SHA3-512 as FIPS 202 defines it, the Merkle construction of R156 and R157, and the counter
generator of R136 to R139.
-/
namespace Sys2Proof.Machine

/-! ### SHA3-512 -/

/-- A lane of the Keccak state. -/
abbrev Lane64 := BitVec 64

/-- Lane (x, y) of a state listed at index x + 5y. -/
def lane (a : List Lane64) (x y : Nat) : Lane64 := a.getD (x % 5 + 5 * (y % 5)) 0

/-- One bit of the round constants' shift register, FIPS 202 algorithm 5, as an 8-bit register. -/
def rcStep (r : Nat) : Nat := if r.testBit 7 then ((2 * r) ^^^ 0x171) % 256 else 2 * r

/-- Round constant bits: `n` bits from register `r`, placed at 2^j - 1. -/
def rcBits : Nat → Nat → Nat → Nat
  | 0, _, _ => 0
  | n + 1, r, j => (if r.testBit 0 then 2 ^ (2 ^ j - 1) else 0) ||| rcBits n (rcStep r) (j + 1)

/-- The register after `n` steps. -/
def rcAfter : Nat → Nat → Nat
  | 0, r => r
  | n + 1, r => rcAfter n (rcStep r)

/-- Round constant of round `i`. -/
def roundConst (i : Nat) : Lane64 := BitVec.ofNat 64 (rcBits 7 (rcAfter (7 * i) 1) 0)

/-- The 24 lane moves of rho and pi: from (x, y), the rotation (t + 1)(t + 2) / 2 and the next position. -/
def rhoPi : Nat → Nat → Nat → Nat → List Lane64 → List (Nat × Lane64)
  | 0, _, _, _, _ => []
  | n + 1, t, x, y, a =>
    let x' := y
    let y' := (2 * x + 3 * y) % 5
    (x' + 5 * y', (lane a x y).rotateLeft ((t + 1) * (t + 2) / 2 % 64)) :: rhoPi n (t + 1) x' y' a

/-- One round of Keccak-f[1600]. -/
def keccakRound (a : List Lane64) (rc : Lane64) : List Lane64 :=
  let c := (List.range 5).map (fun x => lane a x 0 ^^^ lane a x 1 ^^^ lane a x 2 ^^^ lane a x 3 ^^^ lane a x 4)
  let d := (List.range 5).map (fun x => c.getD ((x + 4) % 5) 0 ^^^ (c.getD ((x + 1) % 5) 0).rotateLeft 1)
  let th := (List.range 25).map (fun i => a.getD i 0 ^^^ d.getD (i % 5) 0)
  let b := (rhoPi 24 0 1 0 th).foldl (fun l p => l.set p.1 p.2) th
  let e := (List.range 25).map (fun i =>
    lane b (i % 5) (i / 5) ^^^ (~~~ (lane b (i % 5 + 1) (i / 5)) &&& lane b (i % 5 + 2) (i / 5)))
  e.set 0 (e.getD 0 0 ^^^ rc)

/-- Keccak-f[1600]. -/
def keccakF (a : List Lane64) : List Lane64 := (List.range 24).foldl (fun s i => keccakRound s (roundConst i)) a

/-- Absorption of one 72-byte block. -/
def absorb (a : List Lane64) (block : List Byte) : List Lane64 :=
  let ws := (chunksOf 9 8 block).map (fun w => BitVec.ofNat 64 (leNat w))
  keccakF ((List.range 25).map (fun i => a.getD i 0 ^^^ ws.getD i 0))

/-- The padding of SHA3: bits 01, then 10*1. -/
def sha3Pad (len : Nat) : List Byte :=
  let k := 72 - len % 72
  if k = 1 then [0x86#8] else [0x06#8] ++ zeros (k - 2) ++ [0x80#8]

/-- SHA3-512 of a byte string, 64 bytes. -/
def sha3 (m : List Byte) : List Byte :=
  let p := m ++ sha3Pad m.length
  let a := (chunksOf (p.length / 72 + 1) 72 p).foldl absorb (List.replicate 25 0)
  ((a.take 8).map (fun w => le 8 w.toNat)).flatten

/-! ### Merkle trees (R156, R157) -/

/-- The largest power of two below n, for n of 2 or more. -/
def splitPoint (n : Nat) : Nat := 2 ^ log2 (n - 1)

/-- `mth` of R157 over leaf hashes; `fuel` is at least the number of leaves. -/
def merkle : Nat → List (List Byte) → List Byte
  | 0, _ => sha3 []
  | fuel + 1, h =>
    match h with
    | [] => sha3 []
    | [x] => x
    | _ =>
      let k := splitPoint h.length
      sha3 ([0x01#8] ++ merkle fuel (h.take k) ++ merkle fuel (h.drop k))

/-- A Merkle root over leaf hashes. -/
def merkleRoot (h : List (List Byte)) : List Byte := merkle (h.length + 1) h

/-- The inclusion path of leaf i, from the leaf towards the root (R157). -/
def merklePath : Nat → List (List Byte) → Nat → List (List Byte)
  | 0, _, _ => []
  | fuel + 1, h, i =>
    if h.length ≤ 1 then []
    else
      let k := splitPoint h.length
      if i < k then merklePath fuel (h.take k) i ++ [merkleRoot (h.drop k)]
      else merklePath fuel (h.drop k) (i - k) ++ [merkleRoot (h.take k)]

/-- A leaf hash (R156): 0x00, OP_NUM, CHUNK, digest of the leaf data. -/
def leafHash (opNum chunk : Nat) (digest : List Byte) : List Byte :=
  sha3 ([0x00#8] ++ le 2 opNum ++ le 4 chunk ++ digest)

/-! ### The counter generator -/

/-- Four counter words and the two key words of a round of R136. -/
structure PhiloxState where
  x0 : BitVec 32
  x1 : BitVec 32
  x2 : BitVec 32
  x3 : BitVec 32
  k0 : BitVec 32
  k1 : BitVec 32
  deriving DecidableEq, Repr

/-- One round of R136, with the key advanced for the next. -/
def philoxRound (s : PhiloxState) : PhiloxState :=
  let p0 := 0xD2511F53 * s.x0.toNat
  let p1 := 0xCD9E8D57 * s.x2.toNat
  { x0 := BitVec.ofNat 32 (p1 / 2 ^ 32) ^^^ s.x1 ^^^ s.k0, x1 := BitVec.ofNat 32 p1,
    x2 := BitVec.ofNat 32 (p0 / 2 ^ 32) ^^^ s.x3 ^^^ s.k1, x3 := BitVec.ofNat 32 p0,
    k0 := s.k0 + 0x9E3779B9#32, k1 := s.k1 + 0xBB67AE85#32 }

/-- `philox` of R136 for a counter and a 64-bit seed (R137): the four output words. -/
def philox (x0 x1 x2 x3 : Nat) (seed : BitVec 64) : List (BitVec 32) :=
  let s0 : PhiloxState :=
    { x0 := BitVec.ofNat 32 x0, x1 := BitVec.ofNat 32 x1, x2 := BitVec.ofNat 32 x2, x3 := BitVec.ofNat 32 x3,
      k0 := BitVec.ofNat 32 seed.toNat, k1 := BitVec.ofNat 32 (seed.toNat / 2 ^ 32) }
  let s := (List.range 10).foldl (fun t _ => philoxRound t) s0
  [s.x0, s.x1, s.x2, s.x3]

/-- The lowest index whose running sum of weights exceeds x (R138). -/
def pickFrom : List Nat → Nat → Nat → Nat
  | [], _, i => i
  | w :: ws, x, i => if x < w then i else pickFrom ws (x - w) (i + 1)

/-- The choice of R138 by an output word. -/
def weightedChoice (ws : List Nat) (y : Nat) : Nat := pickFrom ws (y * ws.sum / 2 ^ 32) 0

/-- The counter of a route choice, Table 05.3 domain 0: crossing sequence number, lane, transmissions before this one,
job (0 for none), hops passed, ingress, egress, destination. -/
def routeDraw (seq : Seq) (lane xmit job hop ingress egress dst : Nat) (seed : BitVec 64) : Nat :=
  let x0 := seq.toNat + lane % 4 * 2 ^ 24 + min xmit 15 * 2 ^ 26
  ((philox x0 (job % 256 * 2 ^ 16 + hop % 2 ^ 16) (ingress % 2 ^ 16 + egress % 2 ^ 16 * 2 ^ 16) (dst % 2 ^ 16) seed).getD 0
    0).toNat

/-- One block of draws (R139, Table 05.3 domain 1): block `k` of a request. -/
def drawBlock (seed : BitVec 64) (job stream step index k : Nat) : List Byte :=
  ((List.range 4).map (fun j =>
    ((philox ((4 * (index + k) + j) % 2 ^ 32) (2 ^ 28 + job % 256 * 2 ^ 16 + stream % 2 ^ 16) (step % 2 ^ 32)
      (step / 2 ^ 32 % 2 ^ 32) seed).map (fun y => le 4 y.toNat)).flatten)).flatten

end Sys2Proof.Machine
end

