-- ==== Sys2Proof/Config.lean ====
section
/-!
DEFINITION. What one F384 fixes and its manual leaves open: constants and uninterpreted functions without a body, so that
no proof can lean on a value. Log entries 3, 5, 8, 10 and 11.
-/
namespace Sys2Proof.Config

/-- A fresh free value of `w` bits for each index; `State.freeCount` is the index. Log entry 3. -/
opaque freeValue (w : Nat) (n : Nat) : BitVec w

/-- What a byte of the state area that nothing has written reads as: R285 calls it undefined. The first argument counts
the losses of contents (power loss, reset, trip), so that the value may differ after each. Log entry 3. -/
opaque undefinedByte : Nat → Nat → Byte

/-- SERIAL of this F384 (Table 11.3), 64 bits. -/
opaque serial : BitVec 64

/-- STEPPING of DEV_ID (Table 11.3), 8 bits. -/
opaque stepping : BitVec 8

/-- ROM_VERSION (Tables 15.1, 15.7), 16 bits. -/
opaque romVersion : BitVec 16

/-- Offset in BAR2 of the HDM decoder capability: CXL 3.1 leaves it to the Register Locator (R283). Log entry 7. -/
opaque hdmCapability : Nat

/-- Dziwin's PCI vendor ID (R283). -/
opaque vendorId : BitVec 16

/-- Offset in BAR2 of Memory Device Status, which CXL 3.1 leaves to the device capabilities array (R285). Log entry 7. -/
opaque memoryDeviceStatus : Nat

/-- What a configuration or component register that the manual leaves to PCIe and CXL 3.1 reads as. Log entry 44. -/
opaque configDword : Nat → BitVec 32

/-- The customer's co-signature fuses (R365): whether COSIGN_REQUIRED is blown, and the 64-byte key digest. -/
opaque cosignRequired : Bool
opaque cosignDigest : List Byte

/-- The 256-bit unique device secret in fuses (R355). -/
opaque deviceSecret : BitVec 256

/-- The private half of the device identity key, as its 32-byte seed, encrypted in the non-volatile store (R355). -/
opaque identitySealed : List Byte

/-- Decryption under a key derived from the device secret (R355): the secret, what is stored. -/
opaque decryptKey : List Byte → List Byte → List Byte

/-- Dziwin's four firmware public keys, held in the ROM (R364). -/
opaque dziwinKey : Nat → List Byte

/-- What the certificates hold that the manual leaves open (R355, R359), DER bytes: the serial numbers; the issuer and the validity of the
device identity certificate; its subject, from SERIAL; the subject of the alias certificate, from its public key; and the other
extensions of each. -/
opaque identitySerial : List Byte
opaque aliasSerial : List Byte → List Byte
opaque identityIssuer : List Byte
opaque identityNotBefore : List Byte
opaque identityNotAfter : List Byte
opaque identitySubject : List Byte → List Byte
opaque aliasSubject : List Byte → List Byte
opaque identityExtensions : List Byte
opaque aliasExtensions : List Byte

/-- The signature of Dziwin's device certification authority on the device identity certificate (R355), 4,627 bytes. -/
opaque authoritySign : List Byte → BitVec 37016

/-- ML-DSA-87 KeyGen_internal of FIPS 204: the 2,592-byte encoded public key from the 32-byte seed (R358). -/
opaque mldsaPublicKey : List Byte → List Byte

/-- ML-DSA-87 signing in hedged mode (R153): seed, context string, message, and the hedge. The manual fixes the length,
4,627 bytes (Table 05.9). -/
opaque mldsaSign : List Byte → List Byte → List Byte → Nat → BitVec 37016

/-- ML-DSA-87 verification of FIPS 204 (R364, R365): public key, context string, message, signature. -/
opaque mldsaVerify : List Byte → List Byte → List Byte → List Byte → Bool

/-- Laser bias recorded at manufacture, engine and lane (Table 10.10, BIAS_BASE), 0.01 mA. -/
opaque biasBase : Nat → Nat → Nat

/-- Bytes of a standard CXL mailbox payload that the manual leaves to CXL 3.1 (Table 11.9): command, offset. -/
opaque cxlStandard : Nat → Nat → Byte

/-- What slot A of a part as manufactured holds (log entry 5): the bytes of the factory image. -/
opaque factoryByte : Nat → Byte

end Sys2Proof.Config
end

