-- ==== Sys2Proof/Machine/State.lean ====
section
/-!
DEFINITION. The state of the F384: every register, table, queue, counter, mode and pin the manual gives it, as plain data,
and its value right after reset. Field comments cite the rule that names them; INVENTORY.md lists them with reset values.
-/
namespace Sys2Proof.Machine

/-! ### Outcomes -/

/-- What stops the model. -/
inductive Fault where
  /-- A CXL.mem access outside the committed range of HDM decoder 0 (R284): the address does not exist in the
  part. Raised by CXL_MEM_READ and CXL_MEM_WRITE. Safe: the hardware is never given such an access. -/
  | outsideDecoder
  deriving DecidableEq, Repr

/-- What the model refuses. -/
inductive Refusal where
  /-- A command of the table without a meaning in the model. No arm raises it. Safe. -/
  | notModelled (mnemonic : String)
  deriving DecidableEq, Repr

/-! ### What leaves the part -/

/-- One act of the part towards the outside, in order. Model's own (log entry 4). -/
inductive Output where
  /-- A write of host memory over CXL.io (R290, R308). -/
  | hostWrite (addr : Nat) (bytes : List Byte)
  /-- An MSI-X message (R298). -/
  | interrupt (vector : Nat)
  /-- The data of a CXL.mem read, or poison (R285). -/
  | memData (offset : Nat) (data : List Byte) (poison : Bool)
  /-- The answer to a BAR0 read (R286). -/
  | registerData (value : Nat)
  /-- The answer to a configuration request: `retry` is Configuration Request Retry Status (R378), else the register's value. -/
  | configAnswer (retry : Bool) (value : Nat)
  /-- An error message of advanced error reporting (R281). -/
  | errorMessage (fatal : Bool)
  /-- A standard mailbox answer: return code 0 or Unsupported, and payload (R299). -/
  | mailbox (unsupported : Bool) (payload : List Byte)
  /-- A service frame to a MAC address: TYPE, SEQ and payload (Table 11.10). -/
  | serviceFrame (mac ftype seq : Nat) (payload : List Byte)
  /-- An SMBus Block Read reply (Table 17.6), a NACK of the command byte, or a release of the bus (R392). -/
  | smbusReply (bytes : List Byte)
  | smbusNack
  | smbusRelease
  /-- A DATA or LINK frame started on a slip: its 640 bytes (R233). -/
  | frame (slip : Nat) (bytes : List Byte)
  /-- The codeword that carries a frame: its control bits and the levels of both lane positions (R253 to R258). -/
  | codeword (slip cb : Nat) (lower upper : List Nat)
  /-- An alignment marker sent on a slip (R259): AM_COUNT. -/
  | marker (slip count : Nat)
  /-- A training frame sent on a lane position: its 1,024 levels (R263). -/
  | training (slip lane : Nat) (levels : List Nat)
  /-- Levels of a test pattern, or of a far-end loop, put out on a physical lane (R269); `fibre`: they reach the fibre, else the lasers
  are at standby (Table 10.6). -/
  | symbols (slip lane : Nat) (fibre : Bool) (levels : List Nat)
  deriving DecidableEq, Repr

/-- An event packet of Table 12.15. -/
structure Event where
  code : Nat
  job : Option Nat
  seq : Index
  tide : Tide
  params : List Byte
  deriving DecidableEq, Repr, Inhabited

/-- A command dispatched to a Ferryman core and not yet completed (R18). `orphan`: a ring reset has discarded its
completion (R287). -/
structure Running where
  x : Exec
  core : Nat
  orphan : Bool
  deriving DecidableEq, Repr, Inhabited

/-! ### Always-on island -/

/-- The power-on sequence of Table 16.1, events 1 to 4. -/
inductive PowerStage where
  | off | inputOn | busOn | railsOn
  deriving DecidableEq, Repr, Inhabited

/-- A slot of the non-volatile store (Tables 15.6, 15.7). `bytes` are the image bytes received, by 64-byte unit. -/
structure ImageSlot where
  state : Nat
  securityVersion : Nat
  keyIndex : Nat
  cosignPresent : Bool
  cosignVerified : Bool
  version : Nat
  imageLen : Nat
  detail : Nat
  measurement : List Byte
  factory : Bool
  bytes : Tab (List Byte)
  deriving DecidableEq, Repr, Inhabited

/-- The transfer in progress (R370). -/
structure Transfer where
  id : Nat
  owner : Nat
  slot : Nat
  imageLen : Nat
  erasing : Bool
  deriving DecidableEq, Repr, Inhabited

/-- The answer to the last END (R370): owner, TRANSFER_ID, STATUS, NEXT_MISSING, DETAIL. -/
structure EndAnswer where
  owner : Nat
  id : Nat
  slot : Nat
  status : Nat
  value : Nat
  detail : Nat
  deriving DecidableEq, Repr, Inhabited

/-- What the always-on island and the ROM remember of the boot (R372, R373). `slot` is the slot booted from; `recovered`: ROM recovery
has been entered, and the boot that follows is a trial (R375). -/
structure Boot where
  slot : Nat
  trial : Bool
  reverted : Bool
  reverting : Bool
  retried : Bool
  recovered : Bool
  started : Bool
  passed : Bool
  deriving DecidableEq, Repr, Inhabited

/-- A monitor record of Table 13.7. `outRun`: samples in a row outside the window; `outRaised`: POWER has been raised for them (R326). -/
structure Monitor where
  high : Bool
  low : Bool
  trip : Bool
  invalid : Bool
  value : Int
  peak : Int
  sampled : Bool
  outRun : Nat
  outRaised : Bool
  deriving DecidableEq, Repr, Inhabited

/-- A fault record of Table 14.4; PERSISTS is computed from the state when it is read. -/
structure FaultRecord where
  num : Nat
  cls : Nat
  level : Nat
  unit : Nat
  cause : Nat
  state : Nat
  escalated : Bool
  repeated : Bool
  merged : Bool
  prior : Bool
  origLevel : Nat
  count : Nat
  firstTide : Tide
  detail : Nat
  deriving DecidableEq, Repr, Inhabited

/-- The always-on island (Table 13.1, R344, R376) and the non-volatile store. `inputPower` (W, averaged over 1 ms) and `inputCurrent`
(10 mA) are the last sample's; `edge`: RECOVERY_N as sampled at the last recognised rising edge of RESET_N (R390); `coolRun` and `lowRun`
count the samples in a row that were cool and low (R328). -/
structure AlwaysOn where
  stage : PowerStage
  railsUp : Nat
  pwrgood : Bool
  errorN : Bool
  resetN : Bool
  edge : Option Bool
  collector : Bool
  hotSwapOpen : Bool
  tripped : Bool
  slots : Tab ImageSlot
  nextSlot : Nat
  goodSlot : Option Nat
  fusedSv : Nat
  revoked : BitVec 4
  transfer : Option Transfer
  lastEnd : Option EndAnswer
  boot : Boot
  monitors : Tab Monitor
  inputPower : Nat
  inputCurrent : Nat
  coolRun : Nat
  lowRun : Nat
  priorFatal : Option FaultRecord
  priorFatalTide : Tide
  losses : Nat
  deriving DecidableEq, Repr, Inhabited

/-! ### Boot, clocks, power, units -/

/-- How far the control plane has come since reset (Table 16.1, R372, R375). -/
inductive Phase where
  | unpowered | inReset | loopsStarting | startup | ready | recovery | healthFailed
  deriving DecidableEq, Repr, Inhabited

/-- The control plane's boot state (R355, R358, R372, R379). -/
structure Sys where
  phase : Phase
  recoveryN : Bool
  componentsLoaded : Bool
  selfTested : List UnitRef
  calibrated : List Nat
  memReady : Bool
  secretLocked : Bool
  aliasSeed : List Byte
  aliasKeyId : List Byte
  aliasCert : List Byte
  fwMeasurement : List Byte
  devResetAt : Option Tide
  deriving DecidableEq, Repr, Inhabited

/-- State of a phase-locked loop (R317). -/
inductive LoopState where
  | stopped | starting | locked
  deriving DecidableEq, Repr, Inhabited

/-- The loops of Table 13.2. -/
structure Clocks where
  core : LoopState
  coreDiv4 : Bool
  datapath : LoopState
  tide : LoopState
  cxlPhy : LoopState
  hbm : Tab LoopState
  serdes : Tab LoopState
  deriving DecidableEq, Repr, Inhabited

/-- Throttling and latency budgets (R318, R319, R327). -/
structure Power where
  k : Nat
  powerCap : Nat
  throttleTemp : Nat
  deviceBudget : Nat
  hawserBudget : Tab Nat
  deriving DecidableEq, Repr, Inhabited

/-- Idle state of a landing, the deck or a stack (R321): whether it is in its idle state, whether it is waking, and the
tide count at which it last stopped doing work. -/
structure IdleState where
  idle : Bool
  waking : Bool
  lastWork : Tide
  deriving DecidableEq, Repr, Inhabited

/-! ### Host interface -/

/-- The writable fields of a ring control register (Table 11.5). -/
structure RingCtrl where
  enable : Bool
  ordered : Bool
  log2 : Nat
  cqLog2 : Nat
  vector : Nat
  irqEn : Bool
  coalCount : Nat
  coalTime : Nat
  deriving DecidableEq, Repr, Inhabited

/-- The bits of a ring status register (Table 11.6). -/
structure RingStatus where
  idle : Bool
  overrun : Bool
  cfgErr : Bool
  dmaErr : Bool
  dupTag : Bool
  lost : Bool
  deriving DecidableEq, Repr, Inhabited

/-- A queue pair (Table 11.3). `fetched`: commands fetched and not dispatched, in ring order (R292). -/
structure QueuePair where
  sqBase : Nat
  cqBase : Nat
  cqWb : Nat
  ctrl : RingCtrl
  status : RingStatus
  sqTail : Index
  sqHead : Index
  cqHead : Index
  cqTail : Index
  fetched : List Cmd
  unsignalled : Nat
  firstUnsignalled : Tide
  deriving DecidableEq, Repr, Inhabited

/-- The event ring or the audit ring (Table 11.3, R154). -/
structure RingPort where
  base : Nat
  wb : Nat
  ctrl : RingCtrl
  status : RingStatus
  head : Index
  tail : Index
  unsignalled : Nat
  firstUnsignalled : Tide
  deriving DecidableEq, Repr, Inhabited

/-- The writable configuration registers of the function (R281, R283, R324), as PCIe lays them out: the command register, the base
address registers, MSI-X Enable, the device control, link control and L1 substate registers, the power state, and advanced error
reporting. -/
structure ConfigSpace where
  command : Nat
  bars : Tab Nat
  msixEnable : Bool
  deviceControl : Nat
  linkControl : Nat
  l1Substates : Nat
  pmcsr : Nat
  aerUncStatus : Nat
  aerUncMask : Nat
  aerUncSeverity : Nat
  aerCorStatus : Nat
  aerCorMask : Nat
  deriving DecidableEq, Repr, Inhabited

/-- The CXL controller and the rings (chapter Host Interface over CXL). `evLost` is the count of discarded events awaiting EVENTS_LOST,
`evLostTide` the tide count of the first (R296). `evFresh`: how many of the newest events were raised in this tick, so that one
more may still come before them by its code; their EVENT frames have not been sent (R296, R303). -/
structure HostIf where
  linkUp : Bool
  linkMode : Nat
  width : Nat
  bar0 : Bool
  hdmBase : Option Nat
  hdmStage : Tab Nat
  tideLatch : Option Nat
  qps : Tab QueuePair
  ev : RingPort
  aud : RingPort
  msix : Tab Nat
  msixFnMask : Bool
  msixPending : BitVec 64
  cfg : ConfigSpace
  evQueue : List Event
  evFresh : Nat
  evLost : Nat
  evLostTide : Tide
  evSeq : Index
  running : List Running
  deriving DecidableEq, Repr, Inhabited

/-- The standard mailbox (R299): event records with their log, interrupt policy, alert configuration and timestamp, none before it is
set. -/
structure Mailbox where
  records : List (Nat × List Byte)
  policy : List Byte
  alerts : List Byte
  timestamp : Option Nat
  deriving DecidableEq, Repr, Inhabited

/-- A kept completion of a service-port command (R302): `none` while it runs. -/
structure KeptCompletion where
  mac : Nat
  tag : Nat
  answer : Option (List Byte)
  deriving DecidableEq, Repr, Inhabited

/-- The service port (R300-R303). `waiting`: commands accepted and held back by FENCE, oldest first (R305). -/
structure Service where
  clients : List Nat
  eventSeq : Nat
  waiting : List Exec
  kept : List KeptCompletion
  deriving DecidableEq, Repr, Inhabited

/-! ### Faults, counters -/

/-- The fault collector (R335-R341). -/
structure Faults where
  records : List FaultRecord
  nextNum : Nat
  merge : Bool
  deriving DecidableEq, Repr, Inhabited

/-- A saturating counter with its sticky SAT bit (R349). -/
structure Counter where
  value : Nat
  sat : Bool
  deriving DecidableEq, Repr, Inhabited

/-! ### Tide and jobs -/

/-- A master heard on a slip (R140): its announcement and when it was last heard. -/
structure Candidate where
  msg : TideMsg
  heard : Tide
  deriving DecidableEq, Repr, Inhabited

/-- The tide unit (R140-R144). `offset` and `delay` are in 1/256 ns, `rate` in parts per 10^9. `stepped`: by how much a step of R141
changed the count in this tick; the gates take the new count from the next tick (R231). -/
structure TideUnit where
  count : Tide
  priority : Nat
  refEnable : Bool
  refRejected : Bool
  refSeen : Bool
  goodEdges : Nat
  master : Bool
  parent : Option Nat
  heard : Tab Candidate
  locked : Bool
  inWindow : Nat
  outWindow : Nat
  offset : Int
  delay : Int
  rate : Int
  seq : Nat
  sentT1 : Option (Nat × Tide)
  stepped : BitVec 64
  deriving DecidableEq, Repr, Inhabited

/-- Launch states, Table 05.6. -/
inductive LaunchState where
  | unlaunched | pending | launched
  deriving DecidableEq, Repr, Inhabited

/-- A phase map, Table 04.13, with the digest of its bytes as set (Table 05.8). -/
structure PhaseMap where
  stages : Nat
  groups : Nat
  lctx : Nat
  contexts : List (Nat × Nat)
  stageRanks : List Nat
  digest : List Byte
  deriving DecidableEq, Repr, Inhabited

/-- An entry of a topology map, Table 05.2; `ring` is RING_SIZE to RING_PREV_CTX. -/
structure TopoEntry where
  addr : Nat
  ctx : Nat
  role : Nat
  t : Nat
  treeSet : Nat
  ring : List Nat
  c : Nat
  m : Nat
  links : List Byte
  deriving DecidableEq, Repr, Inhabited

/-- A job's class map (R170). -/
structure ClassMap where
  reduce : Nat
  request : Nat
  write : Nat
  mask : Nat
  deriving DecidableEq, Repr, Inhabited

/-- A job (Table 12.6). -/
structure Job where
  launch : LaunchState
  l : Tide
  replay : Bool
  seed : BitVec 64
  classes : ClassMap
  closed : Bool
  sliceMask : Nat
  rankBase : Nat
  rankCount : Nat
  phaseMaps : Tab PhaseMap
  topo : Option (List TopoEntry)
  topoDigest : List Byte
  budget : Option Nat
  deriving DecidableEq, Repr, Inhabited

/-! ### Addressing and routing -/

/-- A candidate word of a route table entry, Table 07.1. -/
structure Candidate16 where
  hawser : Nat
  weight : Nat
  fallback : Bool
  deriving DecidableEq, Repr, Inhabited

/-- Bank states, Table 07.3. -/
inductive BankState where
  | idle | pending | active | draining
  deriving DecidableEq, Repr, Inhabited

/-- A routing bank (R188). A route entry not listed is all zero; an attribute byte not listed is 0x03. -/
structure Bank where
  state : BankState
  routes : Tab (List Candidate16)
  attrs : Tab (BitVec 8)
  drainStart : Tide
  zeroSince : Option Tide
  deriving DecidableEq, Repr, Inhabited

/-- An expected-neighbour entry, Table 09.6. -/
structure Expected where
  any : Bool
  checkSlip : Bool
  role : Nat
  remoteSlip : Nat
  serial : Nat
  deriving DecidableEq, Repr, Inhabited

/-- What a member named in the packet that brought an operation, for R404: logical context and phase. -/
structure Naming where
  lctx : Nat
  phase : Nat
  deriving DecidableEq, Repr, Inhabited

/-- A status already sent for a packet that met no context (R73): its sender, a member's hawser or 2^16 + a peer's address, and what it
named. -/
structure Told where
  sender : Nat
  job : Nat
  ctx : Nat
  phase : Nat
  opNum : Nat
  chunk : Nat
  deriving DecidableEq, Repr, Inhabited

/-- A member's request that has gone to a peer: how the member named the context (R404), and the address and extent of the elements of
the reply that have been delivered (R185). -/
structure Asked where
  hawser : Nat
  job : Nat
  tag : Nat
  opNum : Nat
  chunk : Nat
  naming : Naming
  base : Option Nat
  extent : Nat
  deriving DecidableEq, Repr, Inhabited

/-- Tables shared by every landing (R158, R161, R188, R207, R247, R250): every copy is kept equal, so one is held. -/
structure Net where
  ownAddr : Option Nat
  released : Bool
  endpoints : Tab (BitVec 32)
  ranks : Tab (BitVec 32)
  bank0 : Bank
  bank1 : Bank
  switchAt : Option Tide
  switchCmd : Option Running
  reach : Tab Bool
  serviceChanged : Bool
  expected : Tab Expected
  neighbours : Tab Ident
  told : List Told
  asked : List Asked
  deriving DecidableEq, Repr, Inhabited

/-! ### Landings and the switch core -/

/-- What a packet serves: its context, and the position whose emission it counts for (R66), if any. -/
structure EmitTag where
  rctx : Nat
  pos : Option Nat
  deriving DecidableEq, Repr, Inhabited

/-- Where a packet or replica is bound (R216): a hawser's queue; a crossing (peer, peer landing, lane), where it waits
for window and copy room (R174); or, for a tide message, the one slip it is sent on (R140, R191). -/
inductive Dest where
  | hawser (h : Nat)
  | crossing (peer peerLanding lane : Nat)
  | slip (n : Nat)
  deriving DecidableEq, Repr, Inhabited

/-- A packet's replica for one destination (chapter 08, Multicast): the packet with that destination's header, and the
LANDING that follows it directly (R185). -/
structure Replica where
  dest : Dest
  pkt : Packet
  follow : Option Packet
  deriving DecidableEq, Repr, Inhabited

/-- A packet in a landing's virtual output queues (R216): its replicas that have not started, the residue deadline once one
of several has (R221), the slip it is charged to (R212), whose emission it counts for, and how a member named the context in it
(R404). -/
structure Queued where
  id : Nat
  pkt : Packet
  reps : List Replica
  multicast : Bool
  residueAt : Option Tide
  chargedSlip : Option Nat
  originated : Bool
  emit : Option EmitTag
  named : Option Naming
  deriving DecidableEq, Repr, Inhabited

/-- A packet the F384 originates, waiting in its source for room in the origin region (R214). -/
structure Sourced where
  pkt : Packet
  reps : List Replica
  multicast : Bool
  emit : Option EmitTag
  deriving DecidableEq, Repr, Inhabited

/-- Buffer limits of a landing (Tables 08.1, 08.2). `limits` is keyed by local slip x 8 + class. -/
structure Buffers where
  copyLimit : Nat
  reseqLimit : Nat
  origin : Tab Nat
  limits : Tab Nat
  deriving DecidableEq, Repr, Inhabited

/-- Class service of R224: the class visited next of 2 to 7, whether it has had its quantum, and the deficits. -/
structure Serve where
  cur : Nat
  granted : Bool
  deficit : Tab Nat
  deriving DecidableEq, Repr, Inhabited

/-- A landing (R15). `rx`: packets handed up by the link layer and still charged to their slips (R212), in the order in which they
enter their queues; the newest `rxFresh` came in this tick (R216). `serve`: class service of the takers of R219 that are no slips. -/
structure Landing where
  power : IdleState
  buf : Buffers
  rx : List Arrival
  rxFresh : Nat
  serve : Tab Serve
  voq : List Queued
  sources : List Sourced
  nextId : Nat
  deriving DecidableEq, Repr, Inhabited

/-- `SWITCH_SET` values (Table 08.6): RESIDUE in us and CONG_LIMIT by class. -/
structure SwitchCfg where
  residue : Nat
  cong : Tab Nat
  deriving DecidableEq, Repr, Inhabited

/-! ### Slips -/

/-- Slip states, Table 09.3. -/
inductive SlipState where
  | down | identify | quarantine | inService
  deriving DecidableEq, Repr, Inhabited

/-- A toll (R226). -/
structure Toll where
  enable : Bool
  rate : Nat
  burst : Nat
  tokens : Nat
  deriving DecidableEq, Repr, Inhabited

/-- A tide table (R229): BASE and (GATE, DURATION) entries. -/
structure TideTable where
  base : Tide
  entries : List (BitVec 8 × Nat)
  deriving DecidableEq, Repr, Inhabited

/-- A packet sent with its HSEQ and not yet known to have arrived (R244), and the slip it arrived on, if any (R203). -/
structure SentPkt where
  seq : Seq
  pkt : Packet
  via : Option Nat
  deriving DecidableEq, Repr, Inhabited

/-- A frame held for replay (R238): FSEQ, FTYPE, unit map, units, HSEQ entries, and the packets it carries. -/
structure HeldFrame where
  fseq : FSeq
  ftype : Nat
  unitMap : List Nat
  units : List (List Byte)
  hseqs : List Seq
  pkts : List SentPkt
  deriving DecidableEq, Repr, Inhabited

/-- The sending half of a slip's link layer (R236, R238, R239). `consumed` and `limit` are by class. -/
structure LinkTx where
  nextFseq : FSeq
  held : List HeldFrame
  acked : Option FSeq
  replayRun : Nat
  replayFrom : Option FSeq
  nakPending : Bool
  nakActedOn : Option FSeq
  ackChanged : Tide
  consumed : Tab Seq
  limit : Tab Seq
  deriving DecidableEq, Repr, Inhabited

/-- The receiving half (R235, R237, R239, R240). `ack` is none before any frame (0xFFF). `partialUnits`: the units and
HSEQ of a packet in progress; `message`: those of a link message in progress. -/
structure LinkRx where
  ack : Option FSeq
  nak : Bool
  partialUnits : List (List Byte)
  partialHseq : Seq
  message : List (List Byte)
  limit : Tab Seq
  received : Tab Nat
  deriving DecidableEq, Repr, Inhabited

/-- The neighbour exchange of a slip (R246-R249). Results are RESULT codes of Table 09.5. `reported`: the WIDTH_UP of the last IDENT
sent. -/
structure Exchange where
  held : Option Ident
  accepted : Option Ident
  lastResult : Nat
  sentAck : Option Nat
  gotAck : Option Nat
  reported : Option Nat
  proto : Nat
  since : Tide
  deriving DecidableEq, Repr, Inhabited

/-- Receive state of the lanes in data mode (R254, R256, R260, R261, R267, R278). `am0`, `am1`: AM_COUNT of the last valid marker of
each lane position. `amBad0`, `amBad1`: AM errors in a row. `badRun`, `seqRun`: R267's runs; `goodRun`: codewords in sequence. -/
structure LaneRx where
  inverted0 : Bool
  inverted1 : Bool
  reversed : Bool
  precode0 : Bool
  precode1 : Bool
  mem0 : Nat
  mem1 : Nat
  prbs : BitVec 31
  cwn : Nat
  am0 : Option Nat
  am1 : Option Nat
  amExpected : Bool
  amBad0 : Nat
  amBad1 : Nat
  badRun : Nat
  seqRun : Nat
  goodRun : Nat
  fecLock : Bool
  sawLocked : Bool
  powerRun : Nat
  powerReq : Nat
  deriving DecidableEq, Repr, Inhabited

/-- Transmit state of the lanes (R254 to R256, R259, R260, R263). `data`: the countdown has ended and codewords are sent (R265);
`gen0`, `gen1`: the test pattern generators of the lanes (R263, R269); `age`: quarters of a ns since the last training frame or test
codeword began; `powerReq`: POWER_REQ of the codewords sent, and `powerRun` how many in a row have had one (R278). -/
structure LaneTx where
  data : Bool
  gen0 : BitVec 31
  gen1 : BitVec 31
  age : Nat
  powerReq : Nat
  powerRun : Nat
  cwn : Nat
  amCount : Nat
  longSpacing : Bool
  precode0 : Bool
  precode1 : Bool
  mem0 : Nat
  mem1 : Nat
  prbs : BitVec 31
  countdown0 : Nat
  countdown1 : Nat
  taps : List Int
  deriving DecidableEq, Repr, Inhabited

/-- Training of one lane position (Tables 10.4, 10.5, R263-R266): the last field received, how long it has held, and
what this end sends: REQ's tap requests `tapReq` and STS's tap status `tapSts`. -/
structure Training where
  tapReq : Nat
  tapSts : Nat
  rxReq : Nat
  rxSts : Nat
  rxCountdown : Nat
  frames : Nat
  precodeRun : Nat
  readyRun : Nat
  precodeReq : Bool
  rxReady : Bool
  deriving DecidableEq, Repr, Inhabited

/-- Measured values of Table 10.7. `words`: codewords received; `errs`: those among the last 2^24 that had symbols corrected, with
their number, newest first. -/
structure Telemetry where
  skew : Int
  snr : List Nat
  eye : List Nat
  words : Nat
  errs : List (Nat × Nat)
  changeTide : Tide
  deriving DecidableEq, Repr, Inhabited

/-- A slip. `power`: 0 ACTIVE, 1 DOZE, 2 NAP, 3 SLEEP, 4 OFF; `step`: 0-10 (Table 10.7); `startState`: its state at the start of the
tick, by which routes are chosen (R190). `await0`, `await1`: levels of framed IDLE codewords sent on the lane positions in a test and not
yet compared with what is received (R270). -/
structure Slip where
  state : SlipState
  startState : SlipState
  step : Nat
  power : Nat
  waking : Bool
  wakeStart : Tide
  stepStart : Tide
  lastWork : Tide
  enable : Bool
  precodeMode : Nat
  precodeNow : Nat
  loopback : Nat
  pattern : Nat
  pattern0 : BitVec 31
  pattern1 : BitVec 31
  await0 : List Nat
  await1 : List Nat
  engineDead : Bool
  rx : LaneRx
  tx : LaneTx
  train0 : Training
  train1 : Training
  tele : Telemetry
  ltx : LinkTx
  lrx : LinkRx
  ex : Exchange
  quantum : Tab Nat
  cur : Nat
  granted : Bool
  deficit : Tab Nat
  rr : Tab Nat
  tolls : Tab Toll
  table : Option TideTable
  pendTable : Option TideTable
  linkCnt : Tab Counter
  laneCnt : Tab Counter
  deriving DecidableEq, Repr, Inhabited

/-- A hawser (R241-R243): its slips in ascending order; the next HSEQ to send; the next to deliver; packets waiting in
HSEQ order with the slip they came on. A slip's own hawser is not listed while it has its reset value. -/
structure Hawser where
  slips : List Nat
  txSeq : Seq
  rxSeq : Seq
  waiting : List (Seq × Nat × Packet)
  failover : List SentPkt
  deriving DecidableEq, Repr, Inhabited

/-- An optical engine (Table 10.10); ALARMS bit j bias, bit 16 + j receive power. -/
structure Engine where
  state : Nat
  temp : Int
  alarms : BitVec 32
  bias : List Nat
  txPower : List Int
  rxPower : List Int
  sampleTide : Tide
  deriving DecidableEq, Repr, Inhabited

/-! ### Crossings -/

/-- A source copy (R174, R177): when it was last sent and how often it was retransmitted; `emit`: whose emission it counts for
while no transmission of it has found a route (R66, R208). -/
structure Copy where
  seq : Seq
  pkt : Packet
  sentAt : Tide
  retries : Nat
  emit : Option EmitTag
  deriving DecidableEq, Repr, Inhabited

/-- One ordered lane of a crossing, both halves (R171, R174-R176). `got`: received at or after CUM. -/
structure XLane where
  nextSeq : Seq
  copies : List Copy
  cum : Seq
  got : List Seq
  held : List (Seq × Arrival)
  sinceAck : Nat
  ackFrom : Option Tide
  deriving DecidableEq, Repr, Inhabited

/-- Crossing states, Table 06.8. -/
inductive XState where
  | syncing | opened | down
  deriving DecidableEq, Repr, Inhabited

/-- A crossing (R171). -/
structure Crossing where
  landing : Nat
  peer : Nat
  peerLanding : Nat
  first : Nat
  rto : Nat
  retryLimit : Nat
  window : Nat
  state : XState
  retransmits : Nat
  lanes : List XLane
  downLane : Nat
  deriving DecidableEq, Repr, Inhabited

/-! ### Reduction -/

/-- A tally of `w` bits with its flag byte (R23, Table 02.3). -/
structure Tally (w : Nat) where
  n : BitVec w
  nan : Bool
  pinf : Bool
  ninf : Bool
  ovf : Bool
  unf : Bool
  deriving DecidableEq, Repr, Inhabited

/-- The storage of one chunk element (R62, R67). `empty`: nothing folded yet, stale contents never read. -/
inductive Berth where
  | empty
  | sum (t : Tally 320)
  | extremum (elem : Nat) (scale : Nat) (nan : Bool)
  | bits (p : BitVec 32)
  deriving DecidableEq, Repr, Inhabited

/-- A reduction context descriptor, Table 03.1; `head` is bytes 0-63. -/
structure RDesc where
  ctx : Nat
  job : Nat
  role : Nat
  op : Nat
  fmt : Nat
  resultFmt : Nat
  chunkSize : Nat
  rowLog2 : Nat
  norm : Bool
  deep : Bool
  stepped : Bool
  m : Nat
  c : Nat
  t : Nat
  treeSet : Nat
  berthQuota : Nat
  softLag : Nat
  hardLag : Nat
  ringSize : Nat
  ringPos : Nat
  ringNext : Nat
  ringNextCtx : Nat
  ringPrev : Nat
  ringPrevCtx : Nat
  members : List Nat
  children : List (Nat × Nat)
  parents : List (Nat × Nat)
  head : List Byte
  deriving DecidableEq, Repr, Inhabited

/-- What a local member said when it announced an operation (R52, R404). -/
structure Announce where
  slot : Nat
  resultBase : Nat
  naming : Naming
  deriving DecidableEq, Repr, Inhabited

/-- An announced operation (R52, R53): it holds chunk positions `start` to `start + count - 1`. -/
structure Operation where
  num : Nat
  f : Nat
  k : Nat
  start : Nat
  count : Nat
  announces : List Announce
  deriving DecidableEq, Repr, Inhabited

/-- A forwarded partial's descriptor, Table 03.9. -/
structure PDesc where
  opNum : Nat
  form : Nat
  fmt : Nat
  chunk : Nat
  elements : Nat
  values : Nat
  cond : Nat
  opFirst : Nat
  opCount : Nat
  rsvd : Bool
  deriving DecidableEq, Repr, Inhabited

/-- What a slot has sent for a chunk (R58): element or data packets by index, scale packet, descriptor. -/
structure Contribution where
  pkts : Tab (List Byte)
  scale : Option (List Byte)
  desc : Option PDesc
  present : Bool
  folded : Bool
  step : Nat
  epoch : Nat
  deriving DecidableEq, Repr, Inhabited

/-- STATE of a scoreboard entry (Table 03.7); FREE is a position not listed. -/
inductive PosState where
  | opened | complete | emitted
  deriving DecidableEq, Repr, Inhabited

/-- An open chunk position (R55, R58, Table 03.7). `held`: complete and held by R94, with the step it carries.
`emitLeft`: packets of its emission that have not left; `emitBegun`: R76's moment. `readyAt`: when R59 first held.
`refused`: the parent refused its partial under the credit test (R56). `dots`: its squares, by slot, until its emission
begins (log entry 20). `digest`: the contributor digest formed at its emission (R155). `again`: a partial's tallies are folded again
after its chunk was complete (R65, Table 14.6); `resendDue`: it is to be sent once that is done. -/
structure Position where
  op : Nat
  chunk : Nat
  state : PosState
  openTide : Tide
  step : Nat
  epoch : Nat
  contribs : Tab Contribution
  trailers : Tab (List Byte)
  lateTrailer : Bool
  softFired : Bool
  readyAt : Option Tide
  berths : List Berth
  cond : BitVec 16
  values : Nat
  sweeping : Bool
  held : Bool
  queued : Bool
  emitLeft : Nat
  emitBegun : Bool
  refused : Bool
  dots : Tab (Tally 640)
  digest : Option (List Byte)
  again : Bool
  resendDue : Bool
  deriving DecidableEq, Repr, Inhabited

/-- A norm snapshot (R64): its period and the dot tallies kept, member slots first, then the sum if any. -/
structure Snapshot where
  stepPeriod : Bool
  period : Nat
  dots : Tab (Tally 640)
  deriving DecidableEq, Repr, Inhabited

/-- A `CREDIT` as held by a child (R402). -/
structure Credit where
  limOp : Nat
  limChunk : Nat
  baseOp : Nat
  baseChunk : Nat
  deriving DecidableEq, Repr, Inhabited

/-- A re-form entry (Table 05.9). -/
structure Reform where
  opNum : Nat
  chunk : Nat
  map : Nat
  deriving DecidableEq, Repr, Inhabited

/-- A Merkle leaf's data digests, per root (R156): RESULT, STATE, CONTRIB. -/
structure Leaf where
  opNum : Nat
  chunk : Nat
  step : Nat
  cond : BitVec 16
  result : List Byte
  state : List Byte
  contrib : List Byte
  deriving DecidableEq, Repr, Inhabited

/-- What a record says happened during its step (R149, R151): counts and faults since the step began. -/
structure Account where
  replays : Nat
  retransmits : Nat
  throttled : Nat
  unlocked : Bool
  lateTrailer : Bool
  faults : Tab (Nat × Nat × Tide)
  deriving DecidableEq, Repr, Inhabited

/-- The Merkle leaves a signed record covered (R157). -/
structure Covered where
  step : Nat
  leaves : List Leaf
  deriving DecidableEq, Repr, Inhabited

/-- Reduction context states, Table 03.12. -/
inductive RState where
  | idle | running | stopped
  deriving DecidableEq, Repr, Inhabited

/-- A reduction context (R47). `past`: the latest complete operation of each number (R401 among them). `nextPos`: positions
given out; `base`: the window base b (R55). `credits`: the latest CREDIT from each parent, by residue. `creditDue`,
`creditSent`: R55's coalescing. `lagged`: period and slot of each STRAGGLER (R74). `told`: sender, operation and chunk of
each status sent (R73). `namings`: what each member last named the context (R404). -/
structure Rctx where
  d : RDesc
  w : Nat
  state : RState
  enabled : Nat
  ops : List Operation
  past : List Operation
  nextPos : Nat
  base : Nat
  released : List Nat
  positions : Tab Position
  octx : Option Nat
  credits : Tab Credit
  creditDue : List Nat
  creditSent : Tab Tide
  lagged : List (Nat × Nat)
  told : List (Nat × Nat × Nat)
  namings : Tab Naming
  period : Option Nat
  dots : Tab (Tally 640)
  snapshots : List Snapshot
  reforms : List Reform
  leaves : List Leaf
  covered : List Covered
  acct : Account
  deriving DecidableEq, Repr, Inhabited

/-! ### Optimizer -/

/-- A segment entry, Table 04.2. -/
structure Segment where
  opNum : Nat
  records : Nat
  base : Nat
  deriving DecidableEq, Repr, Inhabited

/-- A layer entry, Table 04.3. -/
structure LayerEntry where
  seg : Nat
  layer : Nat
  rInit : F32
  first : Nat
  deriving DecidableEq, Repr, Inhabited

/-- An optimizer context descriptor, Table 04.1; `digest` is the configuration digest (R86). -/
structure ODesc where
  rule : Nat
  gatherFmt : Nat
  gatherRowLog2 : Nat
  clip : Bool
  noise : Bool
  lr : F32
  beta1 : F32
  beta2 : F32
  c1 : F32
  c2 : F32
  eps : F32
  wd : F32
  alpha : F32
  clipNorm : F32
  trustMax : F32
  lrMinFrac : F32
  warmup : Nat
  cycle : Nat
  tMult : Nat
  decay : Nat
  restart : Nat
  groupSize : Nat
  jobParams : Nat
  membersTotal : Nat
  bMember : Nat
  batchMin : Nat
  batchMax : Nat
  batchQuant : Nat
  layers : Nat
  nodeFan : Nat
  octx : Nat
  job : Nat
  rctx : Nat
  beaconTimeout : Nat
  step : Nat
  p1 : F32
  p2 : F32
  cfInit : F32
  epoch : Nat
  segments : List Segment
  layerEntries : List LayerEntry
  peers : List (Nat × Nat)
  digest : List Byte
  deriving DecidableEq, Repr, Inhabited

/-- The schedule engine's constants of one step (R105, R107, R115, R116). -/
structure Consts where
  lr : F32
  k1 : F32
  k2 : F32
  cf : F32
  p1 : F32
  p2 : F32
  r : List F32
  deriving DecidableEq, Repr, Inhabited

/-- A chunk table entry of one bank (R122). -/
structure ChunkEntry where
  valid : Bool
  visible : Bool
  step : Nat
  digest32 : List Byte
  cond : BitVec 16
  deriving DecidableEq, Repr, Inhabited

/-- A local chunk of a segment (R90, R91, R122): both banks' entries, and whether it was written in the open step. -/
structure ChunkState where
  bank0 : ChunkEntry
  bank1 : ChunkEntry
  written : Bool
  deriving DecidableEq, Repr, Inhabited

/-- Dot tallies exchanged at a commit (Table 04.10): SUM_SQ, MEMBER_SQ, layers' W and U. -/
structure Norms where
  sumSq : Tally 640
  memberSq : Tally 640
  layerW : List (Tally 640)
  layerU : List (Tally 640)
  deriving DecidableEq, Repr, Inhabited

/-- What a peer of the commit group has sent (R110, R112): norms being received and beacons kept. -/
structure PeerState where
  normStep : Nat
  norms : Tab (Tally 640)
  ready : Option (Nat × List Byte)
  committed : Option (Nat × List Byte)
  keptNorms : Tab (Tab (Tally 640))
  deriving DecidableEq, Repr, Inhabited

/-- The noise block of Table 04.14 with its group tallies. -/
structure Noise where
  memberSq : Tally 640
  sumSq : Tally 640
  sSmall : F32
  sBig : F32
  g2 : F32
  trace : F32
  bNoise : F32
  suggest : Nat
  valid : Bool
  deriving DecidableEq, Repr, Inhabited

/-- A move entry of `RESHARD_FENCE` (Table 12.11). -/
structure Move where
  seg : Nat
  destAddr : Nat
  destOctx : Nat
  first : Nat
  records : Nat
  dest : Nat
  deriving DecidableEq, Repr, Inhabited

/-- A fence under way (R123), with what moves have brought: chunk table entries, the image part by byte offset, and the chunks (by key,
with their bank) whose images it holds. -/
structure Fence where
  epoch : Nat
  segments : List Segment
  layers : List LayerEntry
  moves : List Move
  chunks : Tab ChunkState
  images : Tab (List Byte)
  imaged : List (Nat × Nat)
  deriving DecidableEq, Repr, Inhabited

/-- Optimizer context states, Table 04.8. -/
inductive OState where
  | opened | committing | split | fenced | halted
  deriving DecidableEq, Repr, Inhabited

/-- An optimizer context (R85). `cur` are the constants of the open step S + 1, `prev` those of step S. `chunks` is keyed by
segment x 2^40 + local chunk. `own`: the step and tallies this F384 sent or will send with READY. -/
structure Octx where
  d : ODesc
  state : OState
  s : Nat
  cur : Consts
  prev : Consts
  confirmed : Bool
  sealedStep : Bool
  chunks : Tab ChunkState
  layerW : Tab (Tally 640)
  layerU : Tab (Tally 640)
  own : Option (Nat × Norms)
  sentReady : Bool
  peers : Tab PeerState
  command : Option Running
  deadline : Tide
  noise : Option Noise
  epoch : Nat
  fence : Option Fence
  fenceActive : Bool
  staleRaised : Bool
  leaves : List Leaf
  covered : List Covered
  acct : Account
  deriving DecidableEq, Repr, Inhabited

/-! ### Deck, HBM, audit -/

/-- The sweeps of R60. -/
inductive Sweep where
  | fold (rctx pos : Nat) (slots : List Nat)
  | update (rctx pos : Nat)
  | gather (octx seg chunk bank : Nat)
  deriving DecidableEq, Repr, Inhabited

/-- A sweep that is queued, with the tide count at which it became ready. -/
structure ReadySweep where
  at_ : Tide
  sweep : Sweep
  deriving DecidableEq, Repr, Inhabited

/-- The deck (R60): the fold sweep under way, queued update and gather sweeps, truncating mode, idle state. -/
structure Deck where
  sweep : Option Sweep
  queue : List ReadySweep
  trunc : Bool
  power : IdleState
  deriving DecidableEq, Repr, Inhabited

/-- A `GATHER_REQ` waiting for a gather sweep (R122): segment and local chunk asked for, bank, the member's address and
result address, the request's tag and class, and how the member named the context. -/
structure GatherWait where
  octx : Nat
  seg : Nat
  chunk : Nat
  bank : Nat
  requester : Nat
  resultAddr : Nat
  tag : Nat
  naming : Naming
  deriving DecidableEq, Repr, Inhabited

/-- A gather image in staging or being formed (R122): context, segment, local chunk, bank, version, element bytes, scale
bytes, digest, condition word, and whether its digest is complete. -/
structure Image where
  octx : Nat
  seg : Nat
  chunk : Nat
  bank : Nat
  version : Nat
  bytes : List Byte
  scales : List Byte
  digest : List Byte
  cond : BitVec 16
  complete : Bool
  deriving DecidableEq, Repr, Inhabited

/-- A record write on its way to HBM (R96, R109). -/
structure RecordWrite where
  octx : Nat
  seg : Nat
  chunk : Nat
  step : Nat
  addr : Nat
  bytes : List Byte
  rctx : Nat
  pos : Nat
  deriving DecidableEq, Repr, Inhabited

/-- An HBM stack: initialised, its idle state, and its gather staging, oldest image first (R122). -/
structure Stack where
  init : Bool
  power : IdleState
  staging : List Image
  deriving DecidableEq, Repr, Inhabited

/-- The HBM: the state area as a canonical memory (R16), the stacks, writes under way and requests waiting. -/
structure Hbm where
  mem : List Host.Cell
  stk : Tab Stack
  writes : List RecordWrite
  waits : List GatherWait
  deriving DecidableEq, Repr, Inhabited

/-- A record or quote waiting for the ML-DSA-87 engine (R150, R360). -/
inductive SignItem where
  | record (kind ctx step job : Nat) (body : List Byte)
  | quote (r : Running) (body : List Byte)
  deriving DecidableEq, Repr, Inhabited

/-- A signed record waiting for the audit ring (R154). -/
structure SignedRecord where
  kind : Nat
  ctx : Nat
  step : Nat
  job : Nat
  bytes : List Byte
  deriving DecidableEq, Repr, Inhabited

/-- The record path (R150, R154). -/
structure Audit where
  signQueue : List SignItem
  waiting : List SignedRecord
  deriving DecidableEq, Repr, Inhabited

/-- Changes that their rules put in the next tide tick (R214, R227, R230, R319, R323, R327, R382, Table 12.9). -/
inductive Deferred where
  | buffers (landing : Nat) (b : Buffers)
  | toll (slip cls : Nat) (t : Toll)
  | switch (c : SwitchCfg)
  | throttle (cap temp : Nat)
  | deviceBudget (b : Nat)
  | jobBudget (job : Nat) (b : Option Nat)
  | hawserBudget (hawser : Nat) (b : Option Nat)
  | releaseSlips
  deriving DecidableEq, Repr, Inhabited

/-- The whole machine. -/
structure State where
  aon : AlwaysOn
  sys : Sys
  clk : Clocks
  pwr : Power
  units : List (UnitRef × Nat)
  host : HostIf
  mbox : Mailbox
  svc : Service
  flt : Faults
  purser : Tab Counter
  tide : TideUnit
  jobs : Tab Job
  net : Net
  lands : Tab Landing
  sw : SwitchCfg
  slips : Tab Slip
  hawsers : Tab Hawser
  optics : Tab Engine
  xings : List Crossing
  incs : List ((Nat × Nat × Nat) × BitVec 2)
  rctxs : Tab Rctx
  octxs : Tab Octx
  deck : Deck
  hbm : Hbm
  audit : Audit
  deferred : List Deferred
  freeCount : Nat
  outbox : List Output
  pending : List Instr
  deriving DecidableEq, Repr, Inhabited

/-! ### Reset values -/

/-- Reset value of a ring control register (Table 11.5). -/
def RingCtrl.reset : RingCtrl :=
  { enable := false, ordered := false, log2 := 6, cqLog2 := 6, vector := 0, irqEn := false, coalCount := 0, coalTime := 0 }

/-- Reset value of a ring status register (Table 11.6). -/
def RingStatus.reset : RingStatus :=
  { idle := true, overrun := false, cfgErr := false, dmaErr := false, dupTag := false, lost := false }

def QueuePair.reset : QueuePair :=
  { sqBase := 0, cqBase := 0, cqWb := 0, ctrl := RingCtrl.reset, status := RingStatus.reset, sqTail := 0, sqHead := 0,
    cqHead := 0, cqTail := 0, fetched := [], unsignalled := 0, firstUnsignalled := 0 }

def RingPort.reset : RingPort :=
  { base := 0, wb := 0, ctrl := RingCtrl.reset, status := RingStatus.reset, head := 0, tail := 0, unsignalled := 0,
    firstUnsignalled := 0 }

/-- The configuration registers after a reset of the function, as PCIe has them (log entry 44); the AER severities are PCIe's. -/
def ConfigSpace.reset : ConfigSpace :=
  { command := 0, bars := [], msixEnable := false, deviceControl := 0x2810, linkControl := 0, l1Substates := 0, pmcsr := 0,
    aerUncStatus := 0, aerUncMask := 0, aerUncSeverity := 0x00462030, aerCorStatus := 0, aerCorMask := 0x2000 }

/-- Host interface after reset: link down, rings disabled, every MSI-X vector masked (log entry 7). -/
def HostIf.reset : HostIf :=
  { linkUp := false, linkMode := 0, width := 0, bar0 := false, hdmBase := none, hdmStage := [], tideLatch := none, qps := [],
    ev := RingPort.reset, aud := RingPort.reset, msix := [], msixFnMask := false, msixPending := 0,
    cfg := ConfigSpace.reset, evQueue := [], evFresh := 0, evLost := 0, evLostTide := 0, evSeq := 0, running := [] }

def Clocks.reset : Clocks :=
  { core := .stopped, coreDiv4 := false, datapath := .stopped, tide := .stopped, cxlPhy := .stopped, hbm := [],
    serdes := [] }

/-- R319, R327: 200 ns device budget, 1,650 W, 105 degrees; k = 16 (R318). -/
def Power.reset : Power := { k := 16, powerCap := 1650, throttleTemp := 105, deviceBudget := 200, hawserBudget := [] }

def IdleState.reset : IdleState := { idle := false, waking := false, lastWork := 0 }

/-- Table 08.1 and Table 08.2: limits not listed have the default. -/
def Buffers.reset : Buffers := { copyLimit := 24576, reseqLimit := 15872, origin := [], limits := [] }

def Landing.reset : Landing :=
  { power := IdleState.reset, buf := Buffers.reset, rx := [], rxFresh := 0, serve := [], voq := [], sources := [], nextId := 0 }

/-- R224: cur is 2, granted false, every deficit 0. -/
def Serve.reset : Serve := { cur := 2, granted := false, deficit := [] }

/-- Table 08.6 defaults. -/
def SwitchCfg.reset : SwitchCfg := { residue := 1000, cong := [] }

/-- R227: disabled, RATE 27,100, BURST 4,160 and full. -/
def Toll.reset : Toll := { enable := false, rate := 27100, burst := 4160, tokens := 4160000 }

def LinkTx.reset : LinkTx :=
  { nextFseq := 0, held := [], acked := none, replayRun := 0, replayFrom := none, nakPending := false, nakActedOn := none,
    ackChanged := 0, consumed := [], limit := [] }

def LinkRx.reset : LinkRx :=
  { ack := none, nak := false, partialUnits := [], partialHseq := 0, message := [], limit := [], received := [] }

def Exchange.reset : Exchange :=
  { held := none, accepted := none, lastResult := 0, sentAck := none, gotAck := none, reported := none, proto := 0,
    since := 0 }

def LaneRx.reset : LaneRx :=
  { inverted0 := false, inverted1 := false, reversed := false, precode0 := false, precode1 := false, mem0 := 0, mem1 := 0,
    prbs := BitVec.allOnes 31, cwn := 0, am0 := none, am1 := none, amExpected := false, amBad0 := 0, amBad1 := 0, badRun := 0,
    seqRun := 0, goodRun := 0, fecLock := false, sawLocked := false, powerRun := 0, powerReq := 0 }

def LaneTx.reset : LaneTx :=
  { data := false, gen0 := 0, gen1 := 0, age := 0, powerReq := 0, powerRun := 0, cwn := 0, amCount := 0,
    longSpacing := false, precode0 := false, precode1 := false, mem0 := 0, mem1 := 0,
    prbs := BitVec.allOnes 31, countdown0 := 0, countdown1 := 0, taps := [0, 0, 0, 0, 0, 0] }

def Training.reset : Training :=
  { tapReq := 0, tapSts := 0, rxReq := 0, rxSts := 0, rxCountdown := 0, frames := 0, precodeRun := 0, readyRun := 0, precodeReq := false,
    rxReady := false }

def Telemetry.reset : Telemetry := { skew := 0, snr := [0, 0], eye := [0, 0, 0, 0, 0, 0], words := 0, errs := [], changeTide := 0 }

/-- A slip from reset: `DOWN`, held in OFF (R382), ENABLE 1 and PRECODE AUTO (R268). -/
def Slip.reset : Slip :=
  { state := .down, startState := .down, step := 0, power := 4, waking := false, wakeStart := 0, stepStart := 0, lastWork := 0, enable := true,
    precodeMode := 0, precodeNow := 0, loopback := 0, pattern := 0, pattern0 := 0, pattern1 := 0, await0 := [], await1 := [], engineDead := false,
    rx := LaneRx.reset, tx := LaneTx.reset, train0 := Training.reset, train1 := Training.reset, tele := Telemetry.reset,
    ltx := LinkTx.reset, lrx := LinkRx.reset, ex := Exchange.reset, quantum := [], cur := 2, granted := false,
    deficit := [], rr := [], tolls := [], table := none, pendTable := none, linkCnt := [], laneCnt := [] }

def Engine.reset : Engine :=
  { state := 0, temp := 0, alarms := 0, bias := List.replicate 16 0, txPower := List.replicate 16 0,
    rxPower := List.replicate 16 0, sampleTide := 0 }

/-- R188, R196: no routes, attribute bytes 0x03. -/
def Bank.reset (st : BankState) : Bank := { state := st, routes := [], attrs := [], drainStart := 0, zeroSince := none }

def Net.reset : Net :=
  { ownAddr := none, released := false, endpoints := [], ranks := [], bank0 := Bank.reset .active,
    bank1 := Bank.reset .idle, switchAt := none, switchCmd := none, reach := [], serviceChanged := false, expected := [],
    neighbours := [], told := [], asked := [] }

/-- R140: PRIORITY 128, REF_ENABLE 0; R383: count 0. Without a locked tide loop the unit is no master yet. -/
def TideUnit.reset : TideUnit :=
  { count := 0, priority := 128, refEnable := false, refRejected := false, refSeen := false, goodEdges := 0, master := false,
    parent := none, heard := [], locked := false, inWindow := 0, outWindow := 0, offset := 0, delay := 0, rate := 0,
    seq := 0, sentT1 := none, stepped := 0 }

def Deck.reset : Deck := { sweep := none, queue := [], trunc := false, power := IdleState.reset }

def Stack.reset : Stack := { init := false, power := IdleState.reset, staging := [] }

def Sys.reset : Sys :=
  { phase := .inReset, recoveryN := true, componentsLoaded := false, selfTested := [], calibrated := [], memReady := false,
    secretLocked := false, aliasSeed := [], aliasKeyId := [], aliasCert := [], fwMeasurement := [], devResetAt := none }

def Faults.reset (prior : Option FaultRecord) : Faults :=
  { records := prior.toList, nextNum := 1, merge := false }

def ImageSlot.empty : ImageSlot :=
  { state := 0, securityVersion := 0, keyIndex := 0, cosignPresent := false, cosignVerified := false, version := 0,
    imageLen := 0, detail := 0, measurement := [], factory := false, bytes := [] }

/-- A little-endian number of the factory image's manifest (Table 15.2). -/
def factoryNum (o n : Nat) : Nat := leNat ((List.range n).map (fun i => Config.factoryByte (o + i)))

/-- Slot A as manufactured: the factory image, VERIFIED (log entry 5), with what its manifest says. -/
def ImageSlot.factoryMade : ImageSlot :=
  { ImageSlot.empty with
    state := 2, factory := true, securityVersion := factoryNum 20 1, keyIndex := factoryNum 6 1, cosignPresent := bit (factoryNum 7 1) 0,
    cosignVerified := Config.cosignRequired, version := factoryNum 16 4, imageLen := factoryNum 12 4,
    measurement := sha3 ((List.range 704).map Config.factoryByte) }

/-- The island of a part as manufactured, powered, with RESET_N asserted (log entries 1, 5 and 6). -/
def AlwaysOn.reset : AlwaysOn :=
  { stage := .railsOn, railsUp := 8, pwrgood := true, errorN := false, resetN := false, edge := none, collector := false,
    hotSwapOpen := false, tripped := false,
    slots := [(0, ImageSlot.factoryMade), (1, ImageSlot.empty)],
    nextSlot := 0, goodSlot := some 0, fusedSv := 0, revoked := 0, transfer := none, lastEnd := none,
    boot := { slot := 0, trial := false, reverted := false, reverting := false, retried := false, recovered := false, started := false,
              passed := false },
    monitors := [], inputPower := 0, inputCurrent := 0, coolRun := 0, lowRun := 0, priorFatal := none, priorFatalTide := 0,
    losses := 0 }

/-- The F384 right after reset: RESET_N asserted, PWRGOOD asserted, every domain but the always-on one in its reset
state (R377), nothing waiting. Log entry 1. -/
def State.reset : State :=
  { aon := AlwaysOn.reset, sys := Sys.reset, clk := Clocks.reset, pwr := Power.reset, units := [], host := HostIf.reset,
    mbox := { records := [], policy := [], alerts := [], timestamp := none },
    svc := { clients := [], eventSeq := 0, waiting := [], kept := [] }, flt := Faults.reset none, purser := [], tide := TideUnit.reset,
    jobs := [], net := Net.reset, lands := [], sw := SwitchCfg.reset, slips := [], hawsers := [], optics := [], xings := [],
    incs := [], rctxs := [], octxs := [], deck := Deck.reset, hbm := { mem := [], stk := [], writes := [], waits := [] },
    audit := { signQueue := [], waiting := [] }, deferred := [], freeCount := 0, outbox := [], pending := [] }

end Sys2Proof.Machine
end

