-- ==== Sys2Proof/Machine/Ops.lean ====
section
/-!
DEFINITION. The named operations over the state: accessors, free values, counters (R349), events (R296, R314, R315),
faults (R335 to R344), rings (R290, R298), the state area's memory (R16, R285) and the pins the state derives.
-/
namespace Sys2Proof.Machine

/-- What a meaning answers. -/
abbrev Result := Host.Outcome State Fault Refusal

/-- The tide count. -/
def now (s : State) : Tide := s.tide.count

/-- A fresh free value of `w` bits (log entry 3). -/
def fresh (w : Nat) (s : State) : BitVec w × State := (Config.freeValue w s.freeCount, { s with freeCount := s.freeCount + 1 })

/-- Appends to what leaves the part. -/
def emit (o : Output) (s : State) : State := { s with outbox := s.outbox ++ [o] }

/-! ### Accessors -/

def getSlip (s : State) (n : Nat) : Slip := tabGet s.slips n Slip.reset
def modSlip (n : Nat) (f : Slip → Slip) (s : State) : State := { s with slips := tabPut s.slips n (f (getSlip s n)) }
def getLanding (s : State) (l : Nat) : Landing := tabGet s.lands l Landing.reset

/-- Work for a unit (R321, R322): its dwell starts again, and from its idle state it wakes. -/
def IdleState.touch (t : Tide) (p : IdleState) : IdleState := { p with waking := p.waking || p.idle, lastWork := t }

/-- A landing is changed by work for it. -/
def modLanding (l : Nat) (f : Landing → Landing) (s : State) : State :=
  let x := f (getLanding s l)
  { s with lands := tabPut s.lands l { x with power := x.power.touch (now s) } }

/-- Whether a landing does work: on the datapath clock, and neither in RETAIN nor waking from it (R317, R321). -/
def landingAwake (s : State) (l : Nat) : Bool := s.clk.datapath == .locked && !(getLanding s l).power.idle
def getEngine (s : State) (k : Nat) : Engine := tabGet s.optics k Engine.reset
def modEngine (k : Nat) (f : Engine → Engine) (s : State) : State := { s with optics := tabPut s.optics k (f (getEngine s k)) }
def getQp (s : State) (q : Nat) : QueuePair := tabGet s.host.qps q QueuePair.reset
def modHost (f : HostIf → HostIf) (s : State) : State := { s with host := f s.host }
def modQp (q : Nat) (f : QueuePair → QueuePair) (s : State) : State :=
  modHost (fun h => { h with qps := tabPut h.qps q (f (tabGet h.qps q QueuePair.reset)) }) s
def getStack (s : State) (k : Nat) : Stack := tabGet s.hbm.stk k Stack.reset
def modStack (k : Nat) (f : Stack → Stack) (s : State) : State :=
  { s with hbm := { s.hbm with stk := tabPut s.hbm.stk k (f (getStack s k)) } }

/-- Work for a stack: its dwell starts again, and from its idle state it wakes (R321, R322). -/
def touchStack (k : Nat) (s : State) : State := modStack k (fun t => { t with power := t.power.touch (now s) }) s

def modRctx (c : Nat) (f : Rctx → Rctx) (s : State) : State := { s with rctxs := tabMod s.rctxs c f }
def modOctx (o : Nat) (f : Octx → Octx) (s : State) : State := { s with octxs := tabMod s.octxs o f }
def modJob (j : Nat) (f : Job → Job) (s : State) : State := { s with jobs := tabMod s.jobs j f }

/-- Whether a unit is lost (R347). -/
def unitLost (s : State) (u : UnitRef) : Bool := s.units.any (fun p => p.1 == u)

/-- Landings in service, ascending. -/
def landingsUp (s : State) : List Nat := (List.range 8).filter (fun l => !unitLost s (.landing l))

/-- The landing a packet originates from (R160): the wanted one, or the next higher in service, counting round. -/
def originLanding (s : State) (want : Nat) : Nat :=
  (((List.range 8).map (fun i => (want + i) % 8)).find? (fun l => !unitLost s (.landing l))).getD (want % 8)

/-- The stack that holds a state-area offset (R16). -/
def stackOf (offset : Nat) : Nat := offset / (60 * 2 ^ 30)

/-- Size of the state area (R16, R284). -/
def areaSize : Nat := 480 * 2 ^ 30

/-- Ferryman cores not lost. -/
def coresUp (s : State) : List Nat := (List.range 16).filter (fun c => !unitLost s (.core c))

/-- SERIAL. -/
def serial64 : Nat := Config.serial.toNat

/-- The own fabric address, 0xFFFF if unset (Table 12.5). -/
def ownAddr (s : State) : Nat := s.net.ownAddr.getD 0xFFFF

/-- The SEED of a job, 0 for none (R137). -/
def jobSeed (s : State) (j : Nat) : BitVec 64 := ((tabGet? s.jobs j).map (fun x => x.seed)).getD 0

/-- The Ferryman firmware runs: rings and commands work (R287, R375). -/
def running (s : State) : Bool := decide (s.sys.phase = .ready)

/-- The part is locked, or is the master (R142, R145). -/
def lockedOrMaster (s : State) : Bool := s.tide.locked || s.tide.master

/-! ### Counters (R349, R251, R272) -/

/-- A counter raised by n, saturating at 2^w - 1; whether it saturates now. -/
def bumpCounter (w : Nat) (c : Counter) (n : Nat) : Counter × Bool :=
  let v := satAdd w c.value n
  let hit := decide (v = 2 ^ w - 1) && !c.sat
  ({ value := v, sat := c.sat || hit }, hit)

def zeroCounter : Counter := { value := 0, sat := false }

/-- The purser with a counter raised, and whether it saturated now. -/
def bumpPurser (i n : Nat) (s : State) : State × Bool :=
  let r := bumpCounter 64 (tabGet s.purser i zeroCounter) n
  ({ s with purser := tabPut s.purser i r.1 }, r.2)

/-! ### Events (R296, R303, R314) -/

/-- The bytes of an event (Table 12.15). -/
def Event.bytes (e : Event) : List Byte :=
  le 2 e.code ++ le 1 (b2n e.job.isSome) ++ le 1 (e.job.getD 0) ++ le 4 e.seq.toNat ++ le 8 e.tide.toNat ++ fit 48 e.params

/-- Insertion among events of one tide tick, by code (R296). -/
def insertByCode (e : Event) : List Event → List Event
  | [] => [e]
  | x :: xs => if e.code < x.code then e :: x :: xs else x :: insertByCode e xs

/-- The queue with an event added in its place: among the `n` newest, raised in the same tick, by code, and they take their SEQ in that
order (R296, R314). -/
def queueEvent (n : Nat) (q : List Event) (e : Event) : List Event :=
  let same := q.drop (q.length - n)
  let seqs := same.map (fun x => x.seq) ++ [e.seq]
  q.take (q.length - n) ++ (insertByCode e same).zipWith (fun x k => { x with seq := k }) seqs

/-- The frames of an event, one to every subscriber, all with the event's number in the sequence of events sent (R303). -/
def sendEventFrames (e : Event) (s : State) : State :=
  if s.svc.clients.isEmpty then s
  else
    let s := s.svc.clients.foldl (fun s mac => emit (.serviceFrame mac 3 s.svc.eventSeq e.bytes) s) s
    { s with svc := { s.svc with eventSeq := (s.svc.eventSeq + 1) % 2 ^ 32 } }

/-- The order of the events raised in this tick so far is settled, and their frames go out (R296, R303). -/
def settleEvents (s : State) : State :=
  (s.host.evQueue.drop (s.host.evQueue.length - s.host.evFresh)).foldl (fun s e => sendEventFrames e s)
    (modHost (fun h => { h with evFresh := 0 }) s)

/-- Raising of an event, discarded while the queue holds 4,096 (R296). -/
def raiseRaw (code : Nat) (job : Option Nat) (params : List Byte) (s : State) : State :=
  let e : Event := { code := code, job := job, seq := s.host.evSeq, tide := now s, params := params }
  if 4096 ≤ s.host.evQueue.length then
    modHost (fun h => { h with evSeq := h.evSeq + 1, evLost := h.evLost + 1,
                               evLostTide := if h.evLost = 0 then now s else h.evLostTide }) (sendEventFrames e (settleEvents s))
  else modHost (fun h => { h with evSeq := h.evSeq + 1, evFresh := h.evFresh + 1, evQueue := queueEvent h.evFresh h.evQueue e }) s

/-- COUNTER_SATURATED: block 0 purser, 1 link, 2 lane. -/
def raiseSaturated (block slip index : Nat) (s : State) : State :=
  raiseRaw 0x0003 none (le 1 block ++ zeros 1 ++ le 2 slip ++ le 4 index) s

/-- Raising of an event, with the count of those discarded (purser 0x0002). -/
def raiseEvent (code : Nat) (job : Option Nat) (params : List Byte) (s : State) : State :=
  let full := decide (4096 ≤ s.host.evQueue.length)
  let s := raiseRaw code job params s
  if full then
    let r := bumpPurser 0x0002 1 s
    if r.2 then raiseSaturated 0 0 0x0002 r.1 else r.1
  else s

/-- A purser counter raised (R349). -/
def countPurser (i n : Nat) (s : State) : State :=
  let r := bumpPurser i n s
  if r.2 then raiseEvent 0x0003 none (zeros 4 ++ le 4 i) r.1 else r.1

/-- A count of the records' accounts raised by one: 0x0008 ticks throttled, 0x0009 link replays, 0x000A retransmissions. -/
def Account.add (i : Nat) (a : Account) : Account :=
  match i with
  | 0x0008 => { a with throttled := satAdd 64 a.throttled 1 }
  | 0x0009 => { a with replays := satAdd 64 a.replays 1 }
  | _ => { a with retransmits := satAdd 64 a.retransmits 1 }

/-- One of these counters of the purser raised by one, with every account of a step under way (R149). -/
def countNoted (i : Nat) (s : State) : State :=
  let s := countPurser i 1 s
  { s with rctxs := s.rctxs.map (fun p => (p.1, { p.2 with acct := p.2.acct.add i })),
           octxs := s.octxs.map (fun p => (p.1, { p.2 with acct := p.2.acct.add i })) }

/-- The account of a step that begins now (R151): the F384 may be unlocked in its first tick. -/
def Account.start (s : State) : Account :=
  { replays := 0, retransmits := 0, throttled := 0, unlocked := !(s.tide.locked || s.tide.master), lateTrailer := false,
    faults := [] }

/-- Landing, job and slip counters of Table 14.8. -/
def countLanding (l n : Nat) (s : State) : State := countPurser (0x0100 + 32 * l + n) 1 s
def countJob (j n : Nat) (s : State) : State := countPurser (0x2000 + 32 * j + n) 1 s
def countSlip (slip n k : Nat) (s : State) : State := countPurser (0x4000 + 16 * slip + n) k s

/-- The link counter at offset 4k raised (R251). -/
def countLink (slip k n : Nat) (s : State) : State :=
  let r := bumpCounter 32 (tabGet (getSlip s slip).linkCnt k zeroCounter) n
  let s := modSlip slip (fun p => { p with linkCnt := tabPut p.linkCnt k r.1 }) s
  if r.2 then raiseEvent 0x0003 none ([1#8, 0#8] ++ le 2 slip ++ le 4 (4 * k)) s else s

/-- The lane counter at offset 4k raised (R272). -/
def countLane (slip k n : Nat) (s : State) : State :=
  let r := bumpCounter 32 (tabGet (getSlip s slip).laneCnt k zeroCounter) n
  let s := modSlip slip (fun p => { p with laneCnt := tabPut p.laneCnt k r.1 }) s
  if r.2 then raiseEvent 0x0003 none ([2#8, 0#8] ++ le 2 slip ++ le 4 (4 * k)) s else s

/-- What a stack's own error correction reports of a read, counted (R346). -/
def countEcc (stack : Nat) (e : EccResult) (s : State) : State :=
  match e with
  | .clean => s
  | .corrected => countPurser (0x0010 + stack) 1 s
  | .uncorrected => countPurser (0x0018 + stack) 1 s

/-! ### Hawsers -/

/-- The hawser a slip belongs to (R241). -/
def hawserOf (s : State) (slip : Nat) : Nat :=
  ((s.hawsers.find? (fun p => p.2.slips.contains slip)).map Prod.fst).getD slip

/-- A hawser; a slip's own while it has its reset value. No slips: the number names no hawser (R241). -/
def getHawser (s : State) (h : Nat) : Hawser :=
  match tabGet? s.hawsers h with
  | some x => x
  | none => { slips := if hawserOf s h = h && h < 384 then [h] else [], txSeq := 0, rxSeq := 0, waiting := [], failover := [] }

def modHawser (h : Nat) (f : Hawser → Hawser) (s : State) : State :=
  { s with hawsers := tabPut s.hawsers h (f (getHawser s h)) }

/-- Slips of a hawser in service. -/
def slipsUp (s : State) (h : Nat) : List Nat := (getHawser s h).slips.filter (fun n => (getSlip s n).state == .inService)

/-- The home landing of a hawser (R159), also a slip's landing (R14). -/
def homeLanding (h : Nat) : Nat := h / 48

/-- Code of a slip state (Table 12.15). -/
def slipCode : SlipState → Nat
  | .down => 0
  | .identify => 1
  | .quarantine => 2
  | .inService => 3

/-! ### Crossings -/

def findXing (s : State) (l peer pl : Nat) : Option Crossing :=
  s.xings.find? (fun x => x.landing == l && x.peer == peer && x.peerLanding == pl)

def modXing (l peer pl : Nat) (f : Crossing → Crossing) (s : State) : State :=
  { s with xings := s.xings.map (fun x => if x.landing = l && x.peer = peer && x.peerLanding = pl then f x else x) }

/-- A lane of a crossing. -/
def XLane.fresh : XLane :=
  { nextSeq := 0, copies := [], cum := 0, got := [], held := [], sinceAck := 0, ackFrom := none }

def getLane (x : Crossing) (i : Nat) : XLane := x.lanes.getD i XLane.fresh
def setLane (x : Crossing) (i : Nat) (l : XLane) : Crossing := { x with lanes := x.lanes.set i l }

/-- INC of a landing, peer and peer landing (R172). -/
def getInc (s : State) (l peer pl : Nat) : BitVec 2 :=
  ((s.incs.find? (fun p => p.1 == (l, peer, pl))).map Prod.snd).getD 0

def putInc (l peer pl : Nat) (v : BitVec 2) (s : State) : State :=
  { s with incs := ((l, peer, pl), v) :: s.incs.filter (fun p => p.1 != (l, peer, pl)) }

/-! ### Faults (R334 to R342) -/

/-- The routing bank that is ACTIVE (R196). -/
def activeBank (s : State) : Nat := if s.net.bank1.state = .active then 1 else 0

def getBank (s : State) (b : Nat) : Bank := if b = 0 then s.net.bank0 else s.net.bank1

/-- Whether an address has a route in a bank (Table 07.1). -/
def hasRoute (b : Bank) (addr : Nat) : Bool := (tabGet b.routes addr []).any (fun c => c.weight != 0)

/-- A chunk of an optimizer context is held: the one at a position of its reduction context. -/
def chunkHeld (s : State) (octx q : Nat) : Bool :=
  match tabGet? s.octxs octx with
  | none => false
  | some o => ((tabGet? s.rctxs o.d.rctx).map (fun r => r.positions.any (fun p => p.1 % 2 ^ 56 == q && p.2.held))).getD false

/-- Whether the condition of a fault is present now (last column of Tables 14.3 and 14.6): one that lasts until reset, as long as no
reset has ended it. -/
def persists (s : State) (cls cause unit detail : Nat) : Bool :=
  match cls, cause with
  | 1, 1 => (getSlip s unit).state == .quarantine
  | 1, 2 => (slipsUp s unit).isEmpty
  | 2, 0 => s.xings.any (fun x => x.first == unit && x.state == .down)
  | 2, 1 => ((tabGet? s.rctxs unit).map (fun r => r.state == .stopped)).getD false
  | 3, 0 => hasRoute (getBank s (activeBank s)) unit && tabGet s.net.reach unit true == false
  | 6, 0 => ((tabGet? s.octxs unit).map (fun o => o.state == .split)).getD false
  | 8, 0 => detail % 256 == 7 && chunkHeld s unit (detail / 256)
  | 9, 0 => s.tide.refRejected
  | 9, 1 => (match unit with | 0 => s.clk.core | 1 => s.clk.datapath | _ => s.clk.tide) == .stopped
  | 10, 0 => ((tabGet? s.aon.monitors (64 + unit)).map (fun m => m.high || m.low)).getD false
  | 11, 0 => ((tabGet? s.aon.monitors unit).map (fun m => m.invalid)).getD false
  | 11, 1 => s.aon.tripped
  | 12, 2 => s.sys.phase == .recovery
  | 14, 0 => !s.host.linkUp
  | _, _ => false

/-- The bytes of a fault record (Table 14.4), PERSISTS as the state stands. -/
def faultBytes (s : State) (r : FaultRecord) : List Byte :=
  let p := persists s r.cls r.cause r.unit r.detail
  le 4 r.num ++ le 1 r.cls ++ le 1 r.level ++ le 2 r.unit ++ le 1 r.cause ++ le 1 r.state ++
    le 1 (b2n r.escalated + 2 * b2n r.repeated + 4 * b2n r.merged + 8 * b2n p + 16 * b2n r.prior) ++ le 1 r.origLevel ++
    le 4 r.count ++ le 8 r.firstTide.toNat ++ le 8 r.detail

/-- Whether a record is uncleared. -/
def FaultRecord.uncleared (r : FaultRecord) : Bool := r.state != 2

/-- Whether any record is uncleared (R344). -/
def anyUncleared (s : State) : Bool := s.flt.records.any FaultRecord.uncleared

/-- A fault class counted in the account of a step (Table 05.9). -/
def Account.note (a : Account) (cls level : Nat) (t : Tide) : Account :=
  let e := tabGet a.faults cls (0, 0, t)
  { a with faults := tabPut a.faults cls (satAdd 32 e.1 1, max e.2.1 level, if e.1 = 0 then t else e.2.2) }

/-- Every context's account with an occurrence added (R342). -/
def noteFault (cls level : Nat) (s : State) : State :=
  { s with rctxs := s.rctxs.map (fun p => (p.1, { p.2 with acct := p.2.acct.note cls level (now s) })),
           octxs := s.octxs.map (fun p => (p.1, { p.2 with acct := p.2.acct.note cls level (now s) })) }

/-- FAULT_RAISED carries the record as it stands after the raise (R335). -/
def raiseFaultEvent (r : FaultRecord) (s : State) : State :=
  raiseEvent 0x0010 none (faultBytes s r) s

/-- The always-on island's copy of the last record that reached FATAL (R337). -/
def keepFatal (r : FaultRecord) (s : State) : State :=
  if r.level = 4 then { s with aon := { s.aon with priorFatal := some r, priorFatalTide := now s } } else s

/-- The number after a fault number (R336). -/
def nextFaultNum (n : Nat) : Nat := if n = 0xFFFFFFFE then 1 else n + 1

/-- The table with its oldest CLEARED record removed. -/
def dropCleared : List FaultRecord → List FaultRecord
  | [] => []
  | r :: rs => if r.uncleared then r :: dropCleared rs else rs

/-- A new record enters the table, or is counted where the table is full of uncleared ones (R336). -/
def addRecord (r : FaultRecord) (s : State) : State :=
  let t := s.flt.records
  if t.length < 1024 || t.any (fun x => !x.uncleared) then
    let t' := if t.length < 1024 then t else dropCleared t
    let r := { r with num := s.flt.nextNum }
    let s := { s with flt := { s.flt with records := t' ++ [r], nextNum := nextFaultNum s.flt.nextNum } }
    raiseFaultEvent r (keepFatal r s)
  else raiseFaultEvent { r with num := 0xFFFFFFFF } (countPurser 0x0007 1 (keepFatal { r with num := 0xFFFFFFFF } s))

/-- The table with one record replaced, by number. -/
def putRecord (r : FaultRecord) (s : State) : State :=
  { s with flt := { s.flt with records := s.flt.records.map (fun x => if x.num = r.num then r else x) } }

/-- H of R340: the highest level among the class's RAISED records. -/
def raisedLevel (s : State) (cls : Nat) : Option Nat :=
  ((s.flt.records.filter (fun r => r.cls == cls && r.state == 0)).map (fun r => r.level)).max?

/-- A fault, in the mode in force (R340 to R342). -/
def raiseFault (cls cause unit detail level : Nat) (s : State) : State :=
  let mk (lv : Nat) (esc : Bool) : FaultRecord :=
    { num := 0, cls := cls, level := lv, unit := unit, cause := cause, state := 0, escalated := esc, repeated := false,
      merged := false, prior := false, origLevel := level, count := 1, firstTide := now s, detail := detail }
  if s.flt.merge then
    match s.flt.records.find? (fun r => r.cls == cls && r.uncleared) with
    | some r =>
      let r' := { r with count := satAdd 32 r.count 1, merged := true, level := max r.level level }
      let s := noteFault cls r'.level (putRecord r' s)
      if r'.level = r.level then s else raiseFaultEvent r' (keepFatal r' s)
    | none => noteFault cls level (addRecord (mk level false) s)
  else
    let h := raisedLevel s cls
    let up (base : Nat) : Nat := match h with
      | some x => max base (min 4 (x + 1))
      | none => base
    match s.flt.records.find? (fun r => r.cls == cls && r.cause == cause && r.unit == unit && r.uncleared) with
    | some r =>
      let lv := up r.level
      let r' := { r with count := satAdd 32 r.count 1, repeated := true, level := lv, state := 0,
                         escalated := r.escalated || decide (lv ≠ r.level) }
      let s := noteFault cls lv (putRecord r' s)
      if lv = r.level && r.state = 0 then s
      else raiseFaultEvent r' (if lv = r.level then s else keepFatal r' s)
    | none =>
      let lv := up level
      noteFault cls lv (addRecord (mk lv (decide (level < lv))) s)

/-! ### The ERROR_N pin -/

/-- ERROR_N as R344 drives it: low while RESET_N is asserted, until the collector starts, and while a record is RAISED
or ACKNOWLEDGED; an unpowered module does not drive it (Table 17.4). True is the released level. -/
def errorPin (s : State) : Bool := s.aon.stage == .off || (s.aon.resetN && s.aon.collector && !anyUncleared s)

/-- The state with its derived pin. -/
def settle (s : State) : State := { s with aon := { s.aon with errorN := errorPin s } }

/-- The next state of a meaning. -/
def finish (s : State) : Result := .next (settle s)

/-! ### DEV_STATUS (Table 11.4) -/

/-- The highest level among uncleared faults. -/
def faultLevel (s : State) : Nat :=
  ((s.flt.records.filter FaultRecord.uncleared).map (fun r => r.level)).max?.getD 0

def devStatus (s : State) : Nat :=
  b2n (running s) + 2 * b2n (s.sys.phase == .recovery) + 4 * b2n s.deck.trunc + 8 * b2n (!errorPin s) +
    16 * faultLevel s + 256 * b2n s.sys.memReady + 512 * s.host.linkMode + 2048 * s.host.width

/-! ### MSI-X and rings (R290, R298) -/

/-- Whether a vector may not be sent: MSI-X is not enabled (PCIe, log entry 44), the function mask, or its Mask bit, dword 3 of its table
entry; masked after reset (log entry 7). -/
def vectorMasked (h : HostIf) (v : Nat) : Bool := !h.cfg.msixEnable || h.msixFnMask || bit (tabGet h.msix (4 * v + 3) 1) 0

/-- Raising of a vector (R298). -/
def raiseVector (v : Nat) (s : State) : State :=
  if vectorMasked s.host v then modHost (fun h => { h with msixPending := h.msixPending ||| BitVec.ofNat 64 (2 ^ v) }) s
  else emit (.interrupt v) s

/-- A ring's count of unsignalled entries after `n` more, with the tide count of the first. -/
def noteEntries (n u : Nat) (first t : Tide) : Nat × Tide := (u + n, if u = 0 then t else first)

/-- The count after one more entry. -/
def noteEntry (u : Nat) (first t : Tide) : Nat × Tide := noteEntries 1 u first t

/-- Whether a ring signals by count (R298). -/
def dueByCount (c : RingCtrl) (u : Nat) : Bool := c.irqEn && decide (2 ^ c.coalCount ≤ u)

/-- The write-back area of a queue pair, then its vector if due (R290). -/
def qpWriteBack (q : Nat) (s : State) : State :=
  let p := getQp s q
  let s := emit (.hostWrite p.cqWb (le 4 p.cqTail.toNat ++ le 4 p.sqHead.toNat)) s
  if dueByCount p.ctrl p.unsignalled then raiseVector p.ctrl.vector (modQp q (fun p => { p with unsignalled := 0 }) s) else s

/-- The write-back of the event ring, then its vector if due. -/
def evWriteBack (s : State) : State :=
  let p := s.host.ev
  let s := emit (.hostWrite p.wb (le 4 p.tail.toNat ++ zeros 4)) s
  if dueByCount p.ctrl p.unsignalled then
    raiseVector p.ctrl.vector (modHost (fun h => { h with ev := { h.ev with unsignalled := 0 } }) s)
  else s

/-- The write-back of the audit ring, then its vector if due. -/
def audWriteBack (s : State) : State :=
  let p := s.host.aud
  let s := emit (.hostWrite p.wb (le 4 p.tail.toNat ++ zeros 4)) s
  if dueByCount p.ctrl p.unsignalled then
    raiseVector p.ctrl.vector (modHost (fun h => { h with aud := { h.aud with unsignalled := 0 } }) s)
  else s

/-- A CXL.io error of the part's own request is recorded and, where it is unmasked and its reporting is enabled, reported (R281, as
PCIe defines it, log entry 44). Which of the three errors of a request it was is a free value. -/
def linkError (s : State) : State :=
  let f := fresh 2 s
  let k := if f.1.toNat = 0 then 14 else if f.1.toNat = 1 then 15 else 20
  let c := f.2.host.cfg
  let fatal := bit c.aerUncSeverity k
  let s := modHost (fun h => { h with cfg := { h.cfg with aerUncStatus := h.cfg.aerUncStatus ||| 2 ^ k } }) f.2
  if !bit c.aerUncMask k && bit c.deviceControl (if fatal then 2 else 1) then emit (.errorMessage fatal) s else s

/-- RING_ERROR of a queue pair: 0 DUP_TAG, 1 OVERRUN, 2 CFG_ERR, 3 DMA_ERR. -/
def ringError (q tag reason : Nat) (s : State) : State :=
  raiseEvent 0x0002 none (le 1 q ++ zeros 1 ++ le 2 tag ++ le 1 reason) s

/-- Whether the event ring takes an event now (R296). -/
def evRoom (s : State) : Bool :=
  s.host.linkUp && s.host.ev.ctrl.enable && decide ((s.host.ev.tail - s.host.ev.head).toNat < 2 ^ s.host.ev.ctrl.log2)

/-- EVENTS_LOST takes its place when the queue has room again (R296), and HOST cause 1 is raised (log entry 14). -/
def placeLost (s : State) : State :=
  if s.host.evLost = 0 then s
  else
    let n := s.host.evLost
    let e : Event := { code := 0x0001, job := none, seq := s.host.evSeq, tide := now s,
                       params := le 4 (min n 0xFFFFFFFF) ++ zeros 4 ++ le 8 s.host.evLostTide.toNat }
    let s := sendEventFrames e (settleEvents s)
    let s := modHost (fun h => { h with evQueue := h.evQueue ++ [e], evSeq := h.evSeq + 1, evLost := 0,
                                        ev := { h.ev with status := { h.ev.status with lost := true } } }) s
    raiseFault 14 1 0 (min n 0xFFFFFFFF) 0 s

/-- The oldest queued event is written to the event ring (R290, R296). -/
def writeEvent (s : State) : State :=
  let s := settleEvents s
  match s.host.evQueue with
  | [] => s
  | e :: rest =>
    if evRoom s then
      let p := s.host.ev
      let s := emit (.hostWrite (p.base + (p.tail.toNat % 2 ^ p.ctrl.log2) * 64) e.bytes) s
      let u := noteEntry p.unsignalled p.firstUnsignalled (now s)
      let s := modHost (fun h => { h with evQueue := rest, ev := { h.ev with tail := h.ev.tail + 1, unsignalled := u.1,
                                                                             firstUnsignalled := u.2 } }) s
      placeLost (evWriteBack s)
    else s

/-- Every event that can be written is (R295). -/
def drainEvents (s : State) : State :=
  (List.range (s.host.evQueue.length + 1)).foldl (fun s _ => writeEvent s) s

/-! ### Event records of the mailbox (R299) -/

/-- An event record of the standard mailbox, for a media or link error that affects the state area: its log and its 128 bytes are free
values (log entry 35). The log's interrupt is sent where its policy byte asks for a message. -/
def mailboxRecord (s : State) : State :=
  let f := fresh 1026 s
  let log := bits f.1.toNat 1 0
  let mode := field f.2.mbox.policy log 1
  let s := { f.2 with mbox := { f.2.mbox with records := f.2.mbox.records ++ [(log, le 128 (f.1.toNat / 4))] } }
  if mode % 4 = 1 then raiseVector (mode / 16) s else s

/-! ### The state area (R16, R285) -/

/-- The byte at an offset: written, or undefined (log entry 3). -/
def readByte (s : State) (a : Nat) : Byte :=
  ((s.hbm.mem.find? (fun c => c.1 == a)).map Prod.snd).getD (Config.undefinedByte s.aon.losses a)

/-- The cells with one written, addresses rising. -/
def writeCell : List Host.Cell → Nat → Byte → List Host.Cell
  | [], a, v => [(a, v)]
  | c :: cs, a, v => if a < c.1 then (a, v) :: c :: cs else if a = c.1 then (a, v) :: cs else c :: writeCell cs a v

/-- The canonical form of the memory: addresses strictly rising. -/
abbrev Memory.wf (m : List Host.Cell) : Prop := m.Pairwise (fun a b => a.1 < b.1)

def readBytes (s : State) (a n : Nat) : List Byte := (List.range n).map (fun i => readByte s (a + i))

/-- Cells with a run of bytes written from an address. -/
def writeCells : List Host.Cell → Nat → List Byte → List Host.Cell
  | m, _, [] => m
  | m, a, b :: bs => writeCells (writeCell m a b) (a + 1) bs

def writeBytes (a : Nat) (bs : List Byte) (s : State) : State :=
  { s with hbm := { s.hbm with mem := writeCells s.hbm.mem a bs } }

/-- Cells outside a range of addresses. -/
def dropCells (m : List Host.Cell) (lo hi : Nat) : List Host.Cell := m.filter (fun c => c.1 < lo || hi ≤ c.1)

end Sys2Proof.Machine
end

