-- ==== Sys2Proof/Machine/Formats.lean ====
section
/-!
DEFINITION. Element formats and exact rounding: R19 to R22, R32, R400, and the gather conversions R39 and R40.
-/
namespace Sys2Proof.Machine

/-- A floating-point format of Table 02.1: element bytes, exponent and fraction widths, bias, largest finite value as
(significand, weight of its last place), and whether it has infinities. -/
structure Fmt where
  bytes : Nat
  eBits : Nat
  fBits : Nat
  bias : Nat
  maxSig : Nat
  maxExp : Int
  hasInf : Bool
  deriving DecidableEq, Repr

/-- p of Table 02.1: the significand width with its hidden bit. -/
def Fmt.p (f : Fmt) : Nat := f.fBits + 1

/-- emin of Table 02.1. -/
def Fmt.emin (f : Fmt) : Int := 1 - f.bias

def fp32 : Fmt := ⟨4, 8, 23, 127, 2 ^ 24 - 1, 104, true⟩
def bf16 : Fmt := ⟨2, 8, 7, 127, 2 ^ 8 - 1, 120, true⟩
def fp16 : Fmt := ⟨2, 5, 10, 15, 2 ^ 11 - 1, 5, true⟩
def e4m3 : Fmt := ⟨1, 4, 3, 7, 14, 5, false⟩
def e5m2 : Fmt := ⟨1, 5, 2, 15, 7, 13, true⟩

/-- The element format that FMT[2:0] names (R19); none for INT32 and the reserved codes. -/
def fmtOf (code : Nat) : Option Fmt :=
  match code % 8 with
  | 0 => some fp32
  | 1 => some bf16
  | 2 => some fp16
  | 3 => some e4m3
  | 4 => some e5m2
  | _ => none

/-- Whether a format code is block-scaled (R19). -/
def isScaled (code : Nat) : Bool := 8 ≤ code && code ≤ 12

/-- Whether a code is an unscaled or block-scaled floating-point format. -/
def isFloat (code : Nat) : Bool := code ≤ 4 || isScaled code

/-- Whether Table 02.1 reserves a format code (R19). -/
def fmtReserved (code : Nat) : Bool := !(code ≤ 5 || isScaled code)

/-- Bytes of an element of a format code, without its scale byte; INT32 has four. -/
def elemBytes (code : Nat) : Nat :=
  match code % 8 with
  | 1 | 2 => 2
  | 3 | 4 => 1
  | _ => 4

/-- A decoded value: NaN, an infinity, or (-1)^neg x m x 2^q exactly; m = 0 is a zero of that sign. -/
inductive FVal where
  | nan
  | inf (neg : Bool)
  | fin (neg : Bool) (m : Nat) (q : Int)
  deriving DecidableEq, Repr

/-- Decoding of an element (R20). -/
def decodeElem (f : Fmt) (w : Nat) : FVal :=
  let neg := bit w (f.eBits + f.fBits)
  let e := bits w (f.eBits + f.fBits - 1) f.fBits
  let frac := w % 2 ^ f.fBits
  let ones := 2 ^ f.eBits - 1
  if f.hasInf && e == ones then (if frac = 0 then .inf neg else .nan)
  else if !f.hasInf && e == ones && frac == 2 ^ f.fBits - 1 then .nan
  else if e = 0 then .fin neg frac (1 - f.bias - f.fBits)
  else .fin neg (2 ^ f.fBits + frac) ((e : Int) - f.bias - f.fBits)

/-- The exponent of an E8M0 scale byte (R21); 0xFF is NaN. -/
def scaleExp (b : Nat) : Option Int := if b = 0xFF then none else some ((b : Int) - 127)

/-- The scaled value of an element (R22). -/
def scaleVal (v : FVal) (scale : Option Int) : FVal :=
  match scale with
  | none => .nan
  | some s =>
    match v with
    | .fin neg m q => .fin neg m (q + s)
    | other => other

/-- Canonical NaN and infinities of a format (Table 02.1); E4M3 has its NaN for both (R32, R33). -/
def canonNan (f : Fmt) : Nat :=
  if f.hasInf then (2 ^ f.eBits - 1) * 2 ^ f.fBits + 2 ^ (f.fBits - 1) else 2 ^ (f.eBits + f.fBits) - 1

def infBits (f : Fmt) (neg : Bool) : Nat :=
  if f.hasInf then (2 ^ f.eBits - 1) * 2 ^ f.fBits + b2n neg * 2 ^ (f.eBits + f.fBits) else canonNan f

/-- The conditions an operation may raise (Table 02.6, bits 0 to 4). -/
structure Cond where
  nan : Bool
  inf : Bool
  ovf : Bool
  unf : Bool
  sat : Bool
  deriving DecidableEq, Repr

def Cond.none : Cond := ⟨false, false, false, false, false⟩

/-- Conditions of several elements together (R38). -/
def Cond.or (a b : Cond) : Cond :=
  ⟨a.nan || b.nan, a.inf || b.inf, a.ovf || b.ovf, a.unf || b.unf, a.sat || b.sat⟩

/-- The arithmetic condition word (Table 02.6), with TRUNC and AREV 0x01. -/
def Cond.word (c : Cond) (trunc : Bool) : BitVec 16 :=
  BitVec.ofNat 16 (b2n c.nan + 2 * b2n c.inf + 4 * b2n c.ovf + 8 * b2n c.unf + 16 * b2n c.sat + 32 * b2n trunc + 256)

/-- Conditions that an element's encoding shows: NAN or INF. -/
def condOfBits (f : Fmt) (w : Nat) : Cond :=
  match decodeElem f w with
  | .nan => { Cond.none with nan := true }
  | .inf _ => { Cond.none with inf := true }
  | .fin _ _ _ => Cond.none

/-- floor(log2(num / den)), for num, den > 0. -/
def ratLog2 (num den : Nat) : Int :=
  let e : Int := (log2 num : Int) - log2 den
  let ge := if 0 ≤ e then den * 2 ^ e.toNat ≤ num else den ≤ num * 2 ^ (-e).toNat
  if ge then e else e - 1

/-- `rne` of R32 on (-1)^neg x num / den x 2^q, den > 0: the encoding, and the conditions it sets. A zero keeps the
sign given (R400). -/
def rne (f : Fmt) (neg : Bool) (num den : Nat) (q : Int) : Nat × Cond :=
  let sign := b2n neg * 2 ^ (f.eBits + f.fBits)
  if num = 0 then (sign, Cond.none)
  else
    let e := ratLog2 num den + q
    let last := max e f.emin - (f.p - 1 : Nat)
    let d := q - last
    let n' := if 0 ≤ d then num * 2 ^ d.toNat else num
    let d' := if 0 ≤ d then den else den * 2 ^ (-d).toNat
    let k := n' / d'
    let r2 := 2 * (n' % d')
    let k' := if d' < r2 || (r2 == d' && k % 2 == 1) then k + 1 else k
    let tooBig := if last ≤ f.maxExp then f.maxSig * 2 ^ (f.maxExp - last).toNat < k'
      else f.maxSig < k' * 2 ^ (last - f.maxExp).toNat
    if tooBig then
      if f.hasInf then (infBits f neg, { Cond.none with inf := true, ovf := true })
      else (canonNan f, { Cond.none with nan := true, ovf := true })
    else if k' < 2 ^ f.fBits then (sign + k', Cond.none)
    else
      let up := decide (2 ^ f.p ≤ k')
      let sig := if up then k' / 2 else k'
      let ex := (last + (if up then 1 else 0) + f.fBits + f.bias).toNat
      (sign + ex * 2 ^ f.fBits + (sig - 2 ^ f.fBits), Cond.none)

/-- `rne` of a decoded value, NaN and infinities giving their encodings (R39). -/
def rneVal (f : Fmt) (v : FVal) : Nat × Cond :=
  match v with
  | .nan => (canonNan f, { Cond.none with nan := true })
  | .inf neg =>
    if f.hasInf then (infBits f neg, { Cond.none with inf := true }) else (canonNan f, { Cond.none with nan := true })
  | .fin neg m q => rne f neg m 1 q

/-- Conversion of an FP32 value to an unscaled gather format (R39). -/
def convertUnscaled (f : Fmt) (x : F32) : Nat × Cond := rneVal f (decodeElem fp32 x.toNat)

/-- `amax <= largest_finite x 2^e` for amax = m x 2^q (R40). -/
def fitsScale (f : Fmt) (m : Nat) (q : Int) (e : Int) : Bool :=
  let d := q - (f.maxExp + e)
  if 0 ≤ d then decide (m * 2 ^ d.toNat ≤ f.maxSig) else decide (m ≤ f.maxSig * 2 ^ (-d).toNat)

/-- The larger of two magnitudes m x 2^q. -/
def maxMag (a b : Nat × Int) : Nat × Int :=
  let d := a.2 - b.2
  let less := if 0 ≤ d then decide (a.1 * 2 ^ d.toNat < b.1) else decide (a.1 < b.1 * 2 ^ (-d).toNat)
  if a.1 = 0 then b else if less then b else a

/-- The scale exponent of a row (R40 steps 1 and 2): the smallest e with amax <= largest_finite x 2^e, limited to -127
to +127. The two tries start one below the quotient's logarithm. -/
def rowScale (f : Fmt) (row : List F32) : Int :=
  let mag (x : F32) : Nat × Int := match decodeElem fp32 x.toNat with
    | .fin _ m q => (m, q)
    | _ => (0, 0)
  let a := row.foldl (fun acc x => maxMag acc (mag x)) (0, 0)
  if a.1 = 0 then 0
  else
    let e0 := ratLog2 a.1 f.maxSig + a.2 - f.maxExp
    let e := if fitsScale f a.1 a.2 e0 then e0 else e0 + 1
    max (-127) (min 127 e)

/-- Conversion of one element of a row with scale exponent e (R40 steps 4 and 5). -/
def convertScaled (f : Fmt) (e : Int) (x : F32) : Nat × Cond :=
  match decodeElem fp32 x.toNat with
  | .fin neg m q => rne f neg m 1 (q - e)
  | other => rneVal f other

end Sys2Proof.Machine
end

