-- ==== Sys2Proof/Machine/Tallies.lean ====
section
/-!
DEFINITION. The tallies and the combine operations: R23 to R38, R41 (the truncating product), R62, R69, R70.
-/
namespace Sys2Proof.Machine

/-- A tally's admission window (Table 02.4): weight of bit 0 and of the exclusive upper limit, as powers of two. -/
structure Window where
  low : Int
  high : Int

def sumWindow : Window := ⟨-169, 128⟩
def dotWindow : Window := ⟨-340, 256⟩

def Tally.zero (w : Nat) : Tally w := ⟨0, false, false, false, false, false⟩

/-- The lowest set bit of a positive number, found within `fuel` bits. -/
def lowBit : Nat → Nat → Nat
  | 0, _ => 0
  | fuel + 1, m => if m % 2 = 1 then 0 else 1 + lowBit fuel (m / 2)

/-- `admitTerm` of R25. -/
def admitTerm {w : Nat} (win : Window) (t : Tally w) (x : FVal) : Tally w :=
  match x with
  | .nan => { t with nan := true }
  | .inf false => { t with pinf := true }
  | .inf true => { t with ninf := true }
  | .fin neg m q =>
    if m = 0 then t
    else if win.high ≤ (log2 m : Int) + q then
      if neg then { t with ninf := true, ovf := true } else { t with pinf := true, ovf := true }
    else if (lowBit (log2 m + 1) m : Int) + q < win.low then { t with unf := true }
    else
      let d := q - win.low
      let v : Int := if 0 ≤ d then (m * 2 ^ d.toNat : Nat) else (m / 2 ^ (-d).toNat : Nat)
      { t with n := t.n + BitVec.ofInt w (if neg then -v else v) }

/-- Folding of a partial tally (R29). -/
def Tally.fold {w : Nat} (a b : Tally w) : Tally w :=
  { n := a.n + b.n, nan := a.nan || b.nan, pinf := a.pinf || b.pinf, ninf := a.ninf || b.ninf, ovf := a.ovf || b.ovf,
    unf := a.unf || b.unf }

/-- The flag byte of Table 02.3. -/
def Tally.flags {w : Nat} (t : Tally w) : Nat :=
  b2n t.nan + 2 * b2n t.pinf + 4 * b2n t.ninf + 8 * b2n t.ovf + 16 * b2n t.unf

/-- The tally's bytes (R23), without the flag byte. -/
def Tally.bytes {w : Nat} (t : Tally w) : List Byte := le (w / 8) t.n.toNat

/-- A tally read from its bytes and flag byte. -/
def Tally.ofBytes (w : Nat) (bs : List Byte) (flags : Nat) : Tally w :=
  { n := BitVec.ofNat w (leNat bs), nan := bit flags 0, pinf := bit flags 1, ninf := bit flags 2, ovf := bit flags 3,
    unf := bit flags 4 }

/-- The value a tally holds, as a decoded value: N x weight of bit 0; a zero has no sign (R400). -/
def Tally.value {w : Nat} (t : Tally w) (low : Int) : FVal :=
  let v := t.n.toInt
  .fin (decide (v < 0)) v.natAbs low

/-- The conditions that admission left in a tally (R33). -/
def Tally.cond {w : Nat} (t : Tally w) : Cond := { Cond.none with ovf := t.ovf, unf := t.unf }

/-- A floating-point result leaving its tally (R33). -/
def Tally.result {w : Nat} (t : Tally w) (low : Int) (f : Fmt) : Nat × Cond :=
  let r := if t.nan || (t.pinf && t.ninf) then rneVal f .nan
    else if t.pinf then rneVal f (.inf false)
    else if t.ninf then rneVal f (.inf true)
    else rneVal f (t.value low)
  (r.1, r.2.or t.cond)

def sumResult (t : Tally 320) (f : Fmt) : Nat × Cond := t.result (-169) f
def dotResult (t : Tally 640) (f : Fmt) : Nat × Cond := t.result (-340) f

/-- The 24 most significant bits of an exact product, towards zero (R41). -/
def truncProduct (m : Nat) : Nat := if log2 m < 24 then m else m / 2 ^ (log2 m - 23) * 2 ^ (log2 m - 23)

/-- The product of two scaled elements (R31), truncated in truncating mode (R41). -/
def mulVal (trunc : Bool) (a b : FVal) : FVal :=
  match a, b with
  | .nan, _ => .nan
  | _, .nan => .nan
  | .inf sa, .inf sb => .inf (xor sa sb)
  | .inf sa, .fin sb m _ => if m = 0 then .nan else .inf (xor sa sb)
  | .fin sa m _, .inf sb => if m = 0 then .nan else .inf (xor sa sb)
  | .fin sa ma qa, .fin sb mb qb =>
    .fin (xor sa sb) (if trunc then truncProduct (ma * mb) else ma * mb) (qa + qb)

/-! ### Combine operations (Table 02.5, R36, R37, R67) -/

/-- The order of R36 on decoded values other than NaN, -0 below +0: whether `a` is below `b`. -/
def belowVal (a b : FVal) : Bool :=
  match a, b with
  | .inf true, .inf true => false
  | .inf true, _ => true
  | _, .inf true => false
  | _, .inf false => match a with | .inf false => false | _ => true
  | .inf false, _ => false
  | .fin sa ma qa, .fin sb mb qb =>
    let d := qa - qb
    let lt := if 0 ≤ d then decide (ma * 2 ^ d.toNat < mb) else decide (ma < mb * 2 ^ (-d).toNat)
    let gt := if 0 ≤ d then decide (mb < ma * 2 ^ d.toNat) else decide (mb * 2 ^ (-d).toNat < ma)
    match sa, sb with
    | true, false => true
    | false, true => false
    | false, false => lt
    | true, true => gt
  | _, _ => false

/-- An element of a contribution, decoded and scaled: INT32 has no decoded value. `scale` is the E8M0 byte of a
block-scaled element. -/
def elemVal (fmt elem scale : Nat) : FVal :=
  match fmtOf fmt with
  | none => .nan
  | some f => scaleVal (decodeElem f elem) (if isScaled fmt then scaleExp scale else some 0)

/-- A 32-bit pattern as a signed integer. -/
def int32 (w : Nat) : Int := (BitVec.ofNat 32 w).toInt

/-- MAX (`isMax`) or MIN of two INT32 patterns. -/
def intExtremum (isMax : Bool) (a b : Nat) : Nat :=
  if isMax then (if int32 a < int32 b then b else a) else (if int32 b < int32 a then b else a)

/-- The winner of two elements with their scale bytes. DESIGN CHOICE: of equal values written with different scales the lower scale byte
wins, so that a partial's bytes do not depend on the order of folding (R130, log entry 50). -/
def floatExtremum (isMax : Bool) (fmt : Nat) (a b : Nat × Nat) : Nat × Nat :=
  let va := elemVal fmt a.1 a.2
  let vb := elemVal fmt b.1 b.2
  let better := if isMax then belowVal va vb else belowVal vb va
  let worse := if isMax then belowVal vb va else belowVal va vb
  if better || (!worse && b.2 < a.2) then b else a

/-- Folding of one member element into a berth (R25, R30, R36, R37, R62). `op` as in Table 03.1. -/
def foldElem (op fmt : Nat) (b : Berth) (elem scale : Nat) : Berth :=
  match op with
  | 0 =>
    match b with
    | .sum t => .sum (admitTerm sumWindow t (elemVal fmt elem scale))
    | _ => .sum (admitTerm sumWindow (Tally.zero 320) (elemVal fmt elem scale))
  | 3 =>
    let t := match b with | .sum t => t | _ => Tally.zero 320
    .sum { t with n := t.n + BitVec.ofInt 320 (int32 elem * 2 ^ 169) }
  | 1 | 2 =>
    if fmt = 5 then
      match b with
      | .extremum e _ _ => .extremum (intExtremum (op == 1) e elem) 0 false
      | _ => .extremum elem 0 false
    else
      let isNan := elemVal fmt elem scale == FVal.nan
      match b with
      | .extremum e s n =>
        if n || isNan then .extremum e s true
        else
          let w := floatExtremum (op == 1) fmt (e, s) (elem, scale)
          .extremum w.1 w.2 false
      | _ => .extremum elem scale isNan
  | _ =>
    let p := BitVec.ofNat 32 elem
    match b with
    | .bits a => .bits (if op = 4 then a &&& p else if op = 5 then a ||| p else a ^^^ p)
    | _ => .bits p

/-- Folding of a forwarded tally (R29, R70). -/
def foldTally (b : Berth) (t : Tally 320) : Berth :=
  match b with
  | .sum a => .sum (a.fold t)
  | _ => .sum t

/-- The result of an element in a result format, with its conditions (R33 to R37). -/
def berthResult (op fmt resultFmt : Nat) (b : Berth) : Nat × Cond :=
  match b with
  | .sum t =>
    if op = 3 then
      let v := t.n.toInt / 2 ^ 169
      if 2 ^ 31 ≤ v then (0x7FFFFFFF, { Cond.none with sat := true })
      else if v < -(2 ^ 31) then (0x80000000, { Cond.none with sat := true })
      else ((BitVec.ofInt 32 v).toNat, Cond.none)
    else
      match fmtOf resultFmt with
      | some f => sumResult t f
      | none => (0, Cond.none)
  | .extremum e s n =>
    match fmtOf fmt with
    | none => (e, Cond.none)
    | some f =>
      if isScaled fmt then rneVal fp32 (if n then .nan else elemVal fmt e s)
      else if n then rneVal f .nan
      else (e, condOfBits f e)
  | .bits p => (p.toNat, Cond.none)
  | .empty => (0, Cond.none)

/-- The winner as a forwarded partial carries it (R69): element and scale byte, canonical NaN where one was seen. -/
def berthWinner (fmt : Nat) (b : Berth) : Nat × Nat :=
  match b with
  | .extremum e s n =>
    match fmtOf fmt with
    | none => (e, s)
    | some f => if n then (canonNan f, 0x7F) else (e, s)
  | .bits p => (p.toNat, 0)
  | _ => (0, 0)

/-- Whether Table 02.5 permits an operation with a contribution format and a result format (R34, R45). -/
def opPermits (op fmt resultFmt : Nat) : Bool :=
  match op with
  | 0 => isFloat fmt && (if isScaled fmt then resultFmt == 0 else resultFmt == fmt || resultFmt == 0)
  | 1 | 2 => if fmt = 5 then resultFmt == 5 else isFloat fmt && (if isScaled fmt then resultFmt == 0 else resultFmt == fmt)
  | 3 | 4 | 5 | 6 => fmt == 5 && resultFmt == 5
  | _ => false

/-- FORM of a forwarded partial (R69): 0 tally, 1 extremum, 2 bitwise. -/
def formOf (op : Nat) : Nat := if op = 0 || op = 3 then 0 else if op ≤ 2 then 1 else 2

end Sys2Proof.Machine
end

