-- ==== Sys2Proof/Machine/Packets.lean ====
section
/-!
DEFINITION. Packets: their bytes (Tables 06.3 to 06.6, 05.4), names and ranks (R158 to R162), what the F384 originates and
where it waits (R160, R174, R182, R214, R216), and the answers to refused packets (R169, R178, R186).
-/
namespace Sys2Proof.Machine

/-! ### Fields -/

/-- KIND of a packet (Table 06.4). -/
def bodyKind : Body → Nat
  | .contribute _ _ _ _ _ => 0x01
  | .credit _ _ _ _ _ => 0x02
  | .resend _ _ _ => 0x03
  | .status _ _ _ _ _ _ _ => 0x04
  | .gatherReq _ _ _ _ _ => 0x05
  | .drawReq _ _ _ _ _ => 0x06
  | .launch _ => 0x07
  | .landing _ _ _ _ _ _ => 0x08
  | .writeDone _ _ _ _ _ _ _ => 0x09
  | .ringStop _ _ => 0x0A
  | .tide _ => 0x0B
  | .xack _ _ => 0x0C
  | .xsync _ _ => 0x0D
  | .long k _ _ => k
  | .unknown k _ => k

def pktKind (p : Packet) : Nat := bodyKind p.body

/-- Packet units (chapter 08, R235): a header unit, and UNITS payload units of a long packet, an unknown one included. -/
def pktUnits (p : Packet) : Nat :=
  match p.body with
  | .long _ h _ => h.units + 1
  | .unknown k bs => if 0x40 ≤ k then (bs.headD 0).toNat + 1 else 1
  | _ => 1

/-- The long header, all 0 for a short packet. -/
def LongHdr.zero : LongHdr :=
  { units := 0, tail := 0, ctx := 0, opNum := 0, pkt := 0, chunk := 0, cond := 0, fmt := 0, part := 0, nodeFan := 0, addr := 0,
    step := 0, aux := 0 }

def longHdr (p : Packet) : LongHdr :=
  match p.body with
  | .long _ h _ => h
  | _ => LongHdr.zero

def payloadOf (p : Packet) : List Byte :=
  match p.body with
  | .long _ _ b => b
  | _ => []

/-- Payload bytes up to TAIL of the last unit (R183). -/
def validPayload (p : Packet) : List Byte := (payloadOf p).take (64 * ((longHdr p).units - 1) + (longHdr p).tail)

/-- CTX, OP_NUM and CHUNK a packet names, for the STATUS that answers it. -/
def pktNames (p : Packet) : Nat × Nat × Nat :=
  match p.body with
  | .contribute c o _ _ _ => (c, o, 0)
  | .gatherReq c o k _ _ => (c, o, k)
  | .long _ h _ => (h.ctx, h.opNum, h.chunk)
  | .resend c o k => (c, o, k)
  | .credit c o k _ _ => (c, o, k)
  | .status c o k _ _ _ _ => (c, o, k)
  | _ => (0, 0, 0)

/-- Table 06.3 with every field 0 and DST_FORM 3. -/
def Header.zero : Header :=
  { cls := 0, rte := 0, phase := 0, lane := 0, epoch := 0, last := false, ord := false, dstForm := 3, job := 0, dst := 0, src := 0,
    srcRank := 0xFFFF, hops := 0, seq := 0, xmit := 0, xland := 0, xing := false, ingress := 0, egress := 0,
    egressLanding := 0, notifyDst := false, notifySrc := false, inc := 0, tag := 0 }

/-- The header of a packet that this F384 originates (R163, R182); EGRESS is its own until a crossing is named. -/
def ownHeader (s : State) (cls job dst : Nat) : Header :=
  { Header.zero with cls := cls, job := job, dst := dst, src := ownAddr s, ingress := ownAddr s, egress := ownAddr s }

def mkPacket (h : Header) (b : Body) : Packet := { hdr := h, body := b, rsvd := false, lengthOk := true }

/-! ### Bytes (Tables 06.3, 06.5, 06.6, 05.4) -/

/-- Tide message parameters, Table 05.4. -/
def tideBytes (m : TideMsg) : List Byte :=
  le 1 m.kind ++ le 1 m.priority ++ le 1 m.hops ++ le 1 (b2n m.ref + 2 * b2n m.locked) ++ le 1 m.seq ++ le 1 m.t1Frac ++
    le 1 m.t2Frac ++ le 1 m.t3Frac ++ le 8 m.serial ++ le 8 m.t1.toNat ++ le 8 m.t2.toNat ++ le 8 m.t3.toNat

/-- Bytes 24-63 of a packet. -/
def bodyBytes : Body → List Byte
  | .contribute c o f k rb => fit 40 (le 2 c ++ le 2 o ++ zeros 4 ++ le 8 f ++ le 8 k ++ le 8 rb)
  | .credit c o k bo bc => fit 40 (le 2 c ++ le 2 o ++ le 4 k ++ le 2 bo ++ zeros 2 ++ le 4 bc)
  | .resend c o k => fit 40 (le 2 c ++ le 2 o ++ le 4 k)
  | .status c o k st rk ss se =>
    fit 40 (le 2 c ++ le 2 o ++ le 4 k ++ le 2 st ++ le 1 rk ++ zeros 5 ++ le 8 ss ++ le 8 se)
  | .gatherReq c o k ra v => fit 40 (le 2 c ++ le 2 o ++ le 4 k ++ le 8 ra ++ le 8 v)
  | .drawReq st bl ix sp ra => fit 40 (le 2 st ++ le 1 bl ++ zeros 1 ++ le 4 ix ++ le 8 sp ++ le 8 ra)
  | .launch l => fit 40 (le 8 l.toNat)
  | .landing st c k mb ml o => fit 40 (le 2 st ++ le 2 c ++ le 4 k ++ le 8 mb ++ le 8 ml ++ le 2 o)
  | .writeDone st c k mb ml o pr => fit 40 (le 2 st ++ le 2 c ++ le 4 k ++ le 8 mb ++ le 8 ml ++ le 2 o ++ le 2 pr)
  | .ringStop c o => fit 40 (le 2 c ++ le 2 o)
  | .tide m => fit 40 (tideBytes m)
  | .xack cum sack => le 4 cum.toNat ++ zeros 4 ++ le 32 sack.toNat
  | .xsync inc op => fit 40 (le 1 inc.toNat ++ le 1 (b2n op))
  | .long k h _ =>
    le 1 h.units ++ le 1 h.tail ++ le 2 h.ctx ++ le 2 h.opNum ++ le 2 h.pkt ++ le 4 h.chunk ++ le 2 h.cond ++
      le 1 (h.fmt % 16 + h.part % 4 * 16) ++ le 1 h.nodeFan ++ le 8 h.addr ++
      (if k = 0x47 then le 8 h.aux ++ le 8 h.step else le 8 h.step ++ le 8 h.aux)
  | .unknown _ bs => fit 40 bs

/-- Bytes 0-23, the common header of Table 06.3. -/
def headerBytes (kind : Nat) (h : Header) : List Byte :=
  le 1 kind ++ le 1 (h.cls % 8 + 8 * (h.rte % 2) + 16 * (h.phase % 4) + 64 * (h.lane % 4)) ++
    le 1 (h.epoch % 16 + 16 * b2n h.last + 32 * b2n h.ord + 64 * (h.dstForm % 4)) ++ le 1 h.job ++ le 2 h.dst ++ le 2 h.src ++
    le 2 h.srcRank ++ le 2 h.hops ++
    le 4 (h.seq.toNat + 2 ^ 24 * (h.xmit % 16) + 2 ^ 28 * (h.xland % 8) + 2 ^ 31 * b2n h.xing) ++ le 2 h.ingress ++
    le 2 h.egress ++ le 1 (h.egressLanding % 8 + 8 * b2n h.notifyDst + 16 * b2n h.notifySrc) ++ le 1 h.inc.toNat ++ le 2 h.tag

/-- The 64-byte units of a packet (R233). -/
def packetUnits (p : Packet) : List (List Byte) :=
  (headerBytes (pktKind p) p.hdr ++ bodyBytes p.body) ::
    (List.range (pktUnits p - 1)).map (fun i => fit 64 (bytesAt (payloadOf p) (64 * i) 64))

/-- The common header read from bytes. -/
def parseHeader (b : List Byte) : Header :=
  let c := field b 1 1
  let f := field b 2 1
  let x := field b 12 4
  let xf := field b 20 1
  { cls := c % 8, rte := bits c 3 3, phase := bits c 5 4, lane := bits c 7 6, epoch := f % 16, last := bit f 4, ord := bit f 5,
    dstForm := bits f 7 6, job := field b 3 1, dst := field b 4 2, src := field b 6 2, srcRank := field b 8 2,
    hops := field b 10 2, seq := BitVec.ofNat 24 x, xmit := bits x 27 24, xland := bits x 30 28, xing := bit x 31,
    ingress := field b 16 2, egress := field b 18 2, egressLanding := xf % 8, notifyDst := bit xf 3, notifySrc := bit xf 4,
    inc := BitVec.ofNat 2 (field b 21 1), tag := field b 22 2 }

/-- Tide parameters read from the 40 bytes. -/
def parseTide (b : List Byte) : TideMsg :=
  let fl := field b 3 1
  { kind := field b 0 1, priority := field b 1 1, hops := field b 2 1, ref := bit fl 0, locked := bit fl 1, seq := field b 4 1,
    t1Frac := field b 5 1, t2Frac := field b 6 1, t3Frac := field b 7 1, serial := field b 8 8,
    t1 := BitVec.ofNat 64 (field b 16 8), t2 := BitVec.ofNat 64 (field b 24 8), t3 := BitVec.ofNat 64 (field b 32 8) }

/-- The body of a short packet, and whether some parameter bit outside Table 06.6 is 1. -/
def parseShort (kind : Nat) (b : List Byte) : Body × Bool :=
  match kind with
  | 0x01 => (.contribute (field b 0 2) (field b 2 2) (field b 8 8) (field b 16 8) (field b 24 8), !(zeroAt b 4 4 && zeroAt b 32 8))
  | 0x02 => (.credit (field b 0 2) (field b 2 2) (field b 4 4) (field b 8 2) (field b 12 4), !(zeroAt b 10 2 && zeroAt b 16 24))
  | 0x03 => (.resend (field b 0 2) (field b 2 2) (field b 4 4), !zeroAt b 8 32)
  | 0x04 =>
    (.status (field b 0 2) (field b 2 2) (field b 4 4) (field b 8 2) (field b 10 1) (field b 16 8) (field b 24 8),
      !(zeroAt b 11 5 && zeroAt b 32 8))
  | 0x05 => (.gatherReq (field b 0 2) (field b 2 2) (field b 4 4) (field b 8 8) (field b 16 8), !zeroAt b 24 16)
  | 0x06 => (.drawReq (field b 0 2) (field b 2 1) (field b 4 4) (field b 8 8) (field b 16 8), !(zeroAt b 3 1 && zeroAt b 24 16))
  | 0x07 => (.launch (BitVec.ofNat 64 (field b 0 8)), !zeroAt b 8 32)
  | 0x08 => (.landing (field b 0 2) (field b 2 2) (field b 4 4) (field b 8 8) (field b 16 8) (field b 24 2), !zeroAt b 26 14)
  | 0x09 =>
    (.writeDone (field b 0 2) (field b 2 2) (field b 4 4) (field b 8 8) (field b 16 8) (field b 24 2) (field b 26 2),
      !zeroAt b 28 12)
  | 0x0A => (.ringStop (field b 0 2) (field b 2 2), !zeroAt b 4 36)
  | 0x0B => (.tide (parseTide b), decide (4 ≤ field b 3 1))
  | 0x0C => (.xack (BitVec.ofNat 24 (field b 0 4)) (BitVec.ofNat 256 (field b 8 32)), !(zeroAt b 3 5))
  | 0x0D => (.xsync (BitVec.ofNat 2 (field b 0 1)) (bit (field b 1 1) 0), decide (4 ≤ field b 0 1) || decide (2 ≤ field b 1 1) || !zeroAt b 2 38)
  | k => (.unknown k (b.take 40), false)

/-- The long header of a kind read from bytes 24-63; GATHER has its version tag in place of STEP and AUX (Table 06.5). -/
def parseLong (kind : Nat) (b : List Byte) : LongHdr :=
  let f := field b 14 1
  let at48 := field b 24 8
  let at56 := field b 32 8
  { units := field b 0 1, tail := field b 1 1, ctx := field b 2 2, opNum := field b 4 2, pkt := field b 6 2, chunk := field b 8 4,
    cond := field b 12 2, fmt := f % 16, part := bits f 5 4, nodeFan := field b 15 1, addr := field b 16 8,
    step := if kind = 0x47 then at56 else at48, aux := if kind = 0x47 then at48 else at56 }

/-- A packet read from its units (R163 to R166). Kinds 0x40 to 0x4A are long; others not listed are unknown. -/
def parsePacket (units : List (List Byte)) : Packet :=
  let b := units.headD []
  let kind := field b 0 1
  let pb := b.drop 24
  let hr := decide (32 ≤ field b 20 1) || decide (4 ≤ field b 21 1)
  if 0x40 ≤ kind && kind ≤ 0x4A then
    let h := parseLong kind pb
    { hdr := parseHeader b, body := .long kind h units.tail.flatten, rsvd := hr || decide (64 ≤ field pb 14 1),
      lengthOk := units.length == h.units + 1 && 1 ≤ h.units && h.units ≤ 64 && 1 ≤ h.tail && h.tail ≤ 64 }
  else
    let x := parseShort kind pb
    { hdr := parseHeader b, body := x.1, rsvd := hr || x.2, lengthOk := units.length == 1 }

/-! ### Endpoints and ranks (R158, R161, R162) -/

def endpoint (s : State) (a : Nat) : BitVec 32 := tabGet s.net.endpoints a 0
def epOwner (e : BitVec 32) : Nat := bits e.toNat 15 0
def epHawser (e : BitVec 32) : Nat := bits e.toNat 24 16
def epSelf (e : BitVec 32) : Bool := bit e.toNat 30
def epValid (e : BitVec 32) : Bool := bit e.toNat 31

/-- The local member hawser an address names. -/
def localHawser (s : State) (a : Nat) : Option Nat :=
  let e := endpoint s a
  if epValid e && !epSelf e && s.net.ownAddr == some (epOwner e) then some (epHawser e) else none

/-- Rank r of a job: its address, if the rank is in use. -/
def rankAddr (s : State) (job r : Nat) : Option Nat :=
  match tabGet? s.jobs job with
  | none => none
  | some j =>
    let e := tabGet s.net.ranks (j.rankBase + r) 0
    if r < j.rankCount && bit e.toNat 31 then some (bits e.toNat 15 0) else none

/-- The (rank, hawser) pairs of a job's local members (R162), ranks ascending. -/
def localMembers (s : State) (job : Nat) : List (Nat × Nat) :=
  match tabGet? s.jobs job with
  | none => []
  | some j =>
    (s.net.ranks.filter (fun p => j.rankBase ≤ p.1 && p.1 < j.rankBase + j.rankCount)).filterMap (fun p =>
      if bit p.2.toNat 31 then (localHawser s (bits p.2.toNat 15 0)).map (fun h => (p.1 - j.rankBase, h)) else none)

/-- The (job, rank) pairs of a hawser (R162). -/
def hawserJobs (s : State) (h : Nat) : List (Nat × Nat) :=
  (s.jobs.map (fun j => (localMembers s j.1).filterMap (fun m => if m.2 = h then some (j.1, m.1) else none))).flatten

/-- The hawser of a local rank. -/
def hawserOfRank (s : State) (job r : Nat) : Option Nat := ((localMembers s job).find? (fun m => m.1 == r)).map Prod.snd

/-- The rank whose entry holds an address (PEER_RANK of R186); 0xFFFF if none. -/
def rankOfAddr (s : State) (job a : Nat) : Nat :=
  match tabGet? s.jobs job with
  | none => 0xFFFF
  | some j =>
    ((s.net.ranks.find? (fun p => j.rankBase ≤ p.1 && p.1 < j.rankBase + j.rankCount && bit p.2.toNat 31 &&
      bits p.2.toNat 15 0 == a)).map (fun p => p.1 - j.rankBase)).getD 0xFFFF

/-- A job's class map, the default for no job (R170). -/
def ClassMap.default : ClassMap := { reduce := 2, request := 2, write := 3, mask := 8 }
def classesOf (s : State) (job : Nat) : ClassMap := ((tabGet? s.jobs job).map (fun j => j.classes)).getD ClassMap.default

/-! ### Origination (R160, R214) -/

/-- A packet with its replicas enters its source at the landing R160 gives. -/
def originateReps (landing : Nat) (p : Packet) (reps : List Replica) (tag : Option EmitTag) (s : State) : State :=
  let l := originLanding s landing
  let q : Sourced := { pkt := p, reps := reps, multicast := decide (1 < reps.length), emit := tag }
  if reps.isEmpty then s else modLanding l (fun x => { x with sources := x.sources ++ [q] }) s

/-- A unicast packet enters its source. -/
def originate (landing : Nat) (p : Packet) (d : Dest) (tag : Option EmitTag) (s : State) : State :=
  originateReps landing p [{ dest := d, pkt := p, follow := none }] tag s

/-- The lowest landing in service (R160). -/
def lowestLanding (s : State) : Nat := originLanding s 0

/-- A packet towards a peer F384 on a crossing of the origin landing, received at the landing of the same number. -/
def originatePeer (landing lane : Nat) (p : Packet) (tag : Option EmitTag) (s : State) : State :=
  let l := originLanding s landing
  originate landing { p with hdr := { p.hdr with lane := lane, egress := p.hdr.dst } } (.crossing p.hdr.dst l lane) tag s

/-- A packet to the member or F384 that an address names (R158, R160): to a local hawser, or on a crossing to its owner; a
member is served at its hawser's home landing. An address not in use takes no packet. -/
def originateTo (landing : Nat) (p : Packet) (follow : Option Packet) (s : State) : State :=
  let l := originLanding s landing
  let e := endpoint s p.hdr.dst
  match localHawser s p.hdr.dst with
  | some h => originateReps l p [{ dest := .hawser h, pkt := p, follow := follow }] none s
  | none =>
    if epValid e then
      originate l { p with hdr := { p.hdr with egress := epOwner e } }
        (.crossing (epOwner e) (if epSelf e then l else homeLanding (epHawser e)) p.hdr.lane) none s
    else s

/-- A packet sent on one slip: a tide message (R140, R191). -/
def originateSlip (slip : Nat) (p : Packet) (s : State) : State := originate (homeLanding slip) p (.slip slip) none s

/-- A packet to a local member hawser. -/
def originateMember (landing hawser : Nat) (p : Packet) (s : State) : State := originate landing p (.hawser hawser) none s

/-- A packet enters the virtual output queues of its destinations (R216). `named`: how the member that sent it named its context. -/
def pushNamed (l : Nat) (p : Packet) (reps : List Replica) (slip : Option Nat) (originated : Bool) (emit : Option EmitTag)
    (named : Option Naming) (s : State) : State :=
  modLanding l (fun x =>
    { x with voq := x.voq ++ [{ id := x.nextId, pkt := p, reps := reps, multicast := decide (1 < reps.length), residueAt := none,
                                chargedSlip := slip, originated := originated, emit := emit, named := named }],
             nextId := x.nextId + 1 }) s

/-- A packet that no member named a context in enters its queues. -/
def pushVoq (l : Nat) (p : Packet) (reps : List Replica) (slip : Option Nat) (originated : Bool) (emit : Option EmitTag)
    (s : State) : State :=
  pushNamed l p reps slip originated emit none s

/-! ### Answers to members (R169, R178, R186) -/

/-- Whether a packet's message asks for WRITE_DONE. -/
def wantsDone (p : Packet) : Bool := p.hdr.last && p.hdr.notifySrc && pktKind p == 0x40

/-- The rank that stage and group name under a phase map (R127), if they lie within it. -/
def stageRank (j : Job) (phase dst : Nat) : Option Nat :=
  (tabGet? j.phaseMaps phase).bind (fun m =>
    let st := bits dst 15 10
    let g := bits dst 9 0
    if st < m.stages && g < m.groups then m.stageRanks[g * m.stages + st]? else none)

/-- The destination rank of a WRITE, in whichever form DST names it (R168, R186). -/
def destRank (s : State) (p : Packet) : Nat :=
  match p.hdr.dstForm with
  | 0 => p.hdr.dst
  | 1 => ((tabGet? s.jobs p.hdr.job).bind (fun j => stageRank j p.hdr.phase p.hdr.dst)).getD 0xFFFF
  | _ => rankOfAddr s p.hdr.job p.hdr.dst

/-- WRITE_DONE for a message (R186), addressed to its source. -/
def writeDonePacket (s : State) (status : Nat) (p : Packet) : Packet :=
  let h := longHdr p
  mkPacket { ownHeader s (classesOf s p.hdr.job).write p.hdr.job p.hdr.src with
             lane := p.hdr.lane, phase := p.hdr.phase, tag := p.hdr.tag }
    (.writeDone status 0xFFFF 0 h.aux h.step 0 (destRank s p))

/-- WRITE_DONE to a source member of this F384. -/
def localWriteDone (status : Nat) (p : Packet) (s : State) : State :=
  match localHawser s p.hdr.src with
  | some h => originateMember (lowestLanding s) h (writeDonePacket s status p) s
  | none => s

/-- STATUS to a member (R73, R169): CTX and PHASE as the packet named them (R404). -/
def statusPacket (s : State) (p : Packet) (ctx phase status sent expected : Nat) : Packet :=
  let n := pktNames p
  mkPacket { ownHeader s p.hdr.cls p.hdr.job p.hdr.src with phase := phase, ord := true, lane := p.hdr.lane }
    (.status ctx n.2.1 n.2.2 status (pktKind p) sent expected)

/-- STATUS to a local member hawser for a packet of its. -/
def statusToMember (hawser : Nat) (p : Packet) (ctx phase status sent expected : Nat) (s : State) : State :=
  originateMember ((pktNames p).2.2 % 8) hawser (statusPacket s p ctx phase status sent expected) s

/-- STATUS to a member, at most one for it and a chunk as it names it (R73). What it was told of an operation is forgotten once an
operation of that number is announced (log entry 46). -/
def statusOncePer (hawser : Nat) (p : Packet) (ctx phase status : Nat) (s : State) : State :=
  let n := pktNames p
  let k : Told := { sender := hawser, job := p.hdr.job, ctx := ctx, phase := phase, opNum := n.2.1, chunk := n.2.2 }
  if s.net.told.contains k then s
  else statusToMember hawser p ctx phase status 0 0 { s with net := { s.net with told := s.net.told ++ [k] } }

/-- What members of a job were told of an operation is forgotten. -/
def forgetTold (job num : Nat) (s : State) : State :=
  { s with net := { s.net with told := s.net.told.filter (fun k => !(k.job == job && k.opNum == num)) } }

/-- The answer to a refused member packet (R169): STATUS, once for a sender and chunk (R73; a DRAW_REQ names no chunk), WRITE_DONE,
or none. `p` is the packet as the member named it, with SRC overwritten. -/
def answerRefused (hawser : Nat) (p : Packet) (status : Nat) (s : State) : State :=
  let k := pktKind p
  if k = 0x40 then
    if wantsDone p then originateMember (lowestLanding s) hawser (writeDonePacket s status p) s else s
  else if k = 0x01 || k = 0x05 || k = 0x06 || k = 0x41 || k = 0x42 || k = 0x43 then
    if k = 0x06 then statusToMember hawser p (pktNames p).1 p.hdr.phase status 0 0 s
    else statusOncePer hawser p (pktNames p).1 p.hdr.phase status s
  else s

/-- A member packet refused at its ingress: counted and answered (R169). -/
def refuseMember (landing hawser : Nat) (p : Packet) (status : Nat) (s : State) : State :=
  answerRefused hawser p status (countLanding landing 1 s)

/-- A packet with its context named anew. -/
def withCtx (c : Nat) (p : Packet) : Packet :=
  match p.body with
  | .contribute _ o f k b => { p with body := .contribute c o f k b }
  | .gatherReq _ o k a v => { p with body := .gatherReq c o k a v }
  | .long k h b => { p with body := .long k { h with ctx := c } b }
  | _ => p

/-- A member's resolved packet with its context as the member named it (R404). -/
def asNamed (n : Option Naming) (p : Packet) : Packet :=
  match n with
  | some n => withCtx n.lctx { p with hdr := { p.hdr with phase := n.phase } }
  | none => p

/-! ### Crossings that reset or break (R172, R178) -/

/-- A position's squares join the context's norm period once its emission begins (R63, R76). -/
def mergeDots (p : Position) (r : Rctx) : Rctx :=
  { r with dots := p.dots.foldl (fun t d => tabPut t d.1 ((tabGet t d.1 (Tally.zero 640)).fold d.2)) r.dots }

/-- A packet of a chunk's emission has left, or was discarded where its crossing is down (R66, R76, log entry 20). -/
def emissionLeft (ctx q : Nat) (s : State) : State :=
  modRctx ctx (fun r =>
    match tabGet? r.positions q with
    | none => r
    | some p =>
      if p.emitLeft = 0 then r
      else
        let r := if p.emitBegun then r else mergeDots p r
        let st := if p.emitLeft = 1 then PosState.emitted else p.state
        let p' := { p with emitLeft := p.emitLeft - 1, emitBegun := true, dots := [], state := st }
        { r with positions := tabPut r.positions q p' }) s

/-- As `emissionLeft`, n times. -/
def emissionsLeft (e : Option EmitTag) (n : Nat) (s : State) : State :=
  match e.bind (fun t => t.pos.map (fun q => (t.rctx, q))) with
  | some (c, q) => (List.range n).foldl (fun s _ => emissionLeft c q s) s
  | none => s

/-- Copies and held packets of a crossing discarded, with WRITE_DONE TIMEOUT for each copy that asks for it. A copy
never sent counts as left for its chunk's emission (log entry 20). -/
def discardXing (x : Crossing) (s : State) : State :=
  let copies := (x.lanes.map (fun l => l.copies)).flatten
  let s := copies.foldl (fun s c => emissionsLeft c.emit 1 (if wantsDone c.pkt then localWriteDone 0x000D c.pkt s else s)) s
  modXing x.landing x.peer x.peerLanding (fun y =>
    { y with lanes := y.lanes.map (fun l => { l with copies := [], held := [] }) }) s

/-- Whether a replica waits for a crossing (R174). -/
def waitsFor (x : Crossing) (q : Replica) : Bool :=
  match q.dest with
  | .crossing p pl _ => p == x.peer && pl == x.peerLanding
  | .hawser _ | .slip _ => false

/-- Replicas waiting for a broken crossing are refused or discarded (R178). -/
def refuseWaiting (x : Crossing) (s : State) : State :=
  let l := getLanding s x.landing
  let keep (rs : List Replica) : List Replica := rs.filter (fun r => !waitsFor x r)
  let s := modLanding x.landing (fun y =>
    { y with voq := (y.voq.map (fun q => { q with reps := keep q.reps })).filter (fun q => !q.reps.isEmpty),
             sources := (y.sources.map (fun q => { q with reps := keep q.reps })).filter (fun q => !q.reps.isEmpty) }) s
  let lost (originated : Bool) (emit : Option EmitTag) (named : Option Naming) (s : State) (r : Replica) : State :=
    if !waitsFor x r then s
    else if originated then emissionsLeft emit 1 (countLanding x.landing 8 s)
    else match localHawser s r.pkt.hdr.src with
      | some h => refuseMember x.landing h (asNamed named r.pkt) 0x0007 s
      | none => countLanding x.landing 8 s
  let s := l.sources.foldl (fun s q => q.reps.foldl (lost true q.emit none) s) s
  l.voq.foldl (fun s q => q.reps.foldl (lost q.originated q.emit q.named) s) s

/-- A crossing enters DOWN (R178). -/
def xingDown (x : Crossing) (lane : Nat) (s : State) : State :=
  if x.state = .down then s
  else
    let s := discardXing x s
    let s := modXing x.landing x.peer x.peerLanding (fun y => { y with state := .down, downLane := lane }) s
    let s := refuseWaiting x s
    let s := raiseEvent 0x0031 none (le 2 x.peer ++ le 1 x.landing ++ le 1 x.peerLanding ++ le 1 lane) s
    raiseFault 2 0 x.first (x.peer + 2 ^ 16 * x.landing + 2 ^ 24 * x.peerLanding + 2 ^ 32 * lane) 2 s

/-- A crossing resets to an incarnation (R172): sequence numbers 0, SYNCING, CROSSING_RESET raised with its cause. -/
def xingReset (x : Crossing) (inc : BitVec 2) (cause : Nat) (s : State) : State :=
  let s := discardXing x s
  let s := modXing x.landing x.peer x.peerLanding (fun y =>
    { y with state := .syncing, lanes := List.replicate 4 XLane.fresh }) s
  let s := putInc x.landing x.peer x.peerLanding inc s
  raiseEvent 0x0030 none (le 2 x.peer ++ le 1 x.landing ++ le 1 x.peerLanding ++ le 1 inc.toNat ++ le 1 cause) s

end Sys2Proof.Machine
end

