-- ==== Sys2Proof/Machine/Chunks.lean ====
section
/-!
DEFINITION. The geometry of chunks and positions (R50 to R53, R80, R90) and the contributor slots of a context (R49, R58).
-/
namespace Sys2Proof.Machine

/-! ### Geometry (R50 to R53, R80, R90) -/

/-- E of Table 03.3. -/
def RDesc.elems (d : RDesc) : Nat := 4096 * 2 ^ d.chunkSize / elemBytes d.fmt

/-- Contributor slots (R49). -/
def RDesc.slots (d : RDesc) : Nat := d.m + d.c + (if d.role = 4 then 1 else 0)

/-- Residues below t whose bit is set. -/
def residues (t set : Nat) : List Nat := (List.range t).filter set.testBit

/-- How many numbers below n have a residue in the set. -/
def ownBelow (t set n : Nat) : Nat := n / t * (residues t set).length + ((residues t set).filter (· < n % t)).length

/-- The number of rank i among those whose residue is in the set. -/
def ownNth (t set i : Nat) : Nat :=
  let r := residues t set
  i / r.length * t + r.getD (i % r.length) 0

/-- Trees and residues that give local chunk numbers of the optimizer (R53, R80). -/
def RDesc.rootTrees (d : RDesc) : Nat × Nat := if d.role = 4 then (d.ringSize, 2 ^ d.ringPos) else (d.t, d.treeSet)

/-- The role of this F384 for a chunk (R80, Table 03.2): 0 LEAF, 1 INTERIOR, 2 ROOT, 3 SOLE. -/
def chunkRole (d : RDesc) (chunk : Nat) : Nat :=
  if d.role = 4 then
    let root := chunk % d.ringSize
    if d.ringPos = root then 2 else if d.ringPos = (root + 1) % d.ringSize then 0 else 1
  else d.role

def isRootOf (d : RDesc) (chunk : Nat) : Bool := 2 ≤ chunkRole d chunk

/-- First chunk and number of chunks of an operation (R52). -/
def firstChunk (d : RDesc) (f : Nat) : Nat := f / d.elems
def chunkCount (d : RDesc) (k : Nat) : Nat := ceilDiv k d.elems

/-- Elements of a chunk of an operation: the last may be short (R52). -/
def chunkElems (d : RDesc) (o : Operation) (chunk : Nat) : Nat :=
  if chunk = firstChunk d o.f + chunkCount d o.k - 1 then o.k - (chunkCount d o.k - 1) * d.elems else d.elems

/-- Whether a chunk belongs to an operation and to a residue of TREE_SET. -/
def chunkIn (d : RDesc) (o : Operation) (chunk : Nat) : Bool :=
  firstChunk d o.f ≤ chunk && chunk < firstChunk d o.f + chunkCount d o.k && d.treeSet.testBit (chunk % d.t)

/-- The position of a chunk of an operation (R53). -/
def positionOf (d : RDesc) (o : Operation) (chunk : Nat) : Nat :=
  o.start + (ownBelow d.t d.treeSet chunk - ownBelow d.t d.treeSet (firstChunk d o.f))

/-- The chunk at a position of an operation. -/
def chunkAt (d : RDesc) (o : Operation) (q : Nat) : Nat :=
  ownNth d.t d.treeSet (ownBelow d.t d.treeSet (firstChunk d o.f) + (q - o.start))

/-- Chunk positions an operation takes. -/
def positionsOf (d : RDesc) (f k : Nat) : Nat :=
  ownBelow d.t d.treeSet (firstChunk d f + chunkCount d k) - ownBelow d.t d.treeSet (firstChunk d f)

/-- A chunk's local number among those this F384 is root for (R53, R80). -/
def localChunk (d : RDesc) (f chunk : Nat) : Nat :=
  ownBelow d.rootTrees.1 d.rootTrees.2 chunk - ownBelow d.rootTrees.1 d.rootTrees.2 (firstChunk d f)

/-- The chunk of a local number. -/
def chunkOfLocal (d : RDesc) (f j : Nat) : Nat :=
  ownNth d.rootTrees.1 d.rootTrees.2 (ownBelow d.rootTrees.1 d.rootTrees.2 (firstChunk d f) + j)

/-- Elements of an operation in chunks this F384 is root for (R88). -/
def localElems (d : RDesc) (f k : Nat) : Nat :=
  let first := firstChunk d f
  let n := chunkCount d k
  let own := ownBelow d.rootTrees.1 d.rootTrees.2 (first + n) - ownBelow d.rootTrees.1 d.rootTrees.2 first
  let last := d.rootTrees.2.testBit ((first + n - 1) % d.rootTrees.1)
  if last then (own - 1) * d.elems + (k - (n - 1) * d.elems) else own * d.elems

/-- Element packets of n elements and the units of packet i (R50, R52). -/
def dataPackets (bytes : Nat) : Nat := ceilDiv bytes 4096
def packetLen (bytes i : Nat) : Nat := ceilDiv (min 4096 (bytes - 4096 * i)) 64

/-- Rows a chunk of n elements touches: the first and how many (R51). -/
def rowsOf (d : RDesc) (chunk n : Nat) : Nat × Nat :=
  let first := chunk * d.elems / 2 ^ d.rowLog2
  (first, (chunk * d.elems + n - 1) / 2 ^ d.rowLog2 - first + 1)

/-! ### Slots (R49) -/

/-- Slots that contribute to a chunk and are enabled. -/
def expectedSlots (r : Rctx) (chunk : Nat) : List Nat :=
  (List.range r.d.slots).filter (fun i => r.enabled.testBit i && !(r.d.role == 4 && i == r.d.m && chunkRole r.d chunk == 0))

def slotEnabled (r : Rctx) (slot : Nat) : Bool := slot < r.d.slots && r.enabled.testBit slot

def slotOfRank (d : RDesc) (rank : Nat) : Option Nat := d.members.findIdx? (· == rank)

def slotOfPeer (d : RDesc) (addr ctx : Nat) : Option Nat :=
  if d.role = 4 then (if addr = d.ringPrev && ctx = d.ringPrevCtx then some d.m else none)
  else (d.children.findIdx? (· == (addr, ctx))).map (· + d.m)

/-- The peer of a slot: fabric address and context there. -/
def slotPeer (d : RDesc) (slot : Nat) : Nat × Nat :=
  if d.role = 4 then (d.ringPrev, d.ringPrevCtx) else d.children.getD (slot - d.m) (0xFFFF, 0)

/-- The parent of a chunk: PARENTS entry c mod T, or the downstream position (R68, R80). -/
def parentOf (d : RDesc) (chunk : Nat) : Nat × Nat :=
  if d.role = 4 then (d.ringNext, d.ringNextCtx) else d.parents.getD (chunk % d.t) (0xFFFF, 0)

/-- The rank of a member slot. -/
def slotRank (d : RDesc) (slot : Nat) : Nat := d.members.getD slot 0xFFFF

/-- Present slots of a position, in slot order. -/
def presentSlots (p : Position) : List Nat := (p.contribs.filter (fun c => c.2.present)).map Prod.fst
def foldedSlots (p : Position) : List Nat := (p.contribs.filter (fun c => c.2.folded)).map Prod.fst
def unfoldedSlots (p : Position) : List Nat := (p.contribs.filter (fun c => c.2.present && !c.2.folded)).map Prod.fst

/-- Expected slots of a position without a present contribution. -/
def missingSlots (r : Rctx) (p : Position) : List Nat := (expectedSlots r p.chunk).filter (fun i => !(presentSlots p).contains i)

end Sys2Proof.Machine
end

