-- ==== Sys2Proof/Machine/Due.lean ====
section
/-!
DEFINITION. What is due in a tide tick before its commands take effect: the packets that have arrived, then the timers (R75, R310).
-/
namespace Sys2Proof.Machine

/-! ### Arrivals -/

/-- Whether a packet that has arrived waits in a landing that works: packets come before timers (R75). -/
def arrivalsDue (s : State) : Bool := s.clk.datapath == .locked && s.lands.any (fun l => !l.2.power.idle && !l.2.rx.isEmpty)

/-! ### Timers -/

/-- Whether a lag timer of so many microseconds has run out (R74). -/
def lagDue (s : State) (p : Position) (us : Nat) : Bool := tideReached (p.openTide + BitVec.ofNat 64 (1000 * us)) (now s)

/-- Whether a position's soft lag timer fires (R74). -/
def softLagDue (s : State) (r : Rctx) (p : Position) : Bool :=
  r.state != .stopped && p.state == .opened && !p.softFired && !(missingSlots r p).isEmpty && lagDue s p r.d.softLag

/-- Whether a position's hard lag timer fires (R74). -/
def hardLagDue (s : State) (r : Rctx) (p : Position) : Bool :=
  r.state != .stopped && p.state == .opened && !(missingSlots r p).isEmpty && lagDue s p r.d.hardLag

/-- Whether a source copy's retransmission time has come (R177); the landing that holds it must be awake to send. -/
def copyDue (s : State) (x : Crossing) (c : Copy) : Bool :=
  x.state == .opened && landingAwake s x.landing && decide (x.rto * 2 ^ min c.retries 3 ≤ tideSince c.sentAt (now s))

/-- Whether a lane's XACK timer has run out (R175). -/
def xackDue (s : State) (x : Crossing) (l : XLane) : Bool :=
  x.state == .opened && landingAwake s x.landing && (l.ackFrom.map (fun t => decide (500 ≤ tideSince t (now s)))).getD false

/-- Whether a job is launched now (R145). -/
def launchDue (s : State) (j : Job) : Bool := j.launch == .pending && tideReached j.l (now s)

/-- Whether the routing banks switch now (R198). -/
def switchDue (s : State) : Bool := (s.net.switchAt.map (fun t => tideReached t (now s))).getD false

def PeerState.fresh : PeerState := { normStep := 0, norms := [], ready := none, committed := none, keptNorms := [] }
def getPeer (o : Octx) (i : Nat) : PeerState := tabGet o.peers i PeerState.fresh

/-- The first 48 bytes of a configuration digest. -/
def cfg48 (o : Octx) : List Byte := fit 48 o.d.digest

/-- Whether a peer's beacon agrees for step t: READY or COMMITTED with the same digest, and its norms. -/
def peerAgrees (o : Octx) (t i : Nat) : Bool :=
  let p := getPeer o i
  (p.ready == some (t, cfg48 o) || p.committed == some (t, cfg48 o)) && tabHas p.keptNorms t

/-- Whether a commit's beacon timer ends it (R112). -/
def beaconDue (s : State) (o : Octx) : Bool :=
  o.state == .committing && tideReached o.deadline (now s) &&
    (!o.sealedStep || (List.range o.d.peers.length).any (fun i => !peerAgrees o (o.s + 1) i))

/-- Whether some timer that a command may not overtake is due: lag, retransmission, XACK, beacon, launch and bank switch (log entry
2). -/
def timersDue (s : State) : Bool :=
  s.rctxs.any (fun r => r.2.positions.any (fun p => softLagDue s r.2 p.2 || hardLagDue s r.2 p.2)) ||
    s.xings.any (fun x => x.lanes.any (fun l => xackDue s x l || l.copies.any (copyDue s x))) ||
    s.octxs.any (fun o => beaconDue s o.2) || s.jobs.any (fun j => launchDue s j.2) || switchDue s

/-- The packets and timers of the tick have been handled, so that commands may take effect (R310). -/
def tickHandled (s : State) : Bool := !arrivalsDue s && !timersDue s

end Sys2Proof.Machine
end

