-- ==== Sys2Proof/Machine/Coding.lean ====
section
/-!
DEFINITION. The line code of a slip (R253 to R263) and the checks of frames and training fields (R234, Table 10.4): Gray
mapping, precoding, scrambling, RS(544,514), alignment markers, CRC-32, CRC-16 and the test patterns.
-/
namespace Sys2Proof.Machine

/-! ### Bits and CRCs -/

/-- `n` bits of a value, bit 0 first. -/
def bitsLow (n v : Nat) : List Bool := (List.range n).map v.testBit

/-- The bits of a byte string, each byte bit 0 first. -/
def bytesToBits (bs : List Byte) : List Bool := (bs.map (fun b => bitsLow 8 b.toNat)).flatten

/-- The value of bits, first bit lowest. -/
def bitsToNat : List Bool → Nat
  | [] => 0
  | b :: bs => b2n b + 2 * bitsToNat bs

/-- Bytes of a bit list, each byte bit 0 first. -/
def bitsToBytes (bs : List Bool) : List Byte :=
  (chunksOf (bs.length / 8 + 1) 8 bs).map (fun l => BitVec.ofNat 8 (bitsToNat l))

/-- One bit of the reflected CRC-32 of R234. -/
def crc32Bit (c : Nat) : Nat := if c % 2 = 1 then c / 2 ^^^ 0xEDB88320 else c / 2

/-- CRC-32 of R234. -/
def crc32 (bs : List Byte) : Nat :=
  (bs.foldl (fun c b => (List.range 8).foldl (fun c _ => crc32Bit c) (c ^^^ b.toNat)) 0xFFFFFFFF) ^^^ 0xFFFFFFFF

/-- One bit of the CRC-16 of Table 10.4. -/
def crc16Bit (c : Nat) : Nat := if c.testBit 15 then (2 * c ^^^ 0x11021) % 65536 else 2 * c

/-- CRC-16 of Table 10.4. -/
def crc16 (bs : List Byte) : Nat :=
  bs.foldl (fun c b => (List.range 8).foldl (fun c _ => crc16Bit c) (c ^^^ b.toNat * 256)) 0xFFFF

/-! ### Symbols (R253, R254) -/

/-- The Gray mapping of Table 10.1: level to the bits b1, b0. -/
def levelBits (l : Nat) : List Bool :=
  match l % 4 with
  | 0 => [false, false]
  | 1 => [false, true]
  | 2 => [true, true]
  | _ => [true, false]

/-- Bits b1, b0 to a level. -/
def bitsLevel (b1 b0 : Bool) : Nat := if b1 then (if b0 then 2 else 3) else (if b0 then 1 else 0)

/-- Levels of a bit stream taken two at a time. -/
def grayMap : List Bool → List Nat
  | b1 :: b0 :: bs => bitsLevel b1 b0 :: grayMap bs
  | _ => []

/-- Recovery of precoded levels (R254): the levels and the last one received. -/
def deprecode : Nat → List Nat → List Nat × Nat
  | p, [] => ([], p)
  | p, x :: xs =>
    let r := deprecode x xs
    ((x + p) % 4 :: r.1, r.2)

/-- Precoding (R254): the levels sent and the last one. -/
def precode : Nat → List Nat → List Nat × Nat
  | p, [] => ([], p)
  | p, g :: gs =>
    let q := (g + 4 - p % 4) % 4
    let r := precode q gs
    (q :: r.1, r.2)

/-! ### Scrambling (R256) -/

/-- One bit of the PRBS31 generator x^31 + x^28 + 1; bit i of the register is the output i + 1 bits ago (log entry 13). -/
def prbs31Step (r : BitVec 31) : Bool × BitVec 31 :=
  let b := xor (r.getLsbD 30) (r.getLsbD 27)
  (b, BitVec.ofNat 31 (2 * r.toNat + b2n b))

/-- Bits exclusive-ored with the generator, and the register after. -/
def scramble : BitVec 31 → List Bool → List Bool × BitVec 31
  | r, [] => ([], r)
  | r, x :: xs =>
    let o := prbs31Step r
    let t := scramble o.2 xs
    (xor x o.1 :: t.1, t.2)

/-! ### RS(544,514) over GF(2^10) (R257) -/

/-- Multiplication by alpha modulo x^10 + x^3 + 1. -/
def gfDouble (a : Nat) : Nat := if a.testBit 9 then 2 * a ^^^ 0x409 else 2 * a

/-- Product in GF(2^10), over the bits of `b` from the top. -/
def gfMul (a b : Nat) : Nat :=
  (List.range 10).foldl (fun acc i => let d := gfDouble acc; if b.testBit (9 - i) then d ^^^ a else d) 0

/-- alpha^i. -/
def gfPow (i : Nat) : Nat := (List.range (i % 1023)).foldl (fun a _ => gfDouble a) 1

/-- a^n. -/
def gfExp (a : Nat) : Nat → Nat
  | 0 => 1
  | n + 1 => gfMul a (gfExp a n)

/-- Inverse: a^1022, by squaring: 1022 = 2 + 4 + ... + 512. -/
def gfInv (a : Nat) : Nat :=
  ((List.range 9).foldl (fun st _ => let sq := gfMul st.1 st.1; (sq, gfMul st.2 sq)) (a, 1)).2

/-- A polynomial, lowest coefficient first, at a point. -/
def gfEval (p : List Nat) (x : Nat) : Nat := p.foldr (fun c acc => c ^^^ gfMul acc x) 0

/-- Sum of polynomials. -/
def gfAdd : List Nat → List Nat → List Nat
  | [], q => q
  | p, [] => p
  | a :: p, b :: q => (a ^^^ b) :: gfAdd p q

/-- Product of polynomials. -/
def gfPolyMul (p q : List Nat) : List Nat :=
  p.foldr (fun c acc => gfAdd (q.map (gfMul c)) (0 :: acc)) []

/-- The 30 syndromes of a word whose symbol 0 is the coefficient of x^543. -/
def syndromes (word : List Nat) : List Nat :=
  (List.range 30).map (fun j => let x := gfPow j; word.foldl (fun acc c => gfMul acc x ^^^ c) 0)

/-- State of the Berlekamp-Massey iteration. -/
structure LocatorState where
  c : List Nat
  b : List Nat
  len : Nat
  m : Nat
  bd : Nat

/-- Error locator by Berlekamp-Massey. -/
def locator (syn : List Nat) : List Nat × Nat :=
  let st := (List.range 30).foldl (fun st n =>
    let d := (List.range (st.len + 1)).foldl (fun a i => a ^^^ gfMul (st.c.getD i 0) (syn.getD (n - i) 0)) 0
    if d = 0 then { st with m := st.m + 1 }
    else
      let shifted := List.replicate st.m 0 ++ st.b.map (gfMul (gfMul d (gfInv st.bd)))
      let c' := gfAdd st.c shifted
      if 2 * st.len ≤ n then { c := c', b := st.c, len := n + 1 - st.len, m := 1, bd := d }
      else { st with c := c', m := st.m + 1 }) (LocatorState.mk [1] [1] 0 1 1)
  (st.c, st.len)

/-- The formal derivative. -/
def gfDeriv (p : List Nat) : List Nat :=
  ((List.range (p.length - 1)).map (fun i => if i % 2 = 0 then p.getD (i + 1) 0 else 0))

/-- Decoding of a received word of 544 symbols: the corrected word and the corrected positions; none where more than 15
symbols would have to be corrected (R257). -/
def rsDecode (word : List Nat) : Option (List Nat × List Nat) :=
  let syn := syndromes word
  if syn.all (· == 0) then some (word, [])
  else
    let loc := locator syn
    let positions := (List.range 544).filter (fun k => gfEval loc.1 (gfInv (gfPow (543 - k))) == 0)
    if 15 < loc.2 || positions.length != loc.2 then none
    else
      let omega := (gfPolyMul syn loc.1).take 30
      let fixed := positions.foldl (fun (w : List Nat) k =>
        let xi := gfPow (543 - k)
        let inv := gfInv xi
        let e := gfMul xi (gfMul (gfEval omega inv) (gfInv (gfEval (gfDeriv loc.1) inv)))
        w.set k (w.getD k 0 ^^^ e)) word
      if (syndromes fixed).all (· == 0) then some (fixed, positions) else none

/-- The generator polynomial, lowest coefficient first. -/
def rsGenerator : List Nat := (List.range 30).foldl (fun g j => gfPolyMul [gfPow j, 1] g) [1]

/-- The 30 parity symbols of a message of 514 symbols, in transmission order. -/
def rsParity (msg : List Nat) : List Nat :=
  let g := rsGenerator
  let rem := msg.foldl (fun (r : List Nat) c =>
    let f := c ^^^ r.getD 29 0
    gfAdd ((0 :: r).take 30) ((g.take 30).map (gfMul f))) (List.replicate 30 0)
  rem.reverse

/-! ### Codewords (R255, R258) -/

/-- Ten bits of a symbol, most significant first (R258). -/
def symbolBits (m : Nat) : List Bool := (List.range 10).map (fun i => m.testBit (9 - i))

/-- The symbols carried by a lane's levels, after precoding is removed. -/
def laneSymbols (levels : List Nat) : List Nat :=
  (chunksOf 272 5 levels).map (fun ls => bitsToNat ((ls.map levelBits).flatten.reverse))

/-- Symbols of both lanes interleaved: symbol k travels on lane k mod 2. -/
def interleave : List Nat → List Nat → List Nat
  | a :: as, b :: bs => a :: b :: interleave as bs
  | _, _ => []

/-- The message bits of a corrected word: bit i of symbol k is s_(10k + i). -/
def messageBits (word : List Nat) : List Bool := ((word.take 514).map (bitsLow 10)).flatten

/-- A codeword's symbols for a control field and a frame, with the scrambler's next state. -/
def encodeCodeword (prbs : BitVec 31) (cb : Nat) (frame : List Byte) : List Nat × BitVec 31 :=
  let s := scramble prbs (bitsLow 20 cb ++ bytesToBits frame)
  let msg := (chunksOf 514 10 s.1).map bitsToNat
  (msg ++ rsParity msg, s.2)

/-- Symbols at even places of a codeword: those of the lower lane (R258). -/
def evenPlaces : List Nat → List Nat
  | a :: _ :: t => a :: evenPlaces t
  | [a] => [a]
  | [] => []

/-- The levels of one lane of a codeword, before precoding. -/
def laneLevels (symbols : List Nat) : List Nat := grayMap ((symbols.map symbolBits).flatten)

/-! ### Alignment markers (R259, R261) -/

/-- PATTERN of Table 10.3 for a lane position. -/
def markerPattern (pos : Nat) : Nat := if pos = 0 then 0x9A4E57C3B18D else 0x3C17E8A265D9

/-- The 64 levels of a marker on a lane position. -/
def markerLevels (pos count : Nat) : List Nat :=
  (bitsLow 64 (markerPattern pos + 2 ^ 48 * (count % 256) + 2 ^ 56 * (255 - count % 256))).map (fun b => if b then 3 else 0)

/-- Number of differing bits. -/
def bitDistance (n a b : Nat) : Nat := ((List.range n).filter (fun i => a.testBit i != b.testBit i)).length

/-- The lane position whose pattern 48 received bits carry, and whether complemented (R261). -/
def readPattern (v : Nat) : Option (Nat × Bool) :=
  [(0, false), (0, true), (1, false), (1, true)].find? (fun t =>
    decide (bitDistance 48 (if t.2 then 2 ^ 48 - 1 - v % 2 ^ 48 else v) (markerPattern t.1) ≤ 3))

/-- A marker as received on one physical lane: the lane position whose pattern it carries, whether complemented, and
AM_COUNT; none if it is not valid (R261). A level of 2 or 3 reads as bit 1. -/
def readMarker (levels : List Nat) : Option (Nat × Bool × Nat) :=
  let v := bitsToNat (levels.map (fun l => decide (2 ≤ l)))
  let tries := [(0, false), (0, true), (1, false), (1, true)]
  if levels.length != 64 then none
  else
    (tries.find? (fun t =>
      let w := if t.2 then 2 ^ 64 - 1 - v % 2 ^ 64 else v
      bitDistance 48 w (markerPattern t.1) ≤ 3 && bits w 63 56 == 255 - bits w 55 48)).map (fun t =>
      let w := if t.2 then 2 ^ 64 - 1 - v % 2 ^ 64 else v
      (t.1, t.2, bits w 55 48))

/-! ### Test patterns (R269, R270) -/

/-- One bit of the PRBS13 generator of PRBS13Q, x^13 + x^12 + x^2 + x + 1 (PRESUMED from IEEE 802.3, log entry 13). -/
def prbs13Step (r : BitVec 31) : Bool × BitVec 31 :=
  let b := xor (xor (r.getLsbD 12) (r.getLsbD 11)) (xor (r.getLsbD 1) (r.getLsbD 0))
  (b, BitVec.ofNat 31 ((2 * r.toNat + b2n b) % 2 ^ 13))

/-- The next PAM4 level of a pattern: 0 PRBS13Q, else PRBS31Q. -/
def patternLevel (pattern : Nat) (r : BitVec 31) : Nat × BitVec 31 :=
  let a := if pattern = 0 then prbs13Step r else prbs31Step r
  let b := if pattern = 0 then prbs13Step a.2 else prbs31Step a.2
  (bitsLevel a.1 b.1, b.2)

/-- Mismatches of received levels against the pattern, and the generator after them. -/
def patternErrors (pattern : Nat) : BitVec 31 → List Nat → Nat × BitVec 31
  | r, [] => (0, r)
  | r, l :: ls =>
    let e := patternLevel pattern r
    let t := patternErrors pattern e.2 ls
    (t.1 + (if e.1 = l then 0 else 1), t.2)

end Sys2Proof.Machine
end

