-- ==== Sys2Proof/Machine/Links.lean ====
section
/-!
DEFINITION. Shared operations of slips: credits and allocations (R212, R239), frames (R233 to R238), changes of slip state
(R244, R245, Table 09.3), bring-up (R265, R382), the neighbour exchange (R246 to R250), and stopped contexts (R74, R82).
-/
namespace Sys2Proof.Machine

/-! ### Allocations and credits -/

/-- Default LIMIT of a class on a slip (Table 08.2); class 0 has its fixed 32 units (Table 08.1). -/
def defaultLimit (cls : Nat) : Nat :=
  match cls with
  | 0 => 32
  | 2 => 2048
  | 3 => 1024
  | _ => 256

/-- LIMIT of a slip and class, from its landing. -/
def slipLimit (s : State) (slip cls : Nat) : Nat :=
  if cls = 0 then 32 else tabGet (getLanding s (slip / 48)).buf.limits (slip % 48 * 8 + cls) (defaultLimit cls)

/-- ORIGIN of a landing and class (Table 08.1); class 0 has 512 units. -/
def originLimit (b : Buffers) (cls : Nat) : Nat := if cls = 0 then 512 else tabGet b.origin cls 1536

/-- Units charged to a slip's class (R212): handed up, queued, or waiting in hawser order. -/
def chargedUnits (s : State) (slip cls : Nat) : Nat :=
  let fit (p : Packet) : Nat := if p.hdr.cls = cls then pktUnits p else 0
  let rx := ((s.lands.map (fun l => (l.2.rx.map (fun a => if a.slip = slip then fit a.pkt else 0)).sum))).sum
  let vo := (s.lands.map (fun l => (l.2.voq.map (fun q => if q.chargedSlip == some slip then fit q.pkt else 0)).sum)).sum
  let wt := (s.hawsers.map (fun h => (h.2.waiting.map (fun w => if w.2.1 = slip then fit w.2.2 else 0)).sum)).sum
  rx + vo + wt

/-- Free units of a slip's class. -/
def freeUnits (s : State) (slip cls : Nat) : Nat := slipLimit s slip cls - chargedUnits s slip cls

/-- LIMIT_c as the receiver advertises it (R239): received plus free, never backwards; 0 outside IN_SERVICE. -/
def creditLimit (s : State) (slip cls : Nat) : Seq :=
  let p := getSlip s slip
  let old := tabGet p.lrx.limit cls 0
  let target : Seq := BitVec.ofNat 24 (tabGet p.lrx.received cls 0 + freeUnits s slip cls)
  if p.state != .inService then 0 else if seqBefore old target then target else old

/-- Every LIMIT_c of a slip brought up to date. -/
def refreshCredits (slip : Nat) (s : State) : State :=
  (List.range 8).foldl (fun s c =>
    let v := creditLimit s slip c
    modSlip slip (fun p => { p with lrx := { p.lrx with limit := tabPut p.lrx.limit c v } }) s) s

/-- On entry to IN_SERVICE every LIMIT_c becomes the free units of the class (R239): the units received, CONSUMED_c and the limits
taken from the neighbour count from here (DEDUCED, log entry 47). -/
def openCredits (slip : Nat) (s : State) : State :=
  refreshCredits slip (modSlip slip (fun p => { p with lrx := { p.lrx with limit := [], received := [] },
                                                       ltx := { p.ltx with consumed := [], limit := [] } }) s)

/-- Whether the sender's credits cover u units of a class (R239). -/
def creditCovers (p : Slip) (cls u : Nat) : Bool :=
  let d := (tabGet p.ltx.limit cls 0 - tabGet p.ltx.consumed cls 0).toNat
  decide (u ≤ d) && decide (d < 2 ^ 23)

/-! ### Frames (R233, R236, R238) -/

/-- The unit map bits of a frame's units. -/
def unitMapNat (m : List Nat) : Nat := m.foldr (fun u acc => u % 4 + 4 * acc) 0

/-- The 640 bytes of a frame, with the trailer's ACK, NAK and CREDIT current (R238). -/
def frameBytes (s : State) (slip ftype : Nat) (fseq : FSeq) (unitMap : List Nat) (units : List (List Byte))
    (hseqs : List Seq) : List Byte :=
  let p := getSlip s slip
  let ack := match p.lrx.ack with
    | some a => a.toNat
    | none => 0xFFF
  let body := fit 576 (units.map (fit 64)).flatten
  let trailer := le 2 (fseq.toNat + 4096 * ftype) ++ le 2 (ack + 4096 * b2n p.lrx.nak) ++ le 3 (unitMapNat unitMap) ++
    fit 27 ((hseqs.map (fun h => le 3 h.toNat)).flatten) ++ ((List.range 8).map (fun c => le 3 (creditLimit s slip c).toNat)).flatten ++
    zeros 2
  body ++ trailer ++ le 4 (crc32 (body ++ trailer))

/-- The sender's lanes after a codeword, with a marker where AM_NEXT was set (R259, R260). -/
def LaneTx.after (t : LaneTx) (prbs : BitVec 31) (mem0 mem1 : Nat) (last spacious : Bool) : LaneTx :=
  let t := { t with powerRun := if t.powerReq = 0 then 0 else t.powerRun + 1 }
  if last then
    { t with cwn := 0, amCount := (t.amCount + 1) % 256, longSpacing := spacious, prbs := BitVec.allOnes 31, mem0 := 0, mem1 := 0 }
  else { t with cwn := t.cwn + 1, prbs := prbs, mem0 := mem0, mem1 := mem1 }

/-- A codeword as it goes out: control bits, the levels of both lane positions, whether a marker follows, and the sender after it. -/
structure LaneWord where
  cb : Nat
  lower : List Nat
  upper : List Nat
  last : Bool
  after : LaneTx

/-- The codeword of a frame: scrambled, encoded and precoded (R253 to R260). `locked`: the own receive direction is in FEC lock;
`spacious`: long spacing from the next marker on. -/
def LaneTx.word (t : LaneTx) (locked spacious : Bool) (frame : List Byte) : LaneWord :=
  let last := t.cwn + 1 == (if t.longSpacing then 16384 else 64)
  let cb := t.cwn + 2 ^ 14 * t.powerReq + 2 ^ 16 * b2n locked + 2 ^ 17 * b2n last
  let c := encodeCodeword t.prbs cb frame
  let g0 := laneLevels (evenPlaces c.1)
  let g1 := laneLevels (evenPlaces c.1.tail)
  let l0 := if t.precode0 then precode t.mem0 g0 else (g0, 0)
  let l1 := if t.precode1 then precode t.mem1 g1 else (g1, 0)
  { cb := cb, lower := l0.1, upper := l1.1, last := last, after := t.after c.2 l0.2 l1.2 last spacious }

/-- A frame on the lanes: its codeword, and the marker that follows it (R255, R260). -/
def sendCodeword (slip : Nat) (frame : List Byte) (s : State) : State :=
  let p := getSlip s slip
  let w := p.tx.word p.rx.fecLock (p.rx.fecLock && p.rx.sawLocked) frame
  let s := emit (.codeword slip w.cb w.lower w.upper) s
  let s := if w.last then emit (.marker slip p.tx.amCount) s else s
  modSlip slip (fun p => { p with tx := w.after }) s

/-- A frame sent, for the first time or again, with its trailer current. -/
def transmit (slip ftype : Nat) (fseq : FSeq) (unitMap : List Nat) (units : List (List Byte)) (hseqs : List Seq) (s : State) : State :=
  let s := refreshCredits slip s
  let b := frameBytes s slip ftype fseq unitMap units hseqs
  sendCodeword slip b (emit (.frame slip b) s)

/-- Codewords ask for a lane power state in POWER_REQ, 0 for none (R278). -/
def setPowerReq (slip st : Nat) (s : State) : State := modSlip slip (fun p => { p with tx := { p.tx with powerReq := st } }) s

/-- A DATA (0) or LINK (2) frame sent for the first time and kept for replay; its packets are those it carries a unit
of, with their HSEQ (R236, R238, R244). It is a reason to stay awake (R278). -/
def sendFrame (slip ftype : Nat) (unitMap : List Nat) (units : List (List Byte)) (hseqs : List Seq)
    (pkts : List SentPkt) (s : State) : State :=
  let p := getSlip s slip
  let f := p.ltx.nextFseq
  let s := transmit slip ftype f unitMap units hseqs (setPowerReq slip 0 s)
  let fr : HeldFrame := { fseq := f, ftype := ftype, unitMap := unitMap, units := units, hseqs := hseqs, pkts := pkts }
  modSlip slip (fun p =>
    { p with
      ltx := { p.ltx with nextFseq := f + 1, held := p.ltx.held ++ [fr],
                          ackChanged := if p.ltx.held.isEmpty then now s else p.ltx.ackChanged },
      lastWork := now s }) s

/-- A LINK frame carrying one link message of whole units (R235, R246). -/
def sendLink (slip : Nat) (units : List (List Byte)) (s : State) : State :=
  if (getSlip s slip).ltx.held.length < 256 then
    sendFrame slip 2 (1 :: List.replicate (units.length - 1) 2) units [] [] s
  else s

/-! ### Stopped contexts (R74, R82, R250) -/

/-- A reduction context enters STOPPED: CONTEXT_FAULT and TRANSPORT cause 1. DESIGN CHOICE: one that is STOPPED already raises neither
again (log entry 58). -/
def stopRctx (ctx slot chunk opNum origin cause : Nat) (s : State) : State :=
  match tabGet? s.rctxs ctx with
  | none => s
  | some r =>
    if r.state = .stopped then s
    else
      let s := modRctx ctx (fun r => { r with state := .stopped }) s
      let s := raiseEvent 0x0061 (some r.d.job)
        (le 2 ctx ++ le 2 slot ++ le 4 chunk ++ le 2 opNum ++ le 2 origin ++ le 1 cause) s
      raiseFault 2 1 ctx (chunk % 2 ^ 32 + 2 ^ 32 * cause) 2 s

/-- A stop whose cause names no slot, chunk or operation: these are free values (log entry 32). -/
def stopUnnamed (ctx origin cause : Nat) (s : State) : State :=
  let f := fresh 64 s
  let v := f.1.toNat
  stopRctx ctx (bits v 15 0) (bits v 47 16) (bits v 63 48) origin cause f.2

/-- RING_STOP to the next position of a ring (R82): ORD set, in the job's reduce class. -/
def sendRingStop (r : Rctx) (origin : Nat) (s : State) : State :=
  originatePeer (lowestLanding s) 0
    (mkPacket { ownHeader s (classesOf s r.d.job).reduce r.d.job r.d.ringNext with ord := true }
      (.ringStop r.d.ringNextCtx origin)) none s

/-- Peer addresses a context names as parent, child or ring position (R250). -/
def rctxPeers (d : RDesc) : List Nat :=
  d.children.map Prod.fst ++ d.parents.map Prod.fst ++ (if d.role = 4 then [d.ringNext, d.ringPrev] else [])

/-- Whether R250 refuses an address in a context of a job. -/
def refusedPeer (s : State) (replay : Bool) (addr : Nat) : Bool :=
  match s.net.neighbours.find? (fun n => n.2.fabricAddr == addr) with
  | some n => n.2.arev != 1 || (replay && n.2.fwMeasurement != s.sys.fwMeasurement)
  | none => replay

/-! ### Bring-up and slip states -/

/-- Whether a slip's lanes may run, for bring-up or for a test (R268, R275, R329, R375, R382). -/
def mayRun (s : State) (slip : Nat) : Bool :=
  let p := getSlip s slip
  p.enable && !p.engineDead && s.net.released && !unitLost s (.landing (slip / 48)) &&
    !unitLost s (.engine (slip / 8)) && !s.aon.tripped && s.sys.phase == .ready

/-- Whether a slip may bring its lanes up (R265, R269). -/
def canTrain (s : State) (slip : Nat) : Bool := mayRun s slip && (getSlip s slip).loopback == 0

/-- A change of a slip's lanes, with CHANGE_TIDE where STEP or POWER changes (Table 10.7). -/
def modLane (slip : Nat) (f : Slip → Slip) (s : State) : State :=
  modSlip slip (fun p =>
    let q := f p
    if q.step = p.step && q.power = p.power then q else { q with tele := { q.tele with changeTide := now s } }) s

/-- What a slip in data mode measures now: SNR and eye heights are free values (log entry 28). Taken at a read, and where data mode
ends or pauses (R271). -/
def measureSlip (slip : Nat) (s : State) : State :=
  let p := getSlip s slip
  if p.step = 10 && p.power ≤ 1 then
    let f := fresh 80 s
    let v := f.1.toNat
    modSlip slip (fun p => { p with tele := { p.tele with snr := [bits v 15 0, bits v 31 16],
                                                          eye := (List.range 6).map (fun i => bits v (39 + 8 * i) (32 + 8 * i)) } }) f.2
  else s

/-- The SerDes loop of an engine: started with its first slip that leaves OFF, stopped with the last that enters it (R317). -/
def serdesFor (k : Nat) (s : State) : State :=
  let used := (List.range 8).any (fun j => (getSlip s (8 * k + j)).power != 4)
  if used && !tabHas s.clk.serdes k then { s with clk := { s.clk with serdes := tabPut s.clk.serdes k .starting } }
  else if !used && tabHas s.clk.serdes k then { s with clk := { s.clk with serdes := tabDel s.clk.serdes k } }
  else s

/-- The lanes of a slip outside data mode: at bring-up step 1 where it may train, else stopped, in OFF while it is held or disabled. A
test keeps the polarity and lane order found (R270). The seeds of the training frames' PRBS13Q are free values (log entry 28). -/
def Slip.startLanes (p : Slip) (train run : Bool) (t : Tide) (seeds : BitVec 26) : Slip :=
  { p with step := if train then 1 else 0, power := if run then 0 else 4, waking := false, stepStart := t, precodeNow := p.precodeMode,
           rx := if p.loopback = 0 then LaneRx.reset
                 else { LaneRx.reset with inverted0 := p.rx.inverted0, inverted1 := p.rx.inverted1, reversed := p.rx.reversed },
           tx := if p.loopback = 0 then
                   { LaneTx.reset with taps := p.tx.taps, gen0 := BitVec.ofNat 31 (1 + seeds.toNat % 8191),
                                       gen1 := BitVec.ofNat 31 (1 + seeds.toNat / 8192 % 8191) }
                 else { LaneTx.reset with taps := p.tx.taps, gen0 := BitVec.allOnes 31, gen1 := BitVec.allOnes 31 },
           await0 := [], await1 := [], train0 := Training.reset, train1 := Training.reset }

/-- Bring-up starts at step 1 where it may, and stops otherwise (R265, R268, R269). -/
def restartBringup (slip : Nat) (s : State) : State :=
  let s := measureSlip slip s
  let f := fresh 26 s
  serdesFor (slip / 8) (modLane slip (fun p => p.startLanes (canTrain s slip) (mayRun s slip) (now s) f.1) f.2)

/-- A reason to wake an idle slip (R279): from NAP and SLEEP its sender begins again with a marker at short spacing. -/
def wakeSlip (slip : Nat) (s : State) : State :=
  let p := getSlip s slip
  let s := setPowerReq slip 0 (modSlip slip (fun p => { p with lastWork := now s }) s)
  if !(1 ≤ p.power && p.power ≤ 3) || p.waking then s
  else
    let s := modSlip slip (fun p => { p with waking := true, wakeStart := now s }) s
    if p.power = 1 then s
    else
      modSlip slip (fun p => { p with tx := { p.tx.after p.tx.prbs 0 0 true false with powerRun := 0 } }) (emit (.marker slip p.tx.amCount) s)

/-- SLIP_STATE (Table 12.16). -/
def slipEvent (slip : Nat) (old new : SlipState) (reason : Nat) (s : State) : State :=
  raiseEvent 0x0020 none
    (le 2 slip ++ le 2 (hawserOf s slip) ++ le 1 (slipCode old) ++ le 1 (slipCode new) ++ le 1 reason ++
      le 1 (slipsUp s (hawserOf s slip)).length) s

/-- A fault that a change raises: class, cause, UNIT, DETAIL and level (Table 14.3). -/
structure Raise where
  cls : Nat
  cause : Nat
  unit : Nat
  detail : Nat
  level : Nat
  deriving DecidableEq, Repr

/-- The order of R339: class, cause, UNIT. -/
def Raise.before (a b : Raise) : Bool :=
  a.cls < b.cls || (a.cls == b.cls && (a.cause < b.cause || (a.cause == b.cause && a.unit ≤ b.unit)))

/-- The faults of one tick, applied in the order of R339. -/
def raiseAll (fs : List Raise) (s : State) : State :=
  (sortBy Raise.before fs).foldl (fun s f => raiseFault f.cls f.cause f.unit f.detail f.level s) s

/-- The hawser's sequences return to 0 once no slip of it is in service, and the packets waiting in HSEQ order are discarded and counted
(R245, log entry 47); those of its failover were counted when they were moved there. -/
def emptyHawser (slip h : Nat) (s : State) : State :=
  let n := (getHawser s h).waiting.length
  let s := modHawser h (fun x => { x with txSeq := 0, rxSeq := 0, waiting := [], failover := [] }) s
  if n = 0 then s else countLink slip 7 n s

/-- Packets in unacknowledged frames move to the hawser's failover, or are discarded and counted (R244). Duplicates of
a packet that lies in several frames are taken once. -/
def failover (slip h : Nat) (s : State) : State :=
  let pkts := ((getSlip s slip).ltx.held.map (fun f => f.pkts)).flatten.foldl
    (fun (acc : List SentPkt) p => if acc.any (fun q => q.seq == p.seq) then acc else acc ++ [p]) []
  let s := if pkts.isEmpty then s else countLink slip 7 pkts.length s
  let s := modSlip slip (fun p => { p with ltx := { p.ltx with held := [] }, lrx := { p.lrx with partialUnits := [] } }) s
  if (slipsUp s h).isEmpty then s else modHawser h (fun x => { x with failover := x.failover ++ pkts }) s

/-- Tide messages waiting to be sent on a slip that leaves service are dropped (log entry 48). -/
def dropTide (slip : Nat) (s : State) : State :=
  let keep (rs : List Replica) : List Replica := rs.filter (fun r => r.dest != .slip slip)
  { s with lands := s.lands.map (fun l => (l.1,
      { l.2 with voq := (l.2.voq.map (fun q => { q with reps := keep q.reps })).filter (fun q => !q.reps.isEmpty),
                 sources := (l.2.sources.map (fun q => { q with reps := keep q.reps })).filter (fun q => !q.reps.isEmpty) })) }

/-- The faults that a slip's change of state raises, in a state in which it has been made (Table 14.3). -/
def slipFaults (slip : Nat) (old new : SlipState) (reason : Nat) (s : State) : List Raise :=
  let h := hawserOf s slip
  (if old = .inService then
    (if reason = 1 || reason = 7 then [⟨0, 0, slip, reason, 0⟩]
      else if reason = 2 || reason = 3 then [⟨1, 0, slip, reason, 0⟩] else []) ++
    (if (slipsUp s h).isEmpty then [⟨1, 2, h, 0, 1⟩] else [])
   else []) ++
  (if new = .quarantine then [⟨1, 1, slip, ((getSlip s slip).ex.held.map (fun i => i.serial)).getD 0, 1⟩] else [])

/-- A slip takes a new state: events and counts of Table 09.3, R244 and R245, without its faults. DOWN restarts bring-up. -/
def changeSlip (slip : Nat) (new : SlipState) (reason : Nat) (s : State) : State :=
  let old := (getSlip s slip).state
  let h := hawserOf s slip
  let s := modSlip slip (fun p => { p with state := new }) s
  let s := if old = .inService then failover slip h (dropTide slip (countLink slip 13 1 s)) else s
  let s := if old = new then s else slipEvent slip old new reason s
  let s := if old = .inService || old = .quarantine then { s with net := { s.net with serviceChanged := true } } else s
  let s := if old = .inService && (slipsUp s h).isEmpty then emptyHawser slip h s else s
  match new with
  | .down => restartBringup slip (modSlip slip (fun p => { p with ltx := LinkTx.reset, lrx := LinkRx.reset }) s)
  | .identify =>
    modLane slip (fun p => { p with step := 10, power := 0, ltx := LinkTx.reset, lrx := LinkRx.reset,
                                    ex := { Exchange.reset with since := now s } }) s
  | .inService => openCredits slip { s with net := { s.net with serviceChanged := true } }
  | .quarantine => countLink slip 12 1 { s with net := { s.net with serviceChanged := true } }

/-- A slip takes a new state, and the faults that this raises are applied. -/
def moveSlip (slip : Nat) (new : SlipState) (reason : Nat) (s : State) : State :=
  let old := (getSlip s slip).state
  let s := changeSlip slip new reason s
  raiseAll (slipFaults slip old new reason s) s

/-- Slips that take a new state in one tick, with the other faults of the tick (R339). -/
def moveSlips (slips : List Nat) (new : SlipState) (reason : Nat) (others : List Raise) (s : State) : State :=
  let r := slips.foldl (fun (a : State × List Raise) n =>
    let s := changeSlip n new reason a.1
    (s, a.2 ++ slipFaults n (getSlip a.1 n).state new reason s)) (s, others)
  raiseAll r.2 r.1

/-! ### The neighbour exchange -/

/-- The lowest in-service slip of every hawser whose accepted neighbour is an F384. -/
def peerSlips (s : State) : List Nat :=
  ((List.range 384).filter (fun h => hawserOf s h == h)).filterMap (fun h =>
    match slipsUp s h with
    | n :: _ => if ((getSlip s n).ex.accepted.map (fun i => i.role)) = some 0 then some n else none
    | [] => none)

/-- Slips of a slip's hawser in service, not counting it. -/
def widthUp (s : State) (slip : Nat) : Nat := ((slipsUp s (hawserOf s slip)).filter (fun n => n != slip)).length

/-- The IDENT this F384 sends on a slip (Table 09.4). -/
def ownIdent (s : State) (slip : Nat) : Ident :=
  { role := 0, protoMax := 2, protoMin := 1, arev := 1, widthUp := widthUp s slip, slip := slip, serial := serial64,
    hawser := hawserOf s slip, width := (getHawser s (hawserOf s slip)).slips.length, fabricAddr := ownAddr s,
    fwMeasurement := s.sys.fwMeasurement, rsvd := false }

/-- The 128 bytes of an IDENT. -/
def identBytes (m : Ident) : List Byte :=
  le 1 0x01 ++ le 1 m.role ++ le 1 m.protoMax ++ le 1 m.protoMin ++ le 1 m.arev ++ le 1 m.widthUp ++ le 2 m.slip ++
    le 8 m.serial ++ le 2 m.hawser ++ le 1 m.width ++ zeros 1 ++ le 2 m.fabricAddr ++ zeros 42 ++ fit 64 m.fwMeasurement

/-- An IDENT sent, with the width it reports. -/
def sendIdent (slip : Nat) (s : State) : State :=
  let m := ownIdent s slip
  let b := identBytes m
  modSlip slip (fun p => { p with ex := { p.ex with reported := some m.widthUp } }) (sendLink slip [b.take 64, b.drop 64] s)

def sendIdentAck (slip proto result : Nat) (s : State) : State :=
  sendLink slip [fit 64 (le 1 0x02 ++ le 1 proto ++ le 1 result)] s

/-- The link protocol version chosen, 0 if none (R249). -/
def chosenProto (m : Ident) : Nat := let v := min 2 m.protoMax; if v < max 1 m.protoMin then 0 else v

/-- RESULT for an IDENT on a slip (R247, R249), codes of Table 09.5; the lowest code where several apply (log entry 15). -/
def identResult (s : State) (slip : Nat) (m : Ident) : Nat :=
  let e := tabGet s.net.expected slip { any := true, checkSlip := false, role := 0, remoteSlip := 0, serial := 0 }
  let h := getHawser s (hawserOf s slip)
  if !(e.any || (m.role == e.role && m.serial == e.serial && (!e.checkSlip || m.slip == e.remoteSlip))) then 1
  else if chosenProto m = 0 then 2
  else if m.width != h.slips.length || h.slips.any (fun n => n != slip &&
      (((getSlip s n).ex.accepted.map (fun a => a.serial != m.serial || a.hawser != m.hawser)).getD false)) then 3
  else 0

/-- NEIGHBOUR_MISMATCH (Table 12.16). -/
def raiseMismatch (slip result : Nat) (s : State) : State :=
  let m := (getSlip s slip).ex.held
  let f (g : Ident → Nat) : Nat := (m.map g).getD 0
  raiseEvent 0x0021 none (le 2 slip ++ le 1 result ++ le 1 (f (fun i => i.role)) ++ le 2 (f (fun i => i.slip)) ++
    le 2 (f (fun i => i.hawser)) ++ le 8 (f (fun i => i.serial))) s

/-- The slip enters QUARANTINE. -/
def quarantine (slip result reason : Nat) (s : State) : State :=
  raiseMismatch slip result (moveSlip slip .quarantine reason s)

/-- The neighbour table takes an accepted IDENT of an F384 with a fabric address, and forgets the slip's entry at any other. -/
def noteNeighbour (slip : Nat) (m : Ident) (s : State) : State :=
  { s with net := { s.net with neighbours :=
      if m.role = 0 && m.fabricAddr != 0xFFFF then tabPut s.net.neighbours slip m else tabDel s.net.neighbours slip } }

/-- Contexts that R250 would now refuse for accepted neighbours stop. -/
def stopForNeighbours (ms : List Ident) (s : State) : State :=
  s.rctxs.foldl (fun s r =>
    let replay := ((tabGet? s.jobs r.2.d.job).map (fun j => j.replay)).getD false
    match ms.find? (fun m => m.role == 0 && m.fabricAddr != 0xFFFF && (rctxPeers r.2.d).contains m.fabricAddr &&
        (m.arev != 1 || (replay && m.fwMeasurement != s.sys.fwMeasurement))) with
    | some m => stopUnnamed r.1 m.fabricAddr 3 s
    | none => s) s

/-- An accepted neighbour: the table, and the contexts it stops. -/
def acceptNeighbour (slip : Nat) (m : Ident) (s : State) : State := stopForNeighbours [m] (noteNeighbour slip m s)

/-- Whether the widths that a slip's two ends last reported are both 0 or both not (R246). -/
def widthsAgree (p : Slip) (m : Ident) : Bool := (p.ex.reported.map (fun w => decide (m.widthUp = 0) == decide (w = 0))).getD false

/-- The slip enters IN_SERVICE once both ends have sent ACCEPT and the widths they reported agree (R246). -/
def tryService (slip : Nat) (s : State) : State :=
  let p := getSlip s slip
  match p.ex.accepted with
  | some m =>
    if (p.state == .identify || p.state == .quarantine) && p.ex.sentAck == some 0 && p.ex.gotAck == some 0 &&
        widthsAgree p m then
      moveSlip slip .inService (if p.state = .quarantine then 8 else 0) s
    else s
  | none => s

/-- The answer to an IDENT: its result is kept and sent (R246, R247). -/
def answerIdent (slip : Nat) (m : Ident) (s : State) : State :=
  let r := identResult s slip m
  let v := chosenProto m
  let s := modSlip slip (fun p => { p with ex := { p.ex with held := some m, lastResult := r, sentAck := some r,
                                                             accepted := if r = 0 then some m else none,
                                                             proto := v } }) s
  sendIdentAck slip v r s

/-- The check of an IDENT and its answer (R246 to R248). A slip that its neighbour's answer has put in QUARANTINE raises
NEIGHBOUR_MISMATCH at its own refusal. -/
def judgeIdent (slip : Nat) (m : Ident) (s : State) : State :=
  let r := identResult s slip m
  let old := (getSlip s slip).ex.lastResult
  let s := answerIdent slip m s
  if r = 0 then tryService slip (acceptNeighbour slip m s)
  else if (getSlip s slip).state = .identify then quarantine slip r 8 s
  else if r = old then s else raiseMismatch slip r s

/-- What a recheck has gathered so far: the state, faults to apply and neighbours accepted. -/
structure Recheck where
  state : State
  faults : List Raise
  accepted : List Ident

/-- One slip of a recheck (R248). -/
def recheckSlip (a : Recheck) (slip : Nat) : Recheck :=
  let p := getSlip a.state slip
  match p.state, p.ex.held with
  | .quarantine, some m =>
    if identResult a.state slip m != p.ex.lastResult && identResult a.state slip m = 0 then
      { a with state := tryService slip (noteNeighbour slip m (answerIdent slip m a.state)), accepted := a.accepted ++ [m] }
    else a
  | .inService, some m =>
    let r := identResult a.state slip m
    if r = 0 then a
    else
      let s := modSlip slip (fun p => { p with ex := { p.ex with lastResult := r, sentAck := some r } }) a.state
      let s := changeSlip slip .quarantine 8 s
      { a with state := raiseMismatch slip r s, faults := a.faults ++ slipFaults slip .inService .quarantine 8 s }
  | _, _ => a

/-- R248: quarantined slips are checked again, and slips in service that no longer match leave it. -/
def recheckNeighbours (s : State) : State :=
  let r := (List.range 384).foldl recheckSlip { state := s, faults := [], accepted := [] }
  stopForNeighbours r.accepted (raiseAll r.faults r.state)

end Sys2Proof.Machine
end

