-- ==== Sys2Proof/Machine/Commands.lean ====
section
/-!
DEFINITION. How a command runs: its admission, the order of its checks (R309), its completion over a ring (R290, R308, R312)
or the service port (R302), and the packet checks of R304 to R308.
-/
namespace Sys2Proof.Machine

/-! ### Command packets (Table 12.1) -/

/-- A command read from its 64 bytes (R304). -/
def parseCmd (b : List Byte) : Cmd :=
  { opcode := field b 0 2, tag := field b 2 2, flags := field b 4 1, job := field b 5 1, rsvd6 := field b 6 2, descLen := field b 8 4,
    resultLen := field b 12 4, descAddr := field b 16 8, resultAddr := field b 24 8, params := fit 32 (bytesAt b 32 32) }

/-- The 64 bytes of a command (R304). -/
def Cmd.bytes (c : Cmd) : List Byte :=
  le 2 c.opcode ++ le 2 c.tag ++ le 1 c.flags ++ le 1 c.job ++ le 2 c.rsvd6 ++ le 4 c.descLen ++ le 4 c.resultLen ++
    le 8 c.descAddr ++ le 8 c.resultAddr ++ fit 32 c.params

/-- FENCE of a command (R305). -/
def fenced (x : Exec) : Bool := bit x.cmd.flags 0

/-! ### Status codes (Table 12.3) -/

def stOk : Nat := 0x0
def stBadOpcode : Nat := 0x1
def stBadParam : Nat := 0x2
def stRange : Nat := 0x3
def stNoResource : Nat := 0x4
def stNoBerths : Nat := 0x5
def stBusy : Nat := 0x6
def stState : Nat := 0x7
def stFormat : Nat := 0x8
def stStep : Nat := 0x9
def stGone : Nat := 0xA
def stEpoch : Nat := 0xB
def stPartition : Nat := 0xC
def stTimeout : Nat := 0xD
def stDenied : Nat := 0xE
def stFaulted : Nat := 0xF

/-! ### Opcodes (Tables 12.4 to 12.14) -/

/-- The opcodes assigned in each group: 0 to n - 1. -/
def groupSize (g : Nat) : Nat :=
  match g with
  | 0x01 => 6
  | 0x02 => 7
  | 0x03 => 4
  | 0x04 => 5
  | 0x05 => 15
  | 0x06 => 4
  | 0x07 => 6
  | 0x08 => 5
  | 0x09 => 3
  | 0x0A => 5
  | 0x0B => 1
  | 0x0C => 4
  | _ => 0

def opcodeAssigned (op : Nat) : Bool := decide (op % 256 < groupSize (op / 256))

/-- Groups served over the service port (R301). -/
def groupOnService (op : Nat) : Bool := op / 256 == 0x01 || op / 256 == 0x0A || op / 256 == 0x0C

/-! ### What a command's table row says -/

/-- A check that failed: its status and result words. -/
structure Failed where
  status : Nat
  r0 : Nat
  r1 : Nat
  deriving DecidableEq, Repr

def fails (c : Bool) (status : Nat) : List Failed := if c then [⟨status, 0, 0⟩] else []
def failsWith (c : Bool) (status r0 r1 : Nat) : List Failed := if c then [⟨status, r0, r1⟩] else []

/-- A row of the group tables for one command and state: its opcode; whether it is job-scoped and whether its job must
exist; whether PARAMS keeps to the listed bits; the descriptor length its fields imply; whether it returns result data and
how many bytes; whether it is denied on this path; and its own checks that fail. -/
structure Row where
  opcode : Nat
  jobScoped : Bool
  jobExists : Bool
  paramsOk : Bool
  descLen : Nat
  returns : Bool
  need : Nat
  denied : Bool
  own : List Failed

/-- A row with no descriptor, no result and no check of its own. -/
def Row.plain (opcode : Nat) (paramsOk : Bool) : Row :=
  { opcode := opcode, jobScoped := false, jobExists := false, paramsOk := paramsOk, descLen := 0, returns := false, need := 0,
    denied := false, own := [] }

/-- A job-scoped row whose job must exist (R306). -/
def Row.job (opcode : Nat) (paramsOk : Bool) : Row := { Row.plain opcode paramsOk with jobScoped := true, jobExists := true }

/-- The order of R309 item 6. -/
def ownOrder : List Nat := [stRange, stBadParam, stEpoch, stState, stStep, stGone, stBusy, stNoResource, stNoBerths]

/-- The first failed check in the order of R309 item 6. -/
def firstFailed (fs : List Failed) : Option Failed :=
  (ownOrder.filterMap (fun st => fs.find? (fun f => f.status == st))).head?

/-- Whether the command came over the service port. -/
def overService (x : Exec) : Bool :=
  match x.src with
  | .service _ => true
  | .ring _ => false

/-- R309 item 3: the fields of the command packet itself. -/
def packetBad (x : Exec) (r : Row) : Bool :=
  let c := x.cmd
  2 ≤ c.flags || c.rsvd6 != 0 || !r.paramsOk || (!r.jobScoped && c.job != 0) || c.descLen != r.descLen ||
    2097536 < c.descLen || (!r.returns && (c.resultLen != 0 || c.resultAddr != 0)) ||
    (overService x && (c.descAddr != 0 || c.resultAddr != 0))

/-- R309 item 5: the result space is too small, or a service frame cannot carry the result (R308). -/
def spaceShort (x : Exec) (r : Row) : Bool := x.cmd.resultLen < r.need || (overService x && 1368 < r.need)

/-- Whether a command puts state into the landings, the interconnect, the optics or the HBM, which are off after a trip (Table 13.1,
R329). -/
def needsDomains (opcode : Nat) : Bool :=
  [0x0202, 0x0300, 0x0400, 0x0401, 0x0402, 0x0404, 0x0500, 0x0501, 0x0502, 0x0503, 0x0504, 0x0505, 0x0506, 0x0507, 0x050A, 0x050B,
   0x0600, 0x0700].contains opcode

/-- The verdict of R309 after BAD_OPCODE: none where every check passes. DESIGN CHOICE: after a trip, a command that puts state into
domains that are off ends FAULTED (log entry 31). -/
def verdict (s : State) (x : Exec) (r : Row) : Option Failed :=
  if r.denied || (overService x && !groupOnService r.opcode) then some ⟨stDenied, 0, 0⟩
  else if packetBad x r then some ⟨stBadParam, 0, 0⟩
  else if x.desc.isNone || (s.aon.tripped && needsDomains r.opcode) then some ⟨stFaulted, 0, 0⟩
  else if spaceShort x r then some ⟨stRange, r.need, 0⟩
  else firstFailed (fails (r.jobScoped && r.jobExists && !tabHas s.jobs x.cmd.job) stState ++ r.own)

/-! ### Completions (Table 12.2, R290, R302, R308) -/

def completionBytes (x : Exec) (core status bytes r0 r1 : Nat) : List Byte :=
  let qp := match x.src with
    | .ring q => q
    | .service _ => 0xFF
  le 2 x.cmd.tag ++ le 2 status ++ le 1 qp ++ le 1 core ++ le 2 x.cmd.opcode ++ le 4 bytes ++ zeros 4 ++ le 8 r0 ++ le 8 r1

/-- DMA_ERR of a queue pair: a read or write of host memory for it failed (R307, R308, Table 11.6). -/
def dmaError (q tag : Nat) (s : State) : State :=
  ringError q tag 3 (modQp q (fun p => { p with status := { p.status with dmaErr := true } }) (linkError s))

/-- A completion entry in a queue pair's ring, its write-back and its vector (R290). -/
def pushCompletion (q : Nat) (entry : List Byte) (s : State) : State :=
  let p := getQp s q
  let s := emit (.hostWrite (p.cqBase + (p.cqTail.toNat % 2 ^ p.ctrl.cqLog2) * 32) entry) s
  let u := noteEntry p.unsignalled p.firstUnsignalled (now s)
  qpWriteBack q (modQp q (fun p => { p with cqTail := p.cqTail + 1, unsignalled := u.1, firstUnsignalled := u.2 }) s)

/-- A kept completion of the service port (R302): the last 256. -/
def keepCompletion (mac tag : Nat) (answer : Option (List Byte)) (s : State) : State :=
  let others := s.svc.kept.filter (fun k => !(k.mac == mac && k.tag == tag))
  let ks := others ++ [{ mac := mac, tag := tag, answer := answer }]
  { s with svc := { s.svc with kept := ks.drop (ks.length - 256) } }

/-! ### Running commands and their order (R18, R292, R302, R305, R310) -/

/-- Every running command, wherever it waits: on a core, for a commit, a switch or a signature. -/
def allRunning (s : State) : List Running :=
  s.host.running ++ s.net.switchCmd.toList ++ s.octxs.filterMap (fun o => o.2.command) ++
    s.audit.signQueue.filterMap (fun i => match i with
      | .quote r _ => some r
      | _ => none)

/-- Running commands of a queue pair whose completions are still due. -/
def runningOf (s : State) (q : Nat) : List Running := (allRunning s).filter (fun r => r.x.src == .ring q && !r.orphan)

/-- Running commands of a service-port client. -/
def runningFor (s : State) (mac : Nat) : List Running := (allRunning s).filter (fun r => r.x.src == .service mac)

/-- Whether a command may be dispatched beside the running ones of its source (R305): with FENCE only alone, and never beside a fenced
one. -/
def fenceAllows (rs : List Running) (x : Exec) : Bool := rs.isEmpty || (!fenced x && rs.all (fun r => !fenced r.x))

/-- Whether a command of a queue pair may be dispatched (R292, R305); ORDERED has the effect of FENCE. -/
def mayDispatch (s : State) (q : Nat) (x : Exec) : Bool :=
  running s && fenceAllows (runningOf s q) x && (!(getQp s q).ctrl.ordered || (runningOf s q).isEmpty)

/-- The core a command is given: any surviving core, a free value (R18, log entry 3). DESIGN CHOICE: with every core lost the
manual says nothing; the command is put on core 0, where it never runs, and an unassigned opcode completes with CORE 0 (log
entry 45). -/
def chooseCore (s : State) : Nat × State :=
  let f := fresh 16 s
  let up := coresUp s
  (up.getD (f.1.toNat % max 1 up.length) 0, f.2)

/-- A command starts on a core. -/
def startOn (x : Exec) (s : State) : State :=
  let c := chooseCore s
  modHost (fun h => { h with running := h.running ++ [{ x := x, core := c.1, orphan := false }] }) c.2

/-- A client's held-back commands start, oldest first, as far as FENCE allows (R305). -/
def startWaiting (mac : Nat) (s : State) : State :=
  let step (a : Bool × State) (x : Exec) : Bool × State :=
    if a.1 || !fenceAllows (runningFor a.2 mac) x then (true, a.2)
    else (false, startOn x { a.2 with svc := { a.2.svc with waiting := a.2.svc.waiting.erase x } })
  ((s.svc.waiting.filter (fun x => x.src == .service mac)).foldl step (false, s)).2

/-- A command completes: events first (R295), RING_ERROR of a failed access among them, then result data, then the completion. The
completion of an orphan is discarded and counted (R287). Where the write of the entry fails, DMA_ERR is set and the entry written
again (log entry 45). -/
def complete (r : Running) (status r0 r1 : Nat) (data : List Byte) (s : State) : State :=
  let x := r.x
  match x.src with
  | .service mac =>
    let answer := completionBytes x r.core status data.length r0 r1 ++ data
    startWaiting mac (keepCompletion mac x.cmd.tag (some answer) (emit (.serviceFrame mac 2 0 answer) (drainEvents s)))
  | .ring q =>
    if r.orphan then countPurser 0x0001 1 s
    else
      let s := if (!x.resultOk && !data.isEmpty) || x.desc.isNone || !x.entryOk then dmaError q x.cmd.tag s else s
      let s := drainEvents s
      let wrote := x.resultOk && !data.isEmpty
      let s := if wrote then emit (.hostWrite x.cmd.resultAddr data) s else s
      pushCompletion q (completionBytes x r.core status (if wrote then data.length else 0) r0 r1) s

/-! ### Admission (R18, R292, R302, R305, R310) -/

/-- The objects that a command changes, among those that both a host command and a service-port command can change (R292): a job's
budget, a hawser's, the device's, the throttle limits, the reset, a fault record, the fault mode, the next slot. -/
def objectsOf (c : Cmd) : List (Nat × Nat) :=
  match c.opcode with
  | 0x0103 =>
    match field c.params 0 1 with
    | 0 => [(0, 0)]
    | 1 => [(1, c.job)]
    | _ => [(2, field c.params 2 2)]
  | 0x0104 => [(3, 0)]
  | 0x0105 => [(4, 0)]
  | 0x0200 | 0x0201 => [(1, c.job)]
  | 0x0505 => (List.range 16).map (fun i => (2, field c.params (2 * i) 2))
  | 0x0506 => [(2, field c.params 0 2)]
  | 0x0A01 | 0x0A02 => [(5, field c.params 0 4)]
  | 0x0A03 => [(6, 0)]
  | 0x0C03 => [(7, 0)]
  | _ => []

/-- Whether a host command and a service-port command change one object (R292). -/
def conflicting (x y : Exec) : Bool :=
  overService x != overService y && (objectsOf x.cmd).any (fun o => (objectsOf y.cmd).contains o)

/-- Whether a command dispatched earlier is to take effect first (R292). -/
def heldBack (x : Exec) (earlier : List Running) : Bool := earlier.any (fun r => conflicting x r.x)

/-- A command that has not been dispatched may be dispatched and run in one step (log entry 16), where its source has nothing before
it: a queue pair's next command, fetched or taken as fetched in this step, or a client's. -/
def dispatchNow (x : Exec) (s : State) : Option State :=
  match x.src with
  | .ring q =>
    if q < 16 && (getQp s q).ctrl.enable && s.host.linkUp && mayDispatch s q x then
      match (getQp s q).fetched with
      | [] => if (runningOf s q).any (fun r => r.x.cmd.tag == x.cmd.tag) then none else some s
      | c :: rest => if c = x.cmd then some (modQp q (fun p => { p with fetched := rest }) s) else none
    else none
  | .service mac =>
    if fenceAllows (runningFor s mac) x && !s.svc.waiting.any (fun y => y.src == x.src) then some s else none

/-- The command starts on a core: the one it was dispatched to, or, where it has not been dispatched, one chosen now. It takes effect
after the packets and timers of its tick (R310). The firmware serves the service port from its start (R375, Table 16.3). -/
def admitCmd (x : Exec) (opcode : Nat) (s : State) : Option (Running × State) :=
  if !(running s || (overService x && s.sys.phase == .startup)) || x.cmd.opcode != opcode || (coresUp s).isEmpty || !tickHandled s then none
  else
    match s.host.running.find? (fun r => r.x == x) with
    | some r =>
      if heldBack x (s.host.running.takeWhile (fun y => y != r)) then none
      else some (r, modHost (fun h => { h with running := h.running.erase r }) s)
    | none =>
      if heldBack x s.host.running then none
      else (dispatchNow x s).map (fun s =>
        let c := chooseCore s
        ({ x := x, core := c.1, orphan := false }, c.2))

/-- What a command's effect gives: the state, two result words and result data. -/
structure Effect where
  state : State
  r0 : Nat
  r1 : Nat
  data : List Byte

def Effect.ok (s : State) : Effect := { state := s, r0 := 0, r1 := 0, data := [] }

/-- A command that completes in the tick it takes effect (R310). -/
def runCmd (x : Exec) (s : State) (row : State → Row) (effect : State → Effect) : Result :=
  match admitCmd x (row s).opcode s with
  | none => finish s
  | some (r, s1) =>
    match verdict s1 x (row s1) with
    | some f => finish (complete r f.status f.r0 f.r1 [] s1)
    | none =>
      let e := effect s1
      finish (complete r stOk e.r0 e.r1 e.data e.state)

/-- A command that completes later (R311): accepted, it is handed to `start` with the running command. -/
def runLater (x : Exec) (s : State) (row : State → Row) (start : Running → State → State) : Result :=
  match admitCmd x (row s).opcode s with
  | none => finish s
  | some (r, s1) =>
    match verdict s1 x (row s1) with
    | some f => finish (complete r f.status f.r0 f.r1 [] s1)
    | none => finish (start r s1)

/-! ### Parameters -/

/-- Whether PARAMS is 0 outside the listed (offset, size) fields (R304). -/
def onlyFields (p : List Byte) (fs : List (Nat × Nat)) : Bool :=
  (List.range 32).all (fun i => fs.any (fun f => f.1 ≤ i && i < f.1 + f.2) || p.getD i 0 == 0)

def param (x : Exec) (off n : Nat) : Nat := field x.cmd.params off n
def desc (x : Exec) : List Byte := x.desc.getD []

end Sys2Proof.Machine
end

