-- ==== Sys2Proof/Machine/Audit.lean ====
section
/-!
DEFINITION. Afique records (R150 to R157): their bytes, the ML-DSA-87 engine's queue, the audit ring, and the commands
AUDIT_RING_SET and AUDIT_PATH (Table 12.13).
-/
namespace Sys2Proof.Machine

/-! ### Leaves and roots (R156, R157) -/

/-- Whether a leaf comes before another: OP_NUM, then CHUNK. -/
def leafBefore (a b : Leaf) : Bool := a.opNum < b.opNum || (a.opNum == b.opNum && a.chunk ≤ b.chunk)

/-- Leaves in the order of R156. -/
def sortLeaves (ls : List Leaf) : List Leaf := sortBy leafBefore ls

/-- Digest of a leaf's data for a root: 0 RESULT, 1 STATE, 2 CONTRIB. -/
def Leaf.digest (l : Leaf) (root : Nat) : List Byte :=
  match root with
  | 0 => l.result
  | 1 => l.state
  | _ => l.contrib

/-- Leaf hashes of a root over sorted leaves. -/
def rootHashes (ls : List Leaf) (root : Nat) : List (List Byte) :=
  (sortLeaves ls).map (fun l => leafHash l.opNum l.chunk (l.digest root))

/-! ### Records (R151) -/

/-- What differs from record to record; `lr` to `p2` are constants of the step, `map` the enabled slots. -/
structure RecordIn where
  kind : Nat
  cond : BitVec 16
  reshard : Bool
  abandoned : Bool
  step : Nat
  job : Nat
  rule : Nat
  octx : Nat
  rctx : Nat
  cfg : List Byte
  leaves : List Leaf
  noise : List Byte
  cf : F32
  lr : F32
  k1 : F32
  k2 : F32
  p1 : F32
  p2 : F32
  slots : Nat
  reforms : List Reform
  layers : List F32
  chunks : Nat
  acct : Account
  map : Nat

/-- The re-form, layer and fault sections (Table 05.9). -/
def recordSections (r : RecordIn) : List Byte :=
  let re := (r.reforms.map (fun e => le 2 e.opNum ++ zeros 2 ++ le 4 e.chunk ++ zeros 8 ++ le 64 e.map)).flatten
  let la := fit (roundUp (4 * r.layers.length) 16) (r.layers.map (fun x => le 4 x.toNat)).flatten
  let fa := (r.acct.faults.map (fun f => le 1 f.1 ++ le 1 f.2.2.1 ++ zeros 2 ++ le 4 f.2.1 ++ le 8 f.2.2.2.toNat)).flatten
  re ++ la ++ fa

/-- MODE of a record. -/
def recordMode (replay : Bool) (r : RecordIn) : Nat :=
  b2n replay + 2 * b2n r.acct.unlocked + 4 * b2n (!r.reforms.isEmpty) + 8 * b2n r.reshard +
    16 * b2n (r.kind != 1 && r.cf != 0x3F800000#32) + 32 * b2n r.abandoned + 64 * b2n r.acct.lateTrailer

/-- The bytes of a record before its signature: Table 05.8, then the sections. Roots of a ROLLBACK record are 0. -/
def recordBody (s : State) (r : RecordIn) : List Byte :=
  let sec := recordSections r
  let len := 1088 + sec.length + 4627
  let j := tabGet? s.jobs r.job
  let root (i : Nat) : List Byte :=
    if r.kind = 2 || (r.kind = 1 && i = 1) then zeros 64 else merkleRoot (rootHashes r.leaves i)
  [0x41#8, 0x46#8, 0x49#8, 0x51#8] ++ le 2 1 ++ le 1 r.kind ++ le 1 1 ++ le 4 len ++ le 2 r.cond.toNat ++
    le 2 (recordMode ((j.map (fun x => x.replay)).getD false) r) ++ le 8 r.step ++ le 1 r.job ++ le 1 r.rule ++ le 2 r.octx ++
    le 2 r.rctx ++ le 2 (ownAddr s) ++ le 8 serial64 ++ le 8 ((j.map (fun x => x.l.toNat)).getD 0) ++ le 8 (now s).toNat ++
    le 8 (jobSeed s r.job).toNat ++ fit 64 s.sys.fwMeasurement ++ fit 64 r.cfg ++
    fit 64 ((j.map (fun x => x.topoDigest)).getD []) ++
    ((List.range 4).map (fun i => fit 64 ((j.bind (fun x => (tabGet? x.phaseMaps i).map (fun m => m.digest))).getD []))).flatten ++
    root 0 ++ root 1 ++ root 2 ++ fit 64 s.sys.aliasKeyId ++ fit 192 r.noise ++ le 4 r.cf.toNat ++ le 4 r.lr.toNat ++
    le 4 r.k1.toNat ++ le 4 r.k2.toNat ++ le 4 r.p1.toNat ++ le 4 r.p2.toNat ++ le 2 r.slots ++ le 2 r.reforms.length ++
    le 2 r.acct.faults.length ++ le 2 r.layers.length ++ le 8 r.chunks ++ le 8 r.acct.replays ++ le 8 r.acct.retransmits ++
    le 8 r.acct.throttled ++ le 64 r.map ++ sec

/-- A record enters the engine's queue, in the order of the events that caused records (R150). -/
def queueRecord (r : RecordIn) (s : State) : State :=
  let ctx := if r.kind = 1 then r.rctx else r.octx
  { s with audit := { s.audit with signQueue := s.audit.signQueue ++ [.record r.kind ctx r.step r.job (recordBody s r)] } }

/-- Whether 16 records wait, signed or not (R154, log entry 19). -/
def auditFull (s : State) : Bool :=
  let unsigned := (s.audit.signQueue.filter (fun i => match i with
    | .record _ _ _ _ _ => true
    | .quote _ _ => false)).length
  decide (16 ≤ unsigned + s.audit.waiting.length)

/-- The OR of arithmetic condition words; 0x0100 where none is covered (Table 05.8). -/
def orConds (cs : List (BitVec 16)) : BitVec 16 := cs.foldl (fun a c => a ||| c) 0x0100#16

/-- AFIQUE_SIGN (R150, R153, R360): the engine signs the oldest item. A quote's command then completes. -/
def execAfiqueSign (s : State) : Result :=
  match s.audit.signQueue with
  | [] => finish s
  | i :: rest =>
    if unitLost s .mldsa then finish s else
    let s1 := { s with audit := { s.audit with signQueue := rest }, freeCount := s.freeCount + 1 }
    match i with
    | .record kind ctx step job body =>
      let sig := le 4627 (Config.mldsaSign s.sys.aliasSeed (ascii "DZF-AFIQUE") body s.freeCount).toNat
      let rec_ : SignedRecord := { kind := kind, ctx := ctx, step := step, job := job, bytes := body ++ sig }
      finish { s1 with audit := { s1.audit with waiting := s1.audit.waiting ++ [rec_] } }
    | .quote r body =>
      let sig := le 4627 (Config.mldsaSign s.sys.aliasSeed (ascii "DZF-ATTEST") body s.freeCount).toNat
      finish (complete r stOk 4947 0 (body ++ sig) s1)

/-- AUDIT_RING_WRITE (R154, R297): the oldest signed record is written if it fits, then the write-back, then AFIQUE_RECORD. Each of its
64-byte units is an entry of the ring (Table 11.7). A write that fails on the link sets DMA_ERR, and the record waits on (log entry
45). -/
def execAuditRingWrite (s : State) (ok : Bool := true) : Result :=
  match s.audit.waiting with
  | [] => finish s
  | r :: rest =>
    let p := s.host.aud
    let size := 2 ^ p.ctrl.log2
    let units := ceilDiv r.bytes.length 64
    let at_ := p.tail.toNat % size
    let skip := if size - at_ < units then size - at_ else 0
    let used := (p.tail - p.head).toNat
    if s.host.linkUp && p.ctrl.enable && decide (used + skip + units ≤ size) then
      if !ok then finish (linkError (modHost (fun h => { h with aud := { h.aud with status := { h.aud.status with dmaErr := true } } }) s))
      else
      let off := (at_ + skip) % size
      let s := emit (.hostWrite (p.base + 64 * off) (fit (64 * units) r.bytes)) s
      let u := noteEntries units p.unsignalled p.firstUnsignalled (now s)
      let s := modHost (fun h => { h with aud := { h.aud with tail := h.aud.tail + BitVec.ofNat 32 (skip + units),
                                                              unsignalled := u.1, firstUnsignalled := u.2 } }) s
      let s := audWriteBack { s with audit := { s.audit with waiting := rest } }
      finish (raiseEvent 0x0090 (some r.job)
        (le 1 r.kind ++ zeros 1 ++ le 2 r.ctx ++ le 4 off ++ le 8 r.step ++ le 4 r.bytes.length) s)
    else finish s

/-! ### Audit commands -/

/-- The row of AUDIT_RING_SET in its group table. -/
def rowAuditRingSet (x : Exec) (s : State) : Row :=
  let lg := param x 0 1
  let base := param x 8 8
  let wb := param x 16 8
  { Row.plain 0x0900 (onlyFields x.cmd.params [(0, 1), (8, 16)]) with
    own := fails (lg != 0 && (lg < 10 || 16 < lg)) stRange ++ fails (base % 4096 != 0 || wb % 8 != 0) stBadParam ++
      fails (s.host.aud.head != s.host.aud.tail) stState }

/-- AUDIT_RING_SET (R154): LOG2 0 disables the ring. -/
def execAuditRingSet (x : Exec) (s : State) : Result :=
  let lg := param x 0 1
  let base := param x 8 8
  let wb := param x 16 8
  runCmd x s (rowAuditRingSet x)
    (fun s => Effect.ok (modHost (fun h =>
      { h with aud := { h.aud with base := base, wb := wb, head := 0, tail := 0, unsignalled := 0,
                                   ctrl := { h.aud.ctrl with enable := lg != 0, log2 := lg },
                                   status := { h.aud.status with idle := lg == 0 } } }) s))

/-- The last two records of a context, newest first, of the kind a command names: 0 STEP, 1 PARTIAL. -/
def coveredOf (s : State) (job kind ctx : Nat) : List Covered :=
  if kind = 0 then ((tabGet? s.octxs ctx).map (fun o => if o.d.job = job then o.covered else [])).getD []
  else ((tabGet? s.rctxs ctx).map (fun r => if r.d.job = job then r.covered else [])).getD []

/-- Whether a context of a job exists, by kind. -/
def contextOf (s : State) (job kind ctx : Nat) : Bool :=
  if kind = 0 then ((tabGet? s.octxs ctx).map (fun o => o.d.job == job)).getD false
  else ((tabGet? s.rctxs ctx).map (fun r => r.d.job == job)).getD false

/-- A context's records with one more, the newest first: two are kept (R157). -/
def coverStep (c : Covered) (cs : List Covered) : List Covered := (c :: cs).take 2

/-- The index of a chunk among sorted leaves. -/
def leafIndex (ls : List Leaf) (opNum chunk : Nat) : Option Nat :=
  (sortLeaves ls).findIdx? (fun l => l.opNum == opNum && l.chunk == chunk)

/-- The records held of the context and step that an AUDIT_PATH names. -/
def pathRecords (x : Exec) (s : State) : List Covered :=
  (coveredOf s x.cmd.job (param x 2 1) (param x 0 2)).filter (fun c => c.step == param x 16 8)

/-- The record that covers the chunk an AUDIT_PATH names, the newest first, and the chunk's index among its leaves (R157). -/
def pathLeaf (x : Exec) (s : State) : Option (Covered × Nat) :=
  (pathRecords x s).findSome? (fun c => (leafIndex c.leaves (param x 4 2) (param x 8 4)).map (fun i => (c, i)))

/-- The result data of an AUDIT_PATH (Table 12.13): index, leaves, depth, and the path's hashes. -/
def pathData (x : Exec) (c : Covered) (i : Nat) : List Byte :=
  let p := merklePath (c.leaves.length + 1) (rootHashes c.leaves (param x 3 1)) i
  fit 24 (le 8 i ++ le 8 c.leaves.length ++ le 1 p.length) ++ p.flatten

/-- The row of AUDIT_PATH in its group table. DESIGN CHOICE: a KIND above 1, a code the table does not give, is RANGE, as a ROOT above
2 is (log entry 51). -/
def rowAuditPath (x : Exec) (s : State) : Row :=
  let ctx := param x 0 2
  let kind := param x 2 1
  let root := param x 3 1
  { Row.job 0x0902 (onlyFields x.cmd.params [(0, 6), (8, 4), (16, 8)]) with
    returns := true, need := ((pathLeaf x s).map (fun h => (pathData x h.1 h.2).length)).getD 0,
    own := fails (2 < root || 1 < kind || (root == 1 && kind == 1)) stRange ++
      fails (!contextOf s x.cmd.job kind ctx || (!(pathRecords x s).isEmpty && (pathLeaf x s).isNone)) stState ++
      fails (pathRecords x s).isEmpty stGone }

/-- AUDIT_PATH (R157). -/
def execAuditPath (x : Exec) (s : State) : Result :=
  runCmd x s (rowAuditPath x)
    (fun s => { Effect.ok s with data := ((pathLeaf x s).map (fun h => pathData x h.1 h.2)).getD [] })

end Sys2Proof.Machine
end

