-- ==== Sys2Proof/Machine/Certificates.lean ====
section
/-!
DEFINITION. The device identity key and the certificates (R355, R356, R358, R359): X.509 version 3, DER-encoded, signed with ML-DSA-87.
What RFC 5280 and TCG DICE leave to the issuer is a constant of Config (log entry 54).
-/
namespace Sys2Proof.Machine

/-! ### DER -/

/-- The bytes of a number, most significant first, without leading zeros. -/
def beBytes (n : Nat) : List Byte := (le ((Nat.log2 n) / 8 + 1) n).reverse

/-- The length octets of DER. -/
def derLen (n : Nat) : List Byte := if n < 128 then le 1 n else le 1 (128 + (beBytes n).length) ++ beBytes n

/-- A value under a tag. -/
def der (tag : Nat) (content : List Byte) : List Byte := le 1 tag ++ derLen content.length ++ content

/-- SEQUENCE. -/
def derSeq (xs : List (List Byte)) : List Byte := der 0x30 xs.flatten

/-- INTEGER content of a number below 128, or of more bytes with a leading zero where the top bit is set. -/
def derNat (n : Nat) : List Byte :=
  let b := beBytes n
  if bit (b.headD 0).toNat 7 then zeros 1 ++ b else b

/-- BIT STRING of whole bytes. -/
def derBits (b : List Byte) : List Byte := der 0x03 (zeros 1 ++ b)

/-- 2.16.840.1.101.3.4.3.19, ML-DSA-87 (R356), without parameters. -/
def mldsaId : List Byte := derSeq [der 0x06 [0x60#8, 0x86#8, 0x48#8, 0x01#8, 0x65#8, 0x03#8, 0x04#8, 0x03#8, 0x13#8]]

/-- 2.16.840.1.101.3.4.2.10, SHA3-512. -/
def sha3Id : List Byte := der 0x06 [0x60#8, 0x86#8, 0x48#8, 0x01#8, 0x65#8, 0x03#8, 0x04#8, 0x02#8, 0x0A#8]

/-- 2.23.133.5.4.1, TCG DICE TcbInfo (R359). -/
def tcbInfoId : List Byte := der 0x06 [0x67#8, 0x81#8, 0x05#8, 0x05#8, 0x04#8, 0x01#8]

/-! ### Certificates -/

/-- What a TBSCertificate holds beside its version and its algorithm, each part DER-encoded. -/
structure CertIn where
  serial : List Byte
  issuer : List Byte
  notBefore : List Byte
  notAfter : List Byte
  subject : List Byte
  key : List Byte
  extensions : List Byte

/-- The TBSCertificate of RFC 5280, version 3. -/
def tbsCertificate (c : CertIn) : List Byte :=
  derSeq [der 0xA0 (der 0x02 [0x02#8]), der 0x02 c.serial, mldsaId, c.issuer, derSeq [c.notBefore, c.notAfter], c.subject,
          derSeq [mldsaId, derBits c.key], der 0xA3 (der 0x30 c.extensions)]

/-- A certificate with its signature. -/
def certificate (c : CertIn) (signature : List Byte) : List Byte := derSeq [tbsCertificate c, mldsaId, derBits signature]

/-! ### The device identity key (R355) -/

/-- The device secret's bytes. -/
def secretBytes : List Byte := le 32 Config.deviceSecret.toNat

/-- The private half of the device identity key, as the ROM decrypts it before it locks the secret. -/
def identitySeed : List Byte := Config.decryptKey secretBytes Config.identitySealed

/-- Its public half. -/
def identityPublic : List Byte := Config.mldsaPublicKey identitySeed

/-- The fields of the device identity certificate: its subject names SERIAL. -/
def identityIn : CertIn :=
  { serial := Config.identitySerial, issuer := Config.identityIssuer, notBefore := Config.identityNotBefore,
    notAfter := Config.identityNotAfter, subject := Config.identitySubject (le 8 serial64), key := identityPublic,
    extensions := Config.identityExtensions }

/-- The device identity certificate, signed by Dziwin's device certification authority. -/
def identityCert : List Byte :=
  certificate identityIn (le 4627 (Config.authoritySign (tbsCertificate identityIn)).toNat)

/-! ### The alias certificate (R358, R359) -/

/-- A digit of a hexadecimal number, as ASCII. -/
def hexDigit (d : Nat) : Byte := BitVec.ofNat 8 (if d < 10 then 48 + d else 55 + d)

/-- VERSION as eight hexadecimal digits. -/
def hex8 (v : Nat) : List Byte := (List.range 8).map (fun i => hexDigit (v / 16 ^ (7 - i) % 16))

/-- The TcbInfo extension (R359): vendor, model, version, svn and one fwid. -/
def tcbInfo (version svn : Nat) (measurement : List Byte) : List Byte :=
  let info := derSeq [der 0x80 (ascii "Dziwin Semiconductor"), der 0x81 (ascii "DZF-384"), der 0x82 (hex8 version), der 0x83 (derNat svn),
                      der 0xA6 (derSeq [sha3Id, der 0x04 (fit 64 measurement)])]
  derSeq [tcbInfoId, der 0x04 info]

/-- 99991231235959Z, GeneralizedTime. -/
def endOfTime : List Byte := der 0x18 (ascii "99991231235959Z")

/-- The fields of the alias certificate: the alias public key, the issuer name of the device identity certificate, and its validity from
that certificate's notBefore. -/
def aliasIn (key : List Byte) (version svn : Nat) (measurement : List Byte) : CertIn :=
  { serial := Config.aliasSerial key, issuer := Config.identityIssuer, notBefore := Config.identityNotBefore, notAfter := endOfTime,
    subject := Config.aliasSubject key, key := key, extensions := tcbInfo version svn measurement ++ Config.aliasExtensions }

/-- The alias certificate, signed by the device identity key in hedged mode with an empty context string; the hedge makes its bytes
differ from boot to boot. -/
def aliasCertificate (key : List Byte) (version svn : Nat) (measurement : List Byte) (hedge : Nat) : List Byte :=
  let c := aliasIn key version svn measurement
  certificate c (le 4627 (Config.mldsaSign identitySeed [] (tbsCertificate c) hedge).toNat)

end Sys2Proof.Machine
end

