-- ==== Sys2Proof/Machine/SecurityCommands.lean ====
section
/-!
DEFINITION. The Fault, purser and security commands (Table 12.14): R338, R341, R343, R349, R354, R356, R360, R361, R368, R371.
-/
namespace Sys2Proof.Machine

/-! ### Faults (R335 to R343) -/

/-- The records FAULT_READ returns, ascending by number (R338). -/
def faultsFrom (s : State) (first count : Nat) (unclearedOnly : Bool) : List FaultRecord :=
  (sortBy (fun a b => decide (a.num ≤ b.num))
    (s.flt.records.filter (fun r => first ≤ r.num && (!unclearedOnly || r.uncleared)))).take count

/-- The row of FAULT_READ in its group table. -/
def rowFaultRead (x : Exec) (s : State) : Row :=
  let recs (s : State) : List FaultRecord := faultsFrom s (param x 0 4) (param x 4 2) (bit (param x 6 1) 0)
  { Row.plain 0x0A00 (onlyFields x.cmd.params [(0, 7)] && param x 6 1 < 2) with
    returns := true, need := 32 * (recs s).length, own := fails (param x 4 2 < 1 || 256 < param x 4 2) stRange }

/-- FAULT_READ. -/
def execFaultRead (x : Exec) (s : State) : Result :=
  let recs (s : State) : List FaultRecord := faultsFrom s (param x 0 4) (param x 4 2) (bit (param x 6 1) 0)
  runCmd x s (rowFaultRead x)
    (fun s => { Effect.ok s with r0 := (recs s).length, data := ((recs s).map (faultBytes s)).flatten })

/-- A record by number. -/
def faultNumbered (s : State) (n : Nat) : Option FaultRecord := s.flt.records.find? (fun r => r.num == n)

/-- The row of FAULT_ACK in its group table. -/
def rowFaultAck (x : Exec) (s : State) : Row :=
  let r (s : State) : Option FaultRecord := faultNumbered s (param x 0 4)
  { Row.plain 0x0A01 (onlyFields x.cmd.params [(0, 4)]) with
    own := fails (!((r s).map FaultRecord.uncleared).getD false) stState }

/-- FAULT_ACK (R343). -/
def execFaultAck (x : Exec) (s : State) : Result :=
  let r (s : State) : Option FaultRecord := faultNumbered s (param x 0 4)
  runCmd x s (rowFaultAck x)
    (fun s => Effect.ok (match r s with
      | some f => putRecord { f with state := 1 } s
      | none => s))

/-- The row of FAULT_CLEAR in its group table. -/
def rowFaultClear (x : Exec) (s : State) : Row :=
  let r (s : State) : Option FaultRecord := faultNumbered s (param x 0 4)
  { Row.plain 0x0A02 (onlyFields x.cmd.params [(0, 4)]) with
    own := fails (!((r s).map (fun f => f.state == 1 && !persists s f.cls f.cause f.unit f.detail)).getD false) stState }

/-- FAULT_CLEAR (R343): an acknowledged record whose condition does not persist. -/
def execFaultClear (x : Exec) (s : State) : Result :=
  let r (s : State) : Option FaultRecord := faultNumbered s (param x 0 4)
  runCmd x s (rowFaultClear x)
    (fun s => Effect.ok (match r s with
      | some f => raiseEvent 0x0011 none (le 4 f.num ++ le 1 f.cls) (putRecord { f with state := 2 } s)
      | none => s))

/-- The row of FAULT_MODE_SET in its group table. -/
def rowFaultModeSet (x : Exec) (s : State) : Row :=
  { Row.plain 0x0A03 (onlyFields x.cmd.params [(0, 1)]) with
    own := fails (1 < param x 0 1) stRange ++ fails (anyUncleared s) stState }

/-- FAULT_MODE_SET (R341). -/
def execFaultModeSet (x : Exec) (s : State) : Result :=
  runCmd x s (rowFaultModeSet x)
    (fun s => Effect.ok { s with flt := { s.flt with merge := param x 0 1 == 1 } })

/-- The row of FAULT_INJECT in its group table. -/
def rowFaultInject (_x : Exec) (_s : State) : Row :=
  { Row.plain 0x0A04 true with denied := true }

/-- FAULT_INJECT (R354): DENIED in every shipped part. -/
def execFaultInject (x : Exec) (s : State) : Result :=
  runCmd x s (rowFaultInject x) Effect.ok

/-! ### The purser (R349) -/

/-- The row of PURSER_READ in its group table. -/
def rowPurserRead (x : Exec) (_s : State) : Row :=
  let first := param x 0 4
  let n := param x 4 4
  { Row.plain 0x0B00 (onlyFields x.cmd.params [(0, 9)] && param x 8 1 < 2) with
    returns := true, need := 8 * n + 8 * ceilDiv n 64,
    own := fails (n < 1 || 4096 < n || 65536 < first + n) stRange }

/-- PURSER_READ. -/
def execPurserRead (x : Exec) (s : State) : Result :=
  let first := param x 0 4
  let n := param x 4 4
  runCmd x s (rowPurserRead x)
    (fun s =>
      let c (i : Nat) : Counter := tabGet s.purser (first + i) zeroCounter
      let vals := ((List.range n).map (fun i => le 8 (c i).value)).flatten
      let sats := le (8 * ceilDiv n 64) (maskOf ((List.range n).filter (fun i => (c i).sat)))
      let s := if bit (param x 8 1) 0 then
          { s with purser := s.purser.filter (fun p => p.1 < first || first + n ≤ p.1) } else s
      { Effect.ok s with data := vals ++ sats })

/-! ### Attestation, certificates and slots -/

def getSlot (s : State) (i : Nat) : ImageSlot := tabGet s.aon.slots i ImageSlot.empty

/-- Revoked keys as a bit field. -/
def keysRevoked (s : State) : Nat := s.aon.revoked.toNat

/-- CFG_DIGEST's entries (R361). -/
def cfgEntries (s : State) : List (List Byte) :=
  s.octxs.map (fun o => le 1 0 ++ le 1 o.2.d.job ++ le 2 o.1 ++ zeros 4 ++ fit 64 o.2.d.digest) ++
    (s.jobs.filter (fun j => j.2.topo.isSome)).map (fun j => le 1 1 ++ le 1 j.1 ++ zeros 6 ++ fit 64 j.2.topoDigest)

/-- Bytes 0 to 319 of a quote (Table 15.1). -/
def quoteBody (s : State) (nonce : List Byte) : List Byte :=
  let b := s.aon.boot
  let sl := getSlot s b.slot
  let es := cfgEntries s
  fit 320 ([0x44#8, 0x5A#8, 0x51#8, 0x54#8] ++ le 2 1 ++ le 1 b.slot ++ le 1 1 ++ le 4 4947 ++ le 1 sl.securityVersion ++
    le 1 s.aon.fusedSv ++ le 1 (b2n Config.cosignRequired + 2 * b2n sl.cosignVerified + 4 * b2n b.trial) ++
    le 1 (keysRevoked s) ++ le 8 serial64 ++ le 8 (now s).toNat ++ fit 32 nonce ++ fit 64 s.sys.fwMeasurement ++
    sha3 es.flatten ++ fit 64 s.sys.aliasKeyId ++ le 4 sl.version ++ le 2 Config.romVersion.toNat ++ le 2 es.length)

/-- The row of ATTEST in its group table. -/
def rowAttest (_x : Exec) (_s : State) : Row :=
  { Row.plain 0x0C00 true with returns := true, need := 4947 }

/-- ATTEST (R360): the quote waits its turn at the ML-DSA-87 engine, and the command completes when it is signed. -/
def execAttest (x : Exec) (s : State) : Result :=
  runLater x s (rowAttest x)
    (fun r s => { s with audit := { s.audit with signQueue := s.audit.signQueue ++ [.quote r (quoteBody s x.cmd.params)] } })

/-- The row of CERT_READ in its group table. -/
def rowCertRead (x : Exec) (s : State) : Row :=
  let which := param x 0 1
  let off := param x 4 4
  let cert (s : State) : List Byte := if which = 0 then identityCert else s.sys.aliasCert
  { Row.plain 0x0C01 (onlyFields x.cmd.params [(0, 1), (4, 4)]) with
    returns := true, own := fails (1 < which || (cert s).length ≤ off) stRange }

/-- CERT_READ (R356): at most RESULT_LEN bytes, and over the service port at most what a frame carries (R308). -/
def execCertRead (x : Exec) (s : State) : Result :=
  let which := param x 0 1
  let off := param x 4 4
  let cert (s : State) : List Byte := if which = 0 then identityCert else s.sys.aliasCert
  let room := if overService x then min x.cmd.resultLen 1368 else x.cmd.resultLen
  runCmd x s (rowCertRead x)
    (fun s => { Effect.ok s with r0 := (cert s).length, data := ((cert s).drop off).take room })

/-- NEXT_MISSING of a slot that receives (R370): the lowest 64-byte unit not received, or the image's length. -/
def nextMissing (sl : ImageSlot) : Nat :=
  let gap := sl.bytes.foldl (fun n p => if p.1 = n then n + 1 else n) 0
  min (64 * gap) sl.imageLen

/-- A slot's 48 bytes of IMAGE_QUERY: of an EMPTY or RECEIVING slot only STATE (Table 15.7). -/
def slotBytes (sl : ImageSlot) : List Byte :=
  if sl.state < 2 then fit 48 (le 1 sl.state)
  else
    fit 48 (le 1 sl.state ++ le 1 sl.securityVersion ++ le 1 sl.keyIndex ++
      le 1 (b2n sl.cosignPresent + 2 * b2n sl.cosignVerified) ++ le 4 sl.version ++ le 4 sl.imageLen ++ le 1 sl.detail ++ zeros 3 ++
      fit 32 sl.measurement)

/-- The row of IMAGE_QUERY in its group table. -/
def rowImageQuery (x : Exec) (_s : State) : Row :=
  { Row.plain 0x0C02 (onlyFields x.cmd.params []) with returns := true, need := 128 }

/-- IMAGE_QUERY (R368). -/
def execImageQuery (x : Exec) (s : State) : Result :=
  runCmd x s (rowImageQuery x)
    (fun s =>
      let b := s.aon.boot
      let t := s.aon.transfer
      { Effect.ok s with
        data := fit 128 (le 1 b.slot ++ le 1 s.aon.nextSlot ++ le 1 (s.aon.goodSlot.getD 0xFF) ++ le 1 s.aon.fusedSv ++
          le 1 (b2n Config.cosignRequired + 2 * b2n b.trial + 4 * b2n b.reverted) ++ le 1 (keysRevoked s) ++
          le 2 Config.romVersion.toNat ++ slotBytes (getSlot s 0) ++ slotBytes (getSlot s 1) ++
          le 4 ((t.map (fun y => y.id)).getD 0) ++
          le 4 ((t.map (fun y => if y.erasing then 0 else nextMissing (getSlot s y.slot))).getD 0)) })

/-- The row of ACTIVATE in its group table. -/
def rowActivate (x : Exec) (s : State) : Row :=
  let n := param x 0 1
  { Row.plain 0x0C03 (onlyFields x.cmd.params [(0, 1)]) with
    denied := !overService x,
    own := fails (1 < n) stRange ++
      fails (n != s.aon.boot.slot && (s.aon.transfer.map (fun t => t.slot)) == some n) stBusy ++
      fails (n != s.aon.boot.slot && (s.aon.transfer.map (fun t => t.slot)) != some n && (getSlot s n).state != 2) stState }

/-- ACTIVATE (R371): DENIED over the rings; naming the active slot cancels an earlier one. -/
def execActivate (x : Exec) (s : State) : Result :=
  let n := param x 0 1
  runCmd x s (rowActivate x)
    (fun s => Effect.ok { s with aon := { s.aon with nextSlot := n } })

end Sys2Proof.Machine
end

