-- ==== Sys2Proof/Machine/Images.lean ====
section
/-!
DEFINITION. Ictatre images: their verification (R362 to R366) and their transfer over the service port (R369, R370, Table 15.8).
-/
namespace Sys2Proof.Machine

def putSlot (i : Nat) (x : ImageSlot) (s : State) : State := { s with aon := { s.aon with slots := tabPut s.aon.slots i x } }

def otherSlot (i : Nat) : Nat := if i = 0 then 1 else 0

/-! ### Verification (R366) -/

/-- A byte of a slot's image. What an erased slot reads where nothing has been received is not stated: a free constant. -/
def ImageSlot.byteAt (x : ImageSlot) (o : Nat) : Byte :=
  match tabGet? x.bytes (o / 64) with
  | some u => u.getD (o % 64) 0
  | none => if x.factory then Config.factoryByte o else Config.undefinedByte (2 ^ 64) o

def ImageSlot.read (x : ImageSlot) (o n : Nat) : List Byte := (List.range n).map (fun i => x.byteAt (o + i))
def ImageSlot.num (x : ImageSlot) (o n : Nat) : Nat := leNat (x.read o n)

/-- Whether a run of image bytes is 0. -/
def ImageSlot.zero (x : ImageSlot) (o n : Nat) : Bool := (x.read o n).all (fun b => b == 0)

/-- COSIGNED, and where the manifest ends (R362). -/
def ImageSlot.cosigned (x : ImageSlot) : Bool := bit (x.num 7 1) 0
def ImageSlot.manifestEnd (x : ImageSlot) : Nat := if x.cosigned then 12550 else 5331

/-- OFFSET and LENGTH of component i. -/
def ImageSlot.comp (x : ImageSlot) (i : Nat) : Nat × Nat := (x.num (128 + 96 * i + 8) 4, x.num (128 + 96 * i + 12) 4)

/-- The components meet R363: one of each type, aligned, the first where the manifest's end puts it, in order, apart, inside the
image, with 0 between. -/
def ImageSlot.componentsOk (x : ImageSlot) : Bool :=
  let e (i : Nat) : Nat := 128 + 96 * i
  let before (i : Nat) : Nat := if i = 0 then x.manifestEnd else (x.comp (i - 1)).1 + (x.comp (i - 1)).2
  (x.comp 0).1 == roundUp x.manifestEnd 64 && (List.range 6).all (fun i =>
    x.num (e i) 1 == i && x.zero (e i + 1) 3 && x.zero (e i + 16) 16 && (x.comp i).1 % 64 == 0 && 1 ≤ (x.comp i).2 &&
      before i ≤ (x.comp i).1 && x.zero (before i) ((x.comp i).1 - before i)) &&
    before 6 ≤ x.imageLen && x.zero (before 6) (x.imageLen - before 6)

/-- Check 2: FORMAT. -/
def ImageSlot.formatOk (x : ImageSlot) : Bool :=
  x.read 0 4 == [0x49#8, 0x43#8, 0x54#8, 0x41#8] && x.num 4 2 == 1 && x.num 8 4 == 704 && x.num 12 4 == x.imageLen &&
    x.imageLen ≤ 50331648 && x.num 7 1 < 2 && x.num 22 1 < 16 && x.zero 23 1 && x.zero 26 6 && x.zero 40 88 && x.componentsOk &&
    !bit (x.num 22 1) (x.num 6 1)

/-- Check 5: the co-signature, where it is required (R365). -/
def ImageSlot.cosignOk (x : ImageSlot) : Bool :=
  x.cosigned && sha3 (x.read 5331 2592) == Config.cosignDigest &&
    Config.mldsaVerify (x.read 5331 2592) (ascii "DZF-COSIGN") (x.read 0 5331) (x.read 7923 4627)

/-- Whether every 64-byte unit of a slot's image has been received; the factory image came whole. -/
def ImageSlot.whole (x : ImageSlot) : Bool := x.factory || (x.imageLen != 0 && x.imageLen ≤ nextMissing x)

/-- The first check of Table 15.5 that fails, as DETAIL; 0 where every check passes. -/
def verifySlot (s : State) (x : ImageSlot) : Nat :=
  if !x.whole then 8
  else if !x.formatOk then 1
  else if 3 < x.num 6 1 || s.aon.revoked.toNat.testBit (x.num 6 1) then 2
  else if !Config.mldsaVerify (Config.dziwinKey (x.num 6 1)) (ascii "DZF-ICTATRE") (x.read 0 704) (x.read 704 4627) then 3
  else if Config.cosignRequired && !x.cosignOk then 4
  else if x.num 21 1 != 1 || Config.romVersion.toNat < x.num 24 2 then 5
  else if x.num 20 1 < s.aon.fusedSv || 64 < x.num 20 1 then 6
  else if (List.range 6).any (fun i => sha3 (x.read (x.comp i).1 (x.comp i).2) != x.read (128 + 96 * i + 32) 64) then 7
  else 0

/-- A slot after verification: VERIFIED or INVALID, with what IMAGE_QUERY shows of it (Table 15.7). -/
def judgeSlot (s : State) (x : ImageSlot) : ImageSlot :=
  let d := verifySlot s x
  { x with state := if d = 0 then 2 else 3, detail := d, securityVersion := x.num 20 1, keyIndex := x.num 6 1,
           cosignPresent := x.cosigned, cosignVerified := d == 0 && Config.cosignRequired, version := x.num 16 4,
           measurement := sha3 (x.read 0 704) }

/-! ### Service frames (R300, Table 11.10) -/

/-- Whether the service port answers: from the start of the firmware, and in recovery (R303, R375). -/
def portUp (s : State) : Bool := s.sys.phase == .startup || s.sys.phase == .ready || s.sys.phase == .recovery

/-- The F384's MAC address: 0x02, then SERIAL[39:0], most significant byte first (R300). -/
def ownMac : Nat := 2 * 2 ^ 40 + serial64 % 2 ^ 40

/-- Whether a frame sent to the F384 has a TYPE and the form of the service header (R300). -/
def frameFor (t : Nat) (f : FrameHdr) : Bool := f.dst == ownMac && f.etherType == 0x88B5 && f.version == 1 && f.ftype == t

/-- A DISCOVER frame to the broadcast address (R300). -/
def broadcastDiscover (f : FrameHdr) : Bool :=
  f.dst == 2 ^ 48 - 1 && f.etherType == 0x88B5 && f.version == 1 && f.ftype == 0

/-- Whether some row takes a frame: a TYPE that a client sends, with the payload its table gives (R300, log entry 52). -/
def frameAccepted (f : FrameHdr) : Bool :=
  broadcastDiscover f || frameFor 0 f || (frameFor 1 f && 64 ≤ f.len && f.len ≤ 1400) || frameFor 4 f || (frameFor 5 f && 1 ≤ f.len)

/-- A frame discarded and counted (R300). -/
def discardFrame (s : State) : State := countPurser 0x0004 1 s

/-! ### Transfer (R369, R370) -/

/-- NEXT_MISSING for an answer: of the transfer in progress; without one it is a free value. -/
def answerMissing (s : State) : Nat × State :=
  match s.aon.transfer with
  | some t => (if t.erasing then 0 else nextMissing (getSlot s t.slot), s)
  | none => let f := fresh 32 s; (f.1.toNat, f.2)

/-- A STATUS frame (Table 15.8). -/
def statusFrame (mac slot status id missing detail : Nat) (s : State) : State :=
  emit (.serviceFrame mac 4 0 (le 1 4 ++ le 1 slot ++ le 2 status ++ le 4 id ++ le 4 missing ++ zeros 2 ++ le 1 detail ++ zeros 1)) s

/-- The answer to a frame. -/
def answerImage (f : ImageFrame) (status : Nat) (s : State) : State :=
  let m := answerMissing s
  statusFrame f.hdr.src f.slot status f.transferId m.1 0 m.2

/-- The transfer in progress that a frame belongs to. -/
def frameTransfer (f : ImageFrame) (s : State) : Option Transfer :=
  s.aon.transfer.bind (fun t => if t.owner = f.hdr.src && t.id = f.transferId && t.slot = f.slot then some t else none)

/-- A transfer ends as ABORT does: its slot becomes EMPTY. -/
def abortTransfer (s : State) : State :=
  match s.aon.transfer with
  | none => s
  | some t => putSlot t.slot ImageSlot.empty { s with aon := { s.aon with transfer := none, lastEnd := none } }

/-- A transfer ended by a command or by silence. Where its erase is cut short, its BEGIN is answered now, since every frame has its
answer (R369): the manual does not say with which status, a free value (log entry 53). -/
def cutTransfer (s : State) : State :=
  match s.aon.transfer with
  | none => s
  | some t =>
    if t.erasing then
      let f := fresh 16 s
      abortTransfer (statusFrame t.owner t.slot f.1.toNat t.id 0 0 f.2)
    else abortTransfer s

/-- IMAGE_BEGIN. -/
def execImageBegin (f : ImageFrame) (s : State) : Result :=
  if !portUp s then finish s
  else if !frameFor 4 f.hdr then finish (discardFrame s)
  else if f.malformed || 1 < f.slot || f.transferId = 0 || !f.data.isEmpty then finish (answerImage f stBadParam s)
  else if (s.aon.transfer.map (fun t => decide (t.owner = f.hdr.src && t.id = f.transferId))).getD false then finish (answerImage f stOk s)
  else if (s.aon.transfer.map (fun t => decide (t.owner ≠ f.hdr.src))).getD false then finish (answerImage f stBusy s)
  else if s.sys.phase != .recovery && f.slot = s.aon.boot.slot then finish (answerImage f stState s)
  else if 50331648 < f.value || f.value < 5376 then finish (answerImage f stRange s)
  else
    let s := putSlot f.slot ImageSlot.empty (cutTransfer s)
    let next := if s.sys.phase != .recovery && s.aon.nextSlot = f.slot then s.aon.boot.slot else s.aon.nextSlot
    finish { s with aon := { s.aon with
      nextSlot := next, lastEnd := none,
      transfer := some { id := f.transferId, owner := f.hdr.src, slot := f.slot, imageLen := f.value, erasing := true } } }

/-- SLOT_ERASE_DONE: the slot enters RECEIVING, and BEGIN is answered. -/
def execSlotEraseDone (s : State) : Result :=
  match s.aon.transfer with
  | none => finish s
  | some t =>
    if !t.erasing then finish s
    else
      let s := putSlot t.slot { ImageSlot.empty with state := 1, imageLen := t.imageLen }
        { s with aon := { s.aon with transfer := some { t with erasing := false } } }
      finish (statusFrame t.owner t.slot stOk t.id 0 0 s)

/-- Units of a frame not yet received. -/
def addUnits (u : Nat) : List (List Byte) → Tab (List Byte) → Tab (List Byte)
  | [], t => t
  | b :: bs, t => addUnits (u + 1) bs (if tabHas t u then t else tabPut t u b)

/-- Whether a DATA frame keeps to Table 15.8: 64 to 1,408 bytes in whole units, but for the end of the image. -/
def dataFrameOk (f : ImageFrame) (t : Option Transfer) : Bool :=
  let n := f.data.length
  !f.malformed && f.slot ≤ 1 && f.value % 64 == 0 && 1 ≤ n && n ≤ 1408 &&
    (n % 64 == 0 || (t.map (fun t => decide (f.value + n = t.imageLen))).getD false)

/-- IMAGE_DATA. -/
def execImageData (f : ImageFrame) (s : State) : Result :=
  let t := frameTransfer f s
  if !portUp s then finish s
  else if !frameFor 4 f.hdr then finish (discardFrame s)
  else if !dataFrameOk f t then finish (answerImage f stBadParam s)
  else match t with
    | none => finish (answerImage f stState s)
    | some t =>
      if t.erasing then finish (answerImage f stState s)
      else if t.imageLen < f.value + f.data.length then finish (answerImage f stRange s)
      else
        let x := getSlot s t.slot
        let units := chunksOf (f.data.length + 1) 64 f.data
        finish (answerImage f stOk (putSlot t.slot { x with bytes := addUnits (f.value / 64) units x.bytes } s))

/-- Whether an END or ABORT frame keeps to Table 15.8. -/
def closeFrameOk (f : ImageFrame) : Bool := !f.malformed && f.slot ≤ 1 && f.value = 0 && f.data.isEmpty

/-- IMAGE_END: the slot is verified and the transfer ends; a repeat is answered as before. -/
def execImageEnd (f : ImageFrame) (s : State) : Result :=
  if !portUp s then finish s
  else if !frameFor 4 f.hdr then finish (discardFrame s)
  else if !closeFrameOk f then finish (answerImage f stBadParam s)
  else match frameTransfer f s with
    | some t =>
      if t.erasing then finish (answerImage f stState s)
      else
        let x := judgeSlot s (getSlot s t.slot)
        let ok := x.state == 2
        let status := if ok then stOk else stDenied
        let m := nextMissing (getSlot s t.slot)
        let e : EndAnswer := { owner := t.owner, id := t.id, slot := t.slot, status := status, value := m, detail := x.detail }
        let s := putSlot t.slot x { s with aon := { s.aon with
          transfer := none, lastEnd := some e, nextSlot := if ok && s.sys.phase == .recovery then t.slot else s.aon.nextSlot } }
        finish (statusFrame f.hdr.src f.slot status f.transferId m x.detail s)
    | none =>
      match (if s.aon.transfer.isNone then s.aon.lastEnd else none) with
      | some e =>
        if e.owner = f.hdr.src && e.id = f.transferId && e.slot = f.slot then
          finish (statusFrame f.hdr.src f.slot e.status f.transferId e.value e.detail s)
        else finish (answerImage f stState s)
      | none => finish (answerImage f stState s)

/-- IMAGE_ABORT. -/
def execImageAbort (f : ImageFrame) (s : State) : Result :=
  if !portUp s then finish s
  else if !frameFor 4 f.hdr then finish (discardFrame s)
  else if !closeFrameOk f then finish (answerImage f stBadParam s)
  else match frameTransfer f s with
    | some _ =>
      let m := answerMissing s
      finish (statusFrame f.hdr.src f.slot stOk f.transferId m.1 0 (cutTransfer m.2))
    | none => finish (answerImage f stState s)

/-- TRANSFER_SILENCE: no frame from the owner for 10 s. -/
def execTransferSilence (s : State) : Result := finish (cutTransfer s)

end Sys2Proof.Machine
end

