-- ==== Sys2Proof/Machine/Reduction.lean ====
section
/-!
DEFINITION. Shared operations of the reduction contexts: the geometry of chunks (R50 to R53), slots (R49), statuses (R73),
the credit window (R55, R402), norm periods (R64), the forwarding of partials (R69), results (R71) and release (R66).
-/
namespace Sys2Proof.Machine

/-! ### Operations -/

/-- An announced operation not yet complete. -/
def liveOp (r : Rctx) (num : Nat) : Option Operation := r.ops.find? (fun o => o.num == num)

/-- The latest announcement of a number, complete or not. -/
def knownOp (r : Rctx) (num : Nat) : Option Operation := (liveOp r num).orElse (fun _ => r.past.find? (fun o => o.num == num))

/-- Operation and chunk at a position; 0xFFFF and 0xFFFFFFFF where no operation has reached it (R55). -/
def nameAt (r : Rctx) (q : Nat) : Nat × Nat :=
  match (r.ops ++ r.past).find? (fun o => o.start ≤ q && q < o.start + o.count) with
  | some o => (o.num, chunkAt r.d o q)
  | none => (0xFFFF, 0xFFFFFFFF)

/-- Positions that lie before a chunk named by a CREDIT (R402); with `incl`, those up to it. -/
def boundOf (r : Rctx) (num chunk : Nat) (incl : Bool) : Option Nat :=
  if num = 0xFFFF then none
  else match liveOp r num with
    | some o =>
      some (o.start + (ownBelow r.d.t r.d.treeSet (chunk + b2n incl) - ownBelow r.d.t r.d.treeSet (firstChunk r.d o.f)))
    | none => (r.past.find? (fun o => o.num == num && o.count == 0)).map (fun o => o.start)

/-- Whether a position lies before a bound; `none` lies after every chunk. -/
def beforeBound (q : Nat) (b : Option Nat) : Bool := (b.map (fun x => decide (q < x))).getD true

/-- The residue of PARENTS that serves a chunk; a ring has the one downstream position. -/
def residueOf (d : RDesc) (chunk : Nat) : Nat := if d.role = 4 then 0 else chunk % d.t

/-- Whether the parent has released the chunk of a position (Table 03.8). -/
def parentReleased (r : Rctx) (q chunk : Nat) : Bool :=
  match tabGet? r.credits (residueOf r.d chunk) with
  | some c => beforeBound q (boundOf r c.baseOp c.baseChunk false)
  | none => false

/-- Whether a chunk lies within the sender's limit (R402). -/
def withinLimit (r : Rctx) (q chunk : Nat) : Bool :=
  match tabGet? r.credits (residueOf r.d chunk) with
  | some c => beforeBound q (boundOf r c.limOp c.limChunk true)
  | none => false

/-! ### Names and statuses (R73, R404) -/

/-- The logical name under which a phase map of a job holds a context of this F384. -/
def reverseName (s : State) (job ctx : Nat) : Option Naming :=
  match tabGet? s.jobs job with
  | none => none
  | some j =>
    (j.phaseMaps.filterMap (fun m => (m.2.contexts.findIdx? (· == (ownAddr s, ctx))).map (fun i => { lctx := i, phase := m.1 }))).head?

/-- How a packet to a member names the context (R404, log entry 21). -/
def namingFor (s : State) (r : Rctx) (slot num : Nat) : Naming :=
  let byOp := (knownOp r num).bind (fun o => (o.announces.find? (fun a => a.slot == slot)).map (fun a => a.naming))
  (byOp.orElse (fun _ => tabGet? r.namings slot)).getD ((reverseName s r.d.job r.d.ctx).getD { lctx := r.d.ctx, phase := 0 })

/-- The address of a member slot. -/
def slotAddr (s : State) (r : Rctx) (slot : Nat) : Nat := (rankAddr s r.d.job (slotRank r.d slot)).getD 0xFFFF

/-- A short packet about the context to an enabled slot: to a member under its own name, to a peer under its context number
(R404). `body` is given the name and CTX. -/
def toSlot (r : Rctx) (slot num chunk : Nat) (body : Nat → Body) (s : State) : State :=
  let cls := (classesOf s r.d.job).reduce
  if slot < r.d.m then
    match hawserOfRank s r.d.job (slotRank r.d slot) with
    | some h =>
      let n := namingFor s r slot num
      originateMember (chunk % 8) h
        (mkPacket { ownHeader s cls r.d.job (slotAddr s r slot) with phase := n.phase, ord := true } (body n.lctx)) s
    | none => s
  else
    let p := slotPeer r.d slot
    originatePeer (chunk % 8) 0 (mkPacket { ownHeader s cls r.d.job p.1 with ord := true } (body p.2)) none s

/-- The key of a sender in `told`: a member's address, or a peer's address with its context. -/
def memberKey (addr : Nat) : Nat := addr
def peerKey (addr ctx : Nat) : Nat := addr + 2 ^ 16 * (ctx + 1)

/-- STATUS to a slot about a chunk of the context, at most one per sender and chunk (R73, R94). -/
def statusSlot (ctx slot num chunk status sent expected : Nat) (s : State) : State :=
  match tabGet? s.rctxs ctx with
  | none => s
  | some r =>
    let key := if slot < r.d.m then memberKey (slotAddr s r slot) else peerKey (slotPeer r.d slot).1 (slotPeer r.d slot).2
    if r.told.contains (key, num, chunk) then s
    else
      let s := modRctx ctx (fun r => { r with told := r.told ++ [(key, num, chunk)] }) s
      toSlot r slot num chunk (fun c => .status c num chunk status (if slot < r.d.m then 0x41 else 0x45) sent expected) s

/-! ### Credits (R55) -/

/-- A CREDIT with the latest limit and base leaves for a slot. -/
def sendCredit (ctx slot : Nat) (s : State) : State :=
  match tabGet? s.rctxs ctx with
  | none => s
  | some r =>
    if slotEnabled r slot then
      let lim := nameAt r (r.base + r.w - 1)
      let base := nameAt r r.base
      let s := modRctx ctx (fun r => { r with creditDue := r.creditDue.filter (· != slot), creditSent := tabPut r.creditSent slot (now s) }) s
      toSlot r slot lim.1 lim.2 (fun c => .credit c lim.1 lim.2 base.1 base.2) s
    else s

/-- Whether a slot may be sent a CREDIT now: none in the last 256 ns. -/
def creditOpen (s : State) (r : Rctx) (slot : Nat) : Bool :=
  ((tabGet? r.creditSent slot).map (fun t => decide (256 ≤ tideSince t (now s)))).getD true

/-- A CREDIT is due to a slot: it is sent now, or when 256 ns have passed since the last. -/
def dueCredit (ctx slot : Nat) (s : State) : State :=
  match tabGet? s.rctxs ctx with
  | none => s
  | some r =>
    if creditOpen s r slot then sendCredit ctx slot s
    else modRctx ctx (fun r => { r with creditDue := if r.creditDue.contains slot then r.creditDue else r.creditDue ++ [slot] }) s

/-- Enabled slots in order. -/
def enabledSlots (r : Rctx) : List Nat := (List.range r.d.slots).filter (slotEnabled r)

/-- CREDIT to every enabled slot, b having advanced. -/
def creditAll (ctx : Nat) (s : State) : State :=
  match tabGet? s.rctxs ctx with
  | none => s
  | some r => (enabledSlots r).foldl (fun s i => dueCredit ctx i s) s

/-! ### Announcements (R52, R53, R88, R401) -/

/-- Whether the linked optimizer context serves an operation (R88). -/
def servesOp (s : State) (r : Rctx) (num f k : Nat) : Bool :=
  match r.octx.bind (tabGet? s.octxs) with
  | none => true
  | some o =>
    match o.d.segments.find? (fun g => g.opNum == num) with
    | some g => g.records == localElems r.d f k
    | none => false

/-- A new operation, or the status that refuses it. `count` 0 is an operation of R401. -/
def addOperation (ctx num f k : Nat) (s : State) : Nat × State :=
  match tabGet? s.rctxs ctx with
  | none => (stState, s)
  | some r =>
    let n := positionsOf r.d f k
    let o : Operation := { num := num, f := f, k := k, start := r.nextPos, count := n, announces := [] }
    let fresh_ (r : Rctx) : Rctx := { r with told := r.told.filter (fun x => x.2.1 != num) }
    if n = 0 then
      (stOk, modRctx ctx (fun r => { fresh_ r with past := r.past.filter (fun p => p.num != num) ++ [o] }) (forgetTold r.d.job num s))
    else if 8 ≤ r.ops.length then (stNoResource, s)
    else if !servesOp s r num f k then (stBadParam, s)
    else
      let s := modRctx ctx (fun r =>
        { fresh_ r with ops := r.ops ++ [o], nextPos := r.nextPos + n, state := if r.state = .idle then .running else r.state })
          (forgetTold r.d.job num s)
      (stOk, ((enabledSlots r).filter (fun i => r.d.m ≤ i)).foldl (fun s i => dueCredit ctx i s) s)

/-- The operation that an announcement of these values meets: known and agreeing, or to be added. R52's tests. -/
def announceOp (ctx num f k : Nat) (s : State) : Nat × State :=
  match tabGet? s.rctxs ctx with
  | none => (stState, s)
  | some r =>
    if f % r.d.elems != 0 || k < 1 || 2 ^ 40 < f + k then (stBadParam, s)
    else
      let old := (liveOp r num).orElse (fun _ => r.past.find? (fun o => o.num == num && o.count == 0))
      match old with
      | some o => (if o.f = f && o.k = k then stOk else stBadParam, s)
      | none => addOperation ctx num f k s

/-! ### Contributions (R58, R59) -/

def Contribution.empty (step epoch : Nat) : Contribution :=
  { pkts := [], scale := none, desc := none, present := false, folded := false, step := step, epoch := epoch }


/-- Whether every expected contribution is present. -/
def allPresent (r : Rctx) (p : Position) : Bool := (expectedSlots r p.chunk).all (fun i => (presentSlots p).contains i)

/-- R59: a position that is open, or whose tallies are folded again, is ready for a fold batch. -/
def foldReady (r : Rctx) (p : Position) : Bool :=
  (p.state == .opened || p.again) && !(unfoldedSlots p).isEmpty &&
    (32 ≤ (unfoldedSlots p).length || allPresent r p || p.softFired)

/-- The tide count at which R59 first held is kept while it holds. -/
def noteReady (t : Tide) (r : Rctx) (p : Position) : Position :=
  { p with readyAt := if foldReady r p then some (p.readyAt.getD t) else none }

/-- A reason for the deck to work wakes it (R322). -/
def deckReason (s : State) : State :=
  if s.deck.power.idle then { s with deck := { s.deck with power := { s.deck.power with waking := true } } } else s

/-! ### Norm periods (R64) -/

/-- Key of the sum's dot berth, above every slot. -/
def sumKey : Nat := 512

/-- Whether the context's norm periods are steps. -/
def stepPeriods (r : Rctx) : Bool := r.octx.isSome || r.d.stepped

/-- Whether the context checks STEP (R93). -/
def checksStep (r : Rctx) : Bool := stepPeriods r

/-- The period a position belongs to. -/
def periodOf (r : Rctx) (p : Position) : Nat := if stepPeriods r then p.step else p.op

/-- The open period closes: its dot tallies are kept as a snapshot, the last two of which are held. -/
def closePeriod (r : Rctx) : Rctx :=
  match r.period with
  | none => r
  | some k =>
    { r with period := none, dots := [],
             snapshots := ({ stepPeriod := stepPeriods r, period := k, dots := r.dots } :: r.snapshots).take 2 }

/-- The open step period of a LEAF or INTERIOR context closes once no open position carries its STEP and a chunk of a later STEP is
ready for its first fold batch (R64). -/
def closeIfDue (r : Rctx) : Rctx :=
  match r.period with
  | none => r
  | some k =>
    if r.octx.isNone && r.d.stepped && r.positions.all (fun x => (presentSlots x.2).isEmpty || x.2.step != k) &&
        r.positions.any (fun x => foldReady r x.2 && (foldedSlots x.2).isEmpty && decide (k < x.2.step)) then closePeriod r
    else r

/-- A ready fold batch wakes the deck, and with DEEP the stack of its berths (R57, R322). -/
def foldReason (ctx q : Nat) (s : State) : State :=
  let s := deckReason s
  if ((tabGet? s.rctxs ctx).map (fun r => r.d.deep)).getD false then touchStack (q % 8) s else s

/-- A position changed: a ready fold batch wakes what it needs, and a norm period may close. -/
def putPosition (ctx q : Nat) (p : Position) (s : State) : State :=
  modRctx ctx (fun r => closeIfDue { r with positions := tabPut r.positions q p }) (if p.readyAt.isSome then foldReason ctx q s else s)

/-- A position that opens now (R58). -/
def Position.openAt (t : Tide) (num chunk : Nat) : Position :=
  { op := num, chunk := chunk, state := .opened, openTide := t, step := 0, epoch := 0, contribs := [], trailers := [],
    lateTrailer := false, softFired := false, readyAt := none, berths := [], cond := 0, values := 0, sweeping := false,
    held := false, queued := false, emitLeft := 0, emitBegun := false, refused := false, dots := [], digest := none,
    again := false, resendDue := false }

/-! ### Elements of a contribution (R50, R51, R69, Table 03.10) -/

/-- The data packets' bytes in order. -/
def dataBytes (c : Contribution) (from_ n len : Nat) : List Byte :=
  (((List.range n).map (fun i => fit 4096 (tabGet c.pkts (from_ + i) []))).flatten).take len

/-- Elements with their scale bytes: a member's rows, or a partial's one byte an element. -/
def contribElems (d : RDesc) (chunk n : Nat) (member : Bool) (c : Contribution) : List (Nat × Nat) :=
  let eb := elemBytes d.fmt
  let np := dataPackets (n * eb)
  let data := dataBytes c 0 np (n * eb)
  let scales := if !isScaled d.fmt then []
    else if member then
      let sc := c.scale.getD []
      (List.range n).map (fun i => (sc.getD ((chunk * d.elems + i) / 2 ^ d.rowLog2 - (rowsOf d chunk n).1) 0).toNat)
    else (dataBytes c np (ceilDiv n 4096) n).map (·.toNat)
  (List.range n).map (fun i => (field data (eb * i) eb, scales.getD i 0x7F))

/-- The tallies of a tally-form partial (Table 03.10). -/
def contribTallies (n : Nat) (c : Contribution) : List (Tally 320) :=
  (List.range n).map (fun i =>
    let p := tabGet c.pkts (i / 64) []
    Tally.ofBytes 320 (bytesAt p (40 * (i % 64)) 40) (field p (2560 + i % 64) 1))

/-- The squares of a member's elements admitted into its dot tally (R63). -/
def squares (trunc : Bool) (fmt : Nat) (t : Tally 640) (es : List (Nat × Nat)) : Tally 640 :=
  es.foldl (fun t e => let v := elemVal fmt e.1 e.2; admitTerm dotWindow t (mulVal trunc v v)) t

/-- A slot's contribution folded into a position's berths (R61, R62, R70). -/
def foldSlot (trunc : Bool) (r : Rctx) (n : Nat) (p : Position) (slot : Nat) : Position :=
  let d := r.d
  let c := tabGet p.contribs slot (Contribution.empty 0 0)
  let bs := if p.berths.isEmpty then List.replicate n Berth.empty else p.berths
  let p := { p with contribs := tabPut p.contribs slot { c with folded := true } }
  if slot < d.m then
    let es := contribElems d p.chunk n true c
    let dots := if d.norm then tabPut p.dots slot (squares trunc d.fmt (tabGet p.dots slot (Tally.zero 640)) es) else p.dots
    { p with berths := bs.zipWith (fun b e => foldElem d.op d.fmt b e.1 e.2) es, values := p.values + 1, dots := dots }
  else
    let x := c.desc.getD { opNum := 0, form := 0, fmt := 0, chunk := 0, elements := 0, values := 0, cond := 0, opFirst := 0,
                           opCount := 0, rsvd := false }
    let bs' := if formOf d.op = 0 then bs.zipWith foldTally (contribTallies n c)
      else bs.zipWith (fun b e => foldElem d.op d.fmt b e.1 e.2) (contribElems d p.chunk n false c)
    { p with berths := bs', values := p.values + x.values, cond := p.cond ||| BitVec.ofNat 16 x.cond }

/-- Whether a fold batch of a position may start under R64. -/
def periodAllows (s : State) (r : Rctx) (p : Position) : Bool :=
  if !r.d.norm then true
  else match r.octx.bind (tabGet? s.octxs) with
    | some o => decide (p.step ≤ o.s + 1) || r.period.isNone
    | none =>
      if r.d.stepped then r.positions.all (fun x => (presentSlots x.2).isEmpty || decide (p.step ≤ x.2.step))
      else r.ops.all (fun o => o.num == p.op || ((liveOp r p.op).map (fun x => decide (x.start < o.start))).getD true)

/-- The period a fold batch opens; an earlier one closes first. A linked root measures the open step's period (log entry 37). -/
def openPeriod (s : State) (r : Rctx) (p : Position) : Rctx :=
  if !r.d.norm then r
  else match r.octx.bind (tabGet? s.octxs) with
  | some o => if p.step = o.s + 1 then { r with period := some p.step } else r
  | none =>
    let r := match r.period with
      | some k => if k = periodOf r p then r else closePeriod r
      | none => r
    { r with period := some (periodOf r p) }

/-! ### Trailers and digests (R155) -/

/-- The chunk's contributor digest: its enabled slots' entries, absent ones zero, as it was formed at emission. -/
def contribDigest (r : Rctx) (p : Position) : List Byte :=
  p.digest.getD <| sha3 ((expectedSlots r p.chunk).map (fun i => fit 64 (tabGet p.trailers i []))).flatten

/-! ### Forwarded partials (R69, R93, R155) -/

/-- The conditions of an element of a partial (Table 02.6): those of its tally, and whether it is NaN; of a winning element also
whether it is an infinity, and none of an INT32 one (R36). A tally's infinity is no condition yet: by R28 the result's word may not
depend on the tree. -/
def partialCond (fmt : Nat) (b : Berth) : Cond :=
  match b with
  | .sum t => { t.cond with nan := t.nan || (t.pinf && t.ninf) }
  | .extremum e sc nan =>
    if !isFloat fmt then Cond.none else
    let v := elemVal fmt e sc
    { Cond.none with nan := nan || v == .nan, inf := !nan && (v == .inf false || v == .inf true) }
  | _ => Cond.none

/-- The descriptor of a position's partial (Table 03.9). -/
def partialDesc (r : Rctx) (o : Operation) (p : Position) : List Byte :=
  let c := (p.berths.map (partialCond r.d.fmt)).foldl Cond.or Cond.none
  fit 64 (le 2 p.op ++ le 1 (formOf r.d.op) ++ le 1 r.d.fmt ++ le 4 p.chunk ++ le 4 (chunkElems r.d o p.chunk) ++ le 4 p.values ++
    le 2 (p.cond ||| c.word false).toNat ++ zeros 6 ++ le 8 o.f ++ le 8 o.k)

/-- Bytes cut into packets of 4,096, each padded to whole units. -/
def dataPayloads (bs : List Byte) : List (List Byte) :=
  (chunksOf (bs.length / 4096 + 1) 4096 bs).map (fun b => fit (roundUp b.length 64) b)

/-- The data packets' payloads of a position's partial. -/
def partialData (r : Rctx) (p : Position) : List (List Byte) :=
  if formOf r.d.op = 0 then
    let ts := p.berths.map (fun b => match b with | .sum t => t | _ => Tally.zero 320)
    (chunksOf (ts.length + 1) 64 ts).map (fun g =>
      fit 2560 (g.map Tally.bytes).flatten ++ fit 64 (g.map (fun t => BitVec.ofNat 8 t.flags)))
  else
    let ws := p.berths.map (berthWinner r.d.fmt)
    dataPayloads (ws.map (fun w => le (elemBytes r.d.fmt) w.1)).flatten ++
      (if isScaled r.d.fmt then dataPayloads (ws.map (fun w => BitVec.ofNat 8 w.2)) else [])

/-- A long packet of the context with a payload of whole units. -/
def longPacket (hdr : Header) (kind : Nat) (h : LongHdr) (payload : List Byte) : Packet :=
  mkPacket hdr (.long kind { h with units := payload.length / 64, tail := 64 } payload)

/-- The packets of a partial, in order: trailer, descriptor, data. -/
def partialPackets (s : State) (r : Rctx) (o : Operation) (p : Position) : List Packet :=
  let pa := parentOf r.d p.chunk
  let hdr := { ownHeader s (classesOf s r.d.job).reduce r.d.job pa.1 with epoch := p.epoch }
  let h : LongHdr := { LongHdr.zero with ctx := pa.2, opNum := p.op, chunk := p.chunk, cond := r.d.ctx, fmt := r.d.fmt,
                                         step := if checksStep r then p.step else 0 }
  longPacket hdr 0x43 h (contribDigest r p) :: longPacket { hdr with ord := true } 0x44 h (partialDesc r o p) ::
    (partialData r p).zipIdx.map (fun b => longPacket hdr 0x45 { h with pkt := b.2 } b.1)

/-- The partial of a position enters its source towards the parent; `tag` counts it for emission. -/
def forwardPartial (ctx q : Nat) (tag : Option EmitTag) (s : State) : State :=
  match tabGet? s.rctxs ctx with
  | none => s
  | some r =>
    match tabGet? r.positions q with
    | none => s
    | some p =>
      match knownOp r p.op with
      | none => s
      | some o => (partialPackets s r o p).foldl (fun s k => originatePeer (p.chunk % 8) 0 k tag s) s

/-- A partial is sent again (R56, R78), or, while its tallies are folded again, once that is done. -/
def sendAgain (ctx q : Nat) (s : State) : State :=
  if (((tabGet? s.rctxs ctx).bind (fun r => tabGet? r.positions q)).map (fun p => p.again)).getD false then
    modRctx ctx (fun r => { r with positions := tabMod r.positions q (fun p => { p with resendDue := true }) }) s
  else forwardPartial ctx q none s

/-- A chunk's tallies have been folded again (R65): nothing of its emission is repeated but a partial asked for meanwhile. -/
def finishAgain (ctx q : Nat) (s : State) : State :=
  let due := (((tabGet? s.rctxs ctx).bind (fun r => tabGet? r.positions q)).map (fun p => p.resendDue)).getD false
  let s := modRctx ctx (fun r => { r with positions := tabMod r.positions q (fun p => { p with again := false, resendDue := false }) }) s
  if due then forwardPartial ctx q none s else s

/-- Emission of a position with n packets that have to leave. None: emitted at once (Table 03.8). -/
def beginEmission (ctx q n : Nat) (s : State) : State :=
  modRctx ctx (fun r =>
    match tabGet? r.positions q with
    | none => r
    | some p =>
      let r := if n = 0 && !p.emitBegun then mergeDots p r else r
      let p := if n = 0 then { p with state := .emitted, emitBegun := true, dots := [] } else { p with emitLeft := n }
      { r with positions := tabPut r.positions q p }) s

/-! ### Results (R71, R80, R182, R185) -/

/-- LANDING for a chunk's result or gather image to a member (R185). -/
def chunkLanding (s : State) (hdr : Header) (n : Naming) (num chunk base len : Nat) : Packet :=
  mkPacket { ownHeader s hdr.cls hdr.job hdr.dst with phase := n.phase, tag := hdr.tag } (.landing 0 n.lctx chunk base len num)

/-- The ring's next position takes a chunk's result unless it is the chunk's root (R80). -/
def ringOnward (d : RDesc) (chunk : Nat) : Bool := d.role == 4 && (d.ringPos + 1) % d.ringSize != chunk % d.ringSize

/-- Peers that take a chunk's result or image from here: enabled children, or the next ring position. -/
def downPeers (r : Rctx) (chunk : Nat) : List (Nat × Nat) :=
  if r.d.role = 4 then (if ringOnward r.d chunk then [(r.d.ringNext, r.d.ringNextCtx)] else [])
  else (List.range r.d.c).filterMap (fun i => if r.enabled.testBit (r.d.m + i) then r.d.children[i]? else none)

/-- Members that take a chunk's result: enabled and announced, with hawser, address and result base. -/
def resultMembers (s : State) (r : Rctx) (o : Operation) : List (Nat × Nat × Nat) :=
  (List.range r.d.m).filterMap (fun i =>
    if r.enabled.testBit i then
      match o.announces.find? (fun a => a.slot == i), hawserOfRank s r.d.job (slotRank r.d i) with
      | some a, some h => some (i, h, a.resultBase)
      | _, _ => none
    else none)

/-- The replicas of result packet k of a chunk: every local member, then the peers below. -/
def resultReplicas (s : State) (r : Rctx) (o : Operation) (chunk k : Nat) (payload : List Byte) (last : Bool) (cond : BitVec 16) :
    List Replica :=
  let cls := (classesOf s r.d.job).reduce
  let rsz := elemBytes r.d.resultFmt
  let l := originLanding s (chunk % 8)
  let h : LongHdr := { LongHdr.zero with opNum := o.num, pkt := k, chunk := chunk, cond := cond.toNat, fmt := r.d.resultFmt }
  (resultMembers s r o).map (fun m =>
    let n := namingFor s r m.1 o.num
    let base := m.2.2 + (chunk * r.d.elems - o.f) * rsz
    let hdr := { ownHeader s cls r.d.job (slotAddr s r m.1) with phase := n.phase, last := last, notifyDst := last }
    { dest := .hawser m.2.1, pkt := longPacket hdr 0x46 { h with ctx := n.lctx, addr := base + 4096 * k } payload,
      follow := if last then some (chunkLanding s hdr n o.num chunk base (chunkElems r.d o chunk * rsz)) else none }) ++
  (downPeers r chunk).map (fun p =>
    { dest := .crossing p.1 l 0, follow := none,
      pkt := longPacket { ownHeader s cls r.d.job p.1 with last := last, egress := p.1 } 0x46 { h with ctx := p.2 } payload })

/-- Result packet k of a chunk enters its source as one multicast (R71). -/
def sendResult (ctx : Nat) (o : Operation) (chunk k : Nat) (payload : List Byte) (last : Bool) (cond : BitVec 16)
    (tag : Option EmitTag) (s : State) : State :=
  match tabGet? s.rctxs ctx with
  | none => s
  | some r =>
    let reps := resultReplicas s r o chunk k payload last cond
    match reps with
    | [] => s
    | x :: _ => originateReps (chunk % 8) x.pkt reps tag s

/-- Replicas of one result packet. -/
def resultFanout (s : State) (r : Rctx) (o : Operation) (chunk : Nat) : Nat :=
  (resultMembers s r o).length + (downPeers r chunk).length

/-- The rounded result of a complete chunk (R71) with its condition word, and the sum's dot tally (R63). -/
def roundChunk (trunc : Bool) (r : Rctx) (p : Position) : List Nat × BitVec 16 :=
  let rs := p.berths.map (berthResult r.d.op r.d.fmt r.d.resultFmt)
  (rs.map Prod.fst, p.cond ||| ((rs.map Prod.snd).foldl Cond.or Cond.none).word trunc)

def sumSquares (trunc : Bool) (p : Position) : Tally 640 :=
  p.berths.foldl (fun t b =>
    match b with
    | .sum x => let v := decodeElem fp32 (sumResult x fp32).1; admitTerm dotWindow t (mulVal trunc v v)
    | _ => t) (Tally.zero 640)

/-- A complete chunk of an unlinked root is rounded and sent down the tree. -/
def emitResult (ctx q : Nat) (s : State) : State :=
  match tabGet? s.rctxs ctx with
  | none => s
  | some r =>
    match tabGet? r.positions q with
    | none => s
    | some p =>
      match knownOp r p.op with
      | none => s
      | some o =>
        let x := roundChunk s.deck.trunc r p
        let pays := dataPayloads (x.1.map (le (elemBytes r.d.resultFmt))).flatten
        let dots := if r.d.norm then tabPut p.dots sumKey (sumSquares s.deck.trunc p) else p.dots
        let s := putPosition ctx q { p with cond := x.2, dots := dots } s
        let s := beginEmission ctx q (pays.length * resultFanout s r o p.chunk) s
        pays.zipIdx.foldl (fun s b =>
          sendResult ctx o p.chunk b.2 b.1 (b.2 + 1 == pays.length) x.2 (some { rctx := ctx, pos := some q }) s) s

/-! ### Release (R66, R150) -/

/-- The leaf of a released chunk of a LEAF or INTERIOR context (R156). -/
def partialLeaf (r : Rctx) (o : Operation) (p : Position) : Leaf :=
  { opNum := p.op, chunk := p.chunk, step := p.step,
    cond := BitVec.ofNat 16 (field (partialDesc r o p) 16 2),
    result := sha3 (partialDesc r o p ++ (partialData r p).flatten), state := [], contrib := sha3 (contribDigest r p) }

/-- b moves past every released position (R66); the window is frozen while the context is STOPPED (R74). -/
def advanceBase : Nat → Rctx → Rctx
  | 0, r => r
  | n + 1, r =>
    if r.released.contains r.base then advanceBase n { r with base := r.base + 1, released := r.released.filter (· != r.base) }
    else r

/-- Whether every position of an operation has been released. -/
def opReleased (r : Rctx) (o : Operation) : Bool :=
  (List.range o.count).all (fun i => o.start + i < r.base || r.released.contains (o.start + i))

/-- Operations all of whose positions are released are complete; an operation period closes with them (R64). -/
def retireOps (r : Rctx) : Rctx :=
  let done := r.ops.filter (opReleased r)
  let r := if !stepPeriods r && done.any (fun o => r.period == some o.num) then closePeriod r else r
  let ops := r.ops.filter (fun o => !opReleased r o)
  { r with ops := ops, past := r.past.filter (fun o => !done.any (fun x => x.num == o.num)) ++ done,
           state := if r.state = .running && ops.isEmpty then .idle else r.state }

/-- The window moves on and its CREDITs fall due. -/
def advanceWindow (ctx : Nat) (s : State) : State :=
  match tabGet? s.rctxs ctx with
  | none => s
  | some r =>
    if r.state = .stopped then s
    else
      let r' := retireOps (advanceBase r.released.length r)
      let s := modRctx ctx (fun _ => r') s
      if r'.base = r.base then s else creditAll ctx s

/-- A position is released: its staging, berths and entry are free. -/
def releasePosition (ctx q : Nat) (s : State) : State :=
  match tabGet? s.rctxs ctx with
  | none => s
  | some r =>
    match tabGet? r.positions q with
    | none => s
    | some p =>
      let leaf := match knownOp r p.op with
        | some o => if r.d.role ≤ 1 then [partialLeaf r o p] else []
        | none => []
      advanceWindow ctx (modRctx ctx (fun r =>
        { r with positions := tabDel r.positions q, released := r.released ++ [q], leaves := r.leaves ++ leaf }) s)

/-! ### Completion (R71, R94, R95) -/

def recordSize (d : ODesc) : Nat := if d.rule = 0 then 8 else 12

/-- From a record in bank 0 to the same record in bank 1. -/
def bankSpan : Nat := 240 * 2 ^ 30

def segAt (d : ODesc) (i : Nat) : Segment := d.segments.getD i { opNum := 0, records := 0, base := 0 }

/-- Address of record k of a segment in a bank. -/
def recordAddr (d : ODesc) (g : Segment) (k b : Nat) : Nat := g.base + k * recordSize d + b % 2 * bankSpan

/-- The records of a local chunk in a bank: first byte and length. -/
def chunkRange (r : Rctx) (d : ODesc) (seg j b : Nat) : Nat × Nat :=
  let g := segAt d seg
  (recordAddr d g (j * r.d.elems) b, min r.d.elems (g.records - j * r.d.elems) * recordSize d)

/-- Whether a stack holds a byte of a range. -/
def inRange (x : Nat × Nat) (k : Nat) : Bool := x.2 != 0 && stackOf x.1 ≤ k && k ≤ stackOf (x.1 + x.2 - 1)

/-- An access to a range of the state area: its stacks are busy, and wake (R321, R322). -/
def touchRange (x : Nat × Nat) (s : State) : State := (List.range 8).foldl (fun s k => if inRange x k then touchStack k s else s) s

/-- The chunk state of a linked chunk: segment index and local chunk. -/
def segmentOf (r : Rctx) (o : Octx) (op : Operation) (chunk : Nat) : Option (Nat × Nat) :=
  (o.d.segments.findIdx? (fun g => g.opNum == op.num)).map (fun i => (i, localChunk r.d op.f chunk))

def chunkKey (seg j : Nat) : Nat := seg * 2 ^ 40 + j

def ChunkEntry.none : ChunkEntry := { valid := false, visible := false, step := 0, digest32 := [], cond := 0 }
def ChunkState.zero : ChunkState := { bank0 := ChunkEntry.none, bank1 := ChunkEntry.none, written := false }
def ChunkState.bank (c : ChunkState) (b : Nat) : ChunkEntry := if b % 2 = 0 then c.bank0 else c.bank1
def ChunkState.setBank (c : ChunkState) (b : Nat) (e : ChunkEntry) : ChunkState :=
  if b % 2 = 0 then { c with bank0 := e } else { c with bank1 := e }

/-- A chunk as the host loads it (R92): version STEP alone, in its bank. Its digest and word are formed with its first image
(log entry 23). -/
def ChunkState.loaded (step : Nat) : ChunkState :=
  ChunkState.zero.setBank step { valid := true, visible := true, step := step, digest32 := [], cond := 0x0100 }

/-- A chunk's entries; one not listed is as loaded. -/
def getChunk (o : Octx) (seg j : Nat) : ChunkState := tabGet o.chunks (chunkKey seg j) (ChunkState.loaded o.d.step)

/-- A position waits, held (R94). -/
def holdPosition (ctx q : Nat) (s : State) : State :=
  modRctx ctx (fun r => { r with positions := tabMod r.positions q (fun p => { p with held := true }) }) s

/-- Statuses of a complete chunk to every slot that contributed (R94, R95). -/
def tellContributors (ctx q status sent expected : Nat) (s : State) : State :=
  match (tabGet? s.rctxs ctx).bind (fun r => tabGet? r.positions q) with
  | none => s
  | some p => (presentSlots p).foldl (fun s i => statusSlot ctx i p.op p.chunk status sent expected s) s

/-- A complete chunk of a linked root against the open step (R94, R95). -/
def placeChunk (ctx q : Nat) (s : State) : State :=
  match tabGet? s.rctxs ctx with
  | none => s
  | some r =>
    match tabGet? r.positions q, r.octx.bind (tabGet? s.octxs) with
    | some p, some o =>
      let seg := (knownOp r p.op).bind (fun op => segmentOf r o op p.chunk)
      let written := (seg.map (fun g => (getChunk o g.1 g.2).written)).getD false
      let runs := o.state == .opened || o.state == .committing
      if p.step = o.s + 1 && written then
        releasePosition ctx q (tellContributors ctx q stState 0 0 (countJob r.d.job 14 s))
      else if p.step = o.s + 1 && o.confirmed && runs then
        let s := putPosition ctx q { p with held := false, queued := true } s
        let s := touchRange ((seg.map (fun g => chunkRange r o.d g.1 g.2 o.s)).getD (0, 0)) s
        deckReason { s with deck := { s.deck with queue := s.deck.queue ++ [{ at_ := now s, sweep := .update ctx q }] } }
      else if p.step = o.s + 1 then holdPosition ctx q s
      else tellContributors ctx q stStep p.step (o.s + 1) (holdPosition ctx q s)
    | _, _ => s

/-- A chunk with every expected contribution folded is complete (R71, Table 03.2). -/
def completeChunk (ctx q : Nat) (s : State) : State :=
  match tabGet? s.rctxs ctx with
  | none => s
  | some r =>
    match tabGet? r.positions q with
    | none => s
    | some p =>
      let s := putPosition ctx q { p with state := .complete, readyAt := none,
                                          digest := if isRootOf r.d p.chunk then none else some (contribDigest r p) } s
      if !isRootOf r.d p.chunk then
        match knownOp r p.op with
        | some o => forwardPartial ctx q (some { rctx := ctx, pos := some q }) (beginEmission ctx q (partialPackets s r o p).length s)
        | none => s
      else if r.octx.isSome then placeChunk ctx q s
      else emitResult ctx q s

/-- Held chunks are compared again with the open step, lowest position first (R94). -/
def recheckHeld (ctx : Nat) (s : State) : State :=
  match tabGet? s.rctxs ctx with
  | none => s
  | some r => (r.positions.filter (fun p => p.2.held)).foldl (fun s p => placeChunk ctx p.1 s) s

end Sys2Proof.Machine
end

