-- ==== Sys2Proof/Machine/Contributions.lean ====
section
/-!
DEFINITION. What a reduction context does with each packet delivered to it: CONTRIBUTE (R52, R401), contributions and forwarded
partials (Table 03.11, R93, R124, R155), CREDIT (R55, R402), RESEND (R78), STATUS (R56), RING_STOP (R82) and RESULT (R71).
-/
namespace Sys2Proof.Machine

/-- Who sent a packet: a local member's hawser with the name it gave the context, or a peer F384. -/
inductive Sender where
  | member (hawser : Nat) (n : Naming)
  | peer
  deriving DecidableEq, Repr

/-- The sender's slot (R49): by rank, or by SRC and SRC_CTX. -/
def senderSlot (r : Rctx) (who : Sender) (p : Packet) : Option Nat :=
  if p.hdr.job != r.d.job then none
  else match who with
    | .member _ _ => slotOfRank r.d p.hdr.srcRank
    | .peer => slotOfPeer r.d p.hdr.src (longHdr p).cond

/-- STATUS in answer to a packet (R73, R169, R404). -/
def statusBack (who : Sender) (p : Packet) (status sent expected : Nat) (s : State) : State :=
  match who with
  | .member h n => statusToMember h p n.lctx n.phase status sent expected s
  | .peer => originatePeer ((pktNames p).2.2 % 8) p.hdr.lane (statusPacket s p (longHdr p).cond 0 status sent expected) none s

/-- STATUS for a contribution, at most one per sender and chunk (R73): noted in the context, or, where the packet meets none of its job,
in `Net.told`. -/
def statusOnce (who : Sender) (p : Packet) (status sent expected : Nat) (s : State) : State :=
  let n := pktNames p
  let key := match who with
    | .member _ _ => memberKey p.hdr.src
    | .peer => peerKey p.hdr.src (longHdr p).cond
  let k : Told := match who with
    | .member h m => { sender := h, job := p.hdr.job, ctx := m.lctx, phase := m.phase, opNum := n.2.1, chunk := n.2.2 }
    | .peer => { sender := 2 ^ 16 + p.hdr.src, job := p.hdr.job, ctx := (longHdr p).cond, phase := 0, opNum := n.2.1, chunk := n.2.2 }
  let met := ((tabGet? s.rctxs n.1).map (fun r => decide (r.d.job = p.hdr.job))).getD false
  let seen := if met then ((tabGet? s.rctxs n.1).map (fun r => r.told.contains (key, n.2.1, n.2.2))).getD false
    else s.net.told.contains k
  if seen then s
  else statusBack who p status sent expected
    (if met then modRctx n.1 (fun r => { r with told := r.told ++ [(key, n.2.1, n.2.2)] }) s
     else { s with net := { s.net with told := s.net.told ++ [k] } })

/-- A contribution packet meets a row of Table 03.11: counted, and answered where the row gives a status. -/
def dispose (row : Nat) (status : Option Nat) (who : Sender) (p : Packet) (sent expected : Nat) (s : State) : State :=
  let s := countJob p.hdr.job row s
  match status with
  | some st => statusOnce who p st sent expected s
  | none => s

/-! ### Layout epochs (R124) -/

/-- How a packet's layout epoch stands at a context linked to an optimizer context. -/
inductive EpochVerdict where
  | accepted | stale | refused
  deriving DecidableEq, Repr

def epochVerdict (o : Octx) (epoch : Nat) (data : Bool) : EpochVerdict :=
  if data && o.state == .fenced then .refused
  else if epoch = o.epoch then .accepted
  else if o.fenceActive && epoch = (o.epoch + 15) % 16 then .stale
  else .refused

/-- The optimizer context a reduction context is linked to, with its number. -/
def linkedOctx (s : State) (r : Rctx) : Option (Nat × Octx) := r.octx.bind (fun n => (tabGet? s.octxs n).map (fun x => (n, x)))

/-- How a data packet's layout epoch stands; a context without an optimizer context does not check it. -/
def packetVerdict (linked : Option (Nat × Octx)) (p : Packet) : EpochVerdict :=
  (linked.map (fun x => epochVerdict x.2 p.hdr.epoch true)).getD .accepted

/-- A packet of the previous epoch after a fence: counted, and STALE_EPOCH once per fence. -/
def noteStale (octx ctx : Nat) (p : Packet) (s : State) : State :=
  let s := countJob p.hdr.job 13 s
  match tabGet? s.octxs octx with
  | none => s
  | some o =>
    if o.staleRaised then s
    else raiseEvent 0x0074 (some p.hdr.job) (le 2 ctx ++ le 1 p.hdr.epoch ++ zeros 1 ++ le 2 p.hdr.src)
      (modOctx octx (fun o => { o with staleRaised := true }) s)

/-! ### Shape of a packet (Table 03.11, last row) -/

/-- A descriptor's fields (Table 03.9). -/
def parseDesc (b : List Byte) : PDesc :=
  { opNum := field b 0 2, form := field b 2 1, fmt := field b 3 1 % 16, chunk := field b 4 4, elements := field b 8 4,
    values := field b 12 4, cond := field b 16 2, opFirst := field b 24 8, opCount := field b 32 8, rsvd := false }

/-- Whether a packet's index, length and fields match its chunk. -/
def shapeOk (r : Rctx) (o : Operation) (chunk : Nat) (member : Bool) (p : Packet) : Bool :=
  let h := longHdr p
  let n := chunkElems r.d o chunk
  let bytes := n * elemBytes r.d.fmt
  let np := dataPackets bytes
  let rows := (rowsOf r.d chunk n).2
  let full := h.tail == 64
  match pktKind p with
  | 0x41 => member && full && h.pkt < np && h.units == packetLen bytes h.pkt
  | 0x42 => member && full && isScaled r.d.fmt && h.units == ceilDiv rows 64
  | 0x43 => full && h.units == 1
  | 0x44 =>
    let x := parseDesc (payloadOf p)
    !member && full && h.units == 1 && x.opNum == o.num && x.form == formOf r.d.op && x.chunk == chunk && x.elements == n &&
      1 ≤ x.values && x.values ≤ 65536 && x.opFirst == o.f && x.opCount == o.k
  | 0x45 =>
    !member && full &&
      (if formOf r.d.op = 0 then h.pkt < ceilDiv n 64 && h.units == 41
       else (h.pkt < np && h.units == packetLen bytes h.pkt) ||
        (formOf r.d.op == 1 && isScaled r.d.fmt && np ≤ h.pkt && h.pkt - np < ceilDiv n 4096 && h.units == packetLen n (h.pkt - np)))
  | _ => false

/-- The format code a packet names: a descriptor names it twice (R70). -/
def formatOk (r : Rctx) (p : Packet) : Bool :=
  pktKind p == 0x43 ||
    ((longHdr p).fmt == r.d.fmt && (pktKind p != 0x44 || (parseDesc (payloadOf p)).fmt == r.d.fmt))

/-- Whether all packets of a contribution have been written (R58). -/
def contribWhole (r : Rctx) (n : Nat) (member : Bool) (c : Contribution) : Bool :=
  let np := dataPackets (n * elemBytes r.d.fmt)
  let has (k : Nat) : Bool := (List.range k).all (fun i => tabHas c.pkts i)
  if member then has np && (!isScaled r.d.fmt || c.scale.isSome)
  else c.desc.isSome &&
    has (if formOf r.d.op = 0 then ceilDiv n 64 else if formOf r.d.op = 1 && isScaled r.d.fmt then np + ceilDiv n 4096 else np)

/-! ### Staging (R58, R72) -/

/-- A slot's contribution treated as not arrived. -/
def dropContribution (ctx q slot : Nat) (s : State) : State :=
  modRctx ctx (fun r => { r with positions := tabMod r.positions q (fun p => { p with contribs := tabDel p.contribs slot }) }) s

/-- A contribution with one more packet. -/
def Contribution.stage (c : Contribution) (p : Packet) : Contribution :=
  match pktKind p with
  | 0x42 => { c with scale := some (payloadOf p) }
  | 0x44 => { c with desc := some (parseDesc (payloadOf p)) }
  | _ => { c with pkts := tabPut c.pkts (longHdr p).pkt (payloadOf p) }

/-- The step a contribution is held to: that of the first present one, or of the slot's own earlier packets. -/
def expectedStep (p : Position) (slot : Nat) : Option Nat :=
  if (presentSlots p).isEmpty then (tabGet? p.contribs slot).map (fun c => c.step) else some p.step

/-- The values that a position's present contributions bring to a tally: one each, and a partial's VALUES (R27, R70). -/
def presentValues (p : Position) : Nat :=
  (p.contribs.map (fun c => if c.2.present then (c.2.desc.map (fun d => d.values)).getD 1 else 0)).sum

/-- An accepted packet is written to the pontoon; the contribution it completes is present, and READY is judged again. DESIGN CHOICE: a
TRAILER alone opens its chunk's position and starts its lag timers (log entry 55); a partial that would carry a tally past the
65,536 values of R27 is treated as not arrived, as a descriptor that disagrees (log entry 56). -/
def stagePacket (ctx q slot : Nat) (o : Operation) (who : Sender) (p : Packet) (s : State) : State :=
  match tabGet? s.rctxs ctx with
  | none => s
  | some r =>
    let h := longHdr p
    let pos := (tabGet? r.positions q).getD (Position.openAt (now s) h.opNum h.chunk)
    if pktKind p = 0x43 then
      putPosition ctx q { pos with trailers := tabPut pos.trailers slot (payloadOf p) } s
    else
      let c := ((tabGet? pos.contribs slot).getD (Contribution.empty h.step p.hdr.epoch)).stage p
      if contribWhole r (chunkElems r.d o h.chunk) (slot < r.d.m) c then
        let first := (presentSlots pos).isEmpty
        if 65536 < presentValues pos + (c.desc.map (fun d => d.values)).getD 1 then
          dispose 10 (some stBadParam) who p 0 0 (putPosition ctx q { pos with contribs := tabDel pos.contribs slot } s)
        else if !first && checksStep r && c.step != pos.step then
          dispose 9 (some stStep) who p c.step pos.step
            (putPosition ctx q { pos with contribs := tabDel pos.contribs slot } s)
        else
          let pos := { pos with contribs := tabPut pos.contribs slot { c with present := true },
                                step := if first then c.step else pos.step, epoch := if first then c.epoch else pos.epoch }
          putPosition ctx q (noteReady (now s) r pos) s
      else putPosition ctx q { pos with contribs := tabPut pos.contribs slot c } s

/-- A trailer that arrives after its contribution is present (R155); once the digest has been formed, it stays. -/
def lateTrailer (ctx q slot : Nat) (p : Packet) (s : State) : State :=
  modRctx ctx (fun r =>
    { r with acct := { r.acct with lateTrailer := true },
             positions := tabMod r.positions q (fun x => { x with trailers := tabDel x.trailers slot, lateTrailer := true }) })
    (countJob p.hdr.job 11 s)

/-- LATE_TRAILER also enters the account of the linked optimizer context. -/
def noteLate (r : Rctx) (s : State) : State :=
  match r.octx with
  | some o => modOctx o (fun x => { x with acct := { x.acct with lateTrailer := true } }) s
  | none => s

/-- The rows of Table 03.11 from FORMAT_MISMATCH on, for a chunk inside the window. -/
def judgeContribution (ctx q slot : Nat) (o : Operation) (who : Sender) (p : Packet) (s : State) : State :=
  match tabGet? s.rctxs ctx with
  | none => s
  | some r =>
    let pos := (tabGet? r.positions q).getD (Position.openAt (now s) (longHdr p).opNum (longHdr p).chunk)
    let drop (s : State) : State := if pktKind p = 0x43 then s else dropContribution ctx q slot s
    let linked := linkedOctx s r
    let verdict := packetVerdict linked p
    let want := expectedStep pos slot
    if !formatOk r p then dispose 7 (some stFormat) who p 0 0 (drop s)
    else if verdict = .stale then noteStale ((linked.map Prod.fst).getD 0) ctx p s
    else if verdict = .refused then dispose 8 (some stEpoch) who p 0 0 (drop s)
    else if checksStep r && want.isSome && want != some (longHdr p).step then
      dispose 9 (some stStep) who p (longHdr p).step (want.getD 0) (drop s)
    else if !shapeOk r o (longHdr p).chunk (slot < r.d.m) p then dispose 10 (some stBadParam) who p 0 0 (drop s)
    else stagePacket ctx q slot o who p s

/-- An arriving contribution packet or part of a forwarded partial (R72): the first row of Table 03.11 that applies. A descriptor whose
epoch is not accepted announces nothing (R124). A trailer that comes after its contribution, released or not, is late (R155). DESIGN
CHOICE: a packet from upstream for a chunk whose first position is here comes from no enabled slot of the chunk (log entry 57). -/
def takeContribution (who : Sender) (p : Packet) (s : State) : State :=
  let h := longHdr p
  let ctx := h.ctx
  match tabGet? s.rctxs ctx with
  | none => dispose 0 (some stState) who p 0 0 s
  | some r0 =>
    if r0.state = .stopped then dispose 0 (some stState) who p 0 0 s
    else match senderSlot r0 who p with
      | none => dispose 1 (some stState) who p 0 0 s
      | some slot =>
        if !slotEnabled r0 slot || (r0.d.role == 4 && slot == r0.d.m && chunkRole r0.d h.chunk == 0) then
          dispose 1 (some stState) who p 0 0 s
        else
          let x := parseDesc (payloadOf p)
          let tells := pktKind p == 0x44 && (liveOp r0 x.opNum).isNone && x.opNum == h.opNum
          let linked := linkedOctx s r0
          let v := packetVerdict linked p
          if tells && v = .stale then noteStale ((linked.map Prod.fst).getD 0) ctx p s
          else if tells && v = .refused then dispose 8 (some stEpoch) who p 0 0 s
          else
          let s := if tells then (announceOp ctx x.opNum x.opFirst x.opCount s).2 else s
          let r := (tabGet? s.rctxs ctx).getD r0
          match knownOp r h.opNum with
          | none => dispose 2 (some stState) who p 0 0 s
          | some o =>
            let q := positionOf r.d o h.chunk
            if !chunkIn r.d o h.chunk then dispose 3 (some stRange) who p 0 0 s
            else if r.base + r.w ≤ q then dispose 4 (some stRange) who p 0 0 s
            else if q < r.base || r.released.contains q then
              if pktKind p = 0x43 then noteLate r (lateTrailer ctx q slot p s) else dispose 5 none who p 0 0 s
            else if ((tabGet? r.positions q).map (fun y => (presentSlots y).contains slot)).getD false then
              if pktKind p = 0x43 then noteLate r (lateTrailer ctx q slot p s) else dispose 6 none who p 0 0 s
            else judgeContribution ctx q slot o who p s

/-! ### CONTRIBUTE (R52, R55, R401, R404) -/

/-- A member's announcement is accepted and answered with CREDIT, or refused. -/
def takeContribute (hawser : Nat) (n : Naming) (p : Packet) (s : State) : State :=
  match p.body with
  | .contribute ctx num f k base =>
    let back (st : Nat) (s : State) : State := statusBack (.member hawser n) p st 0 0 s
    match tabGet? s.rctxs ctx with
    | none => back stState (countJob p.hdr.job 0 s)
    | some r =>
      if r.state = .stopped then back stState (countJob p.hdr.job 0 s)
      else match senderSlot r (.member hawser n) p with
        | none => back stState (countJob p.hdr.job 1 s)
        | some slot =>
          if !slotEnabled r slot then back stState (countJob p.hdr.job 1 s)
          else
            let linked := r.octx.bind (fun i => (tabGet? s.octxs i).map (fun x => (i, x)))
            let v := (linked.map (fun x => epochVerdict x.2 p.hdr.epoch false)).getD .accepted
            if v = .stale then noteStale ((linked.map Prod.fst).getD 0) ctx p s
            else if v = .refused then back stEpoch (countJob p.hdr.job 8 s)
            else
              let a := announceOp ctx num f k s
              if a.1 != stOk then back a.1 a.2
              else
                let note (o : Operation) : Operation :=
                  if o.num = num then
                    { o with announces := o.announces.filter (fun x => x.slot != slot) ++
                        [{ slot := slot, resultBase := base,
                           naming := ((o.announces.find? (fun x => x.slot == slot)).map (fun x => x.naming)).getD n }] }
                  else o
                let live := ((tabGet? a.2.rctxs ctx).bind (fun r => liveOp r num)).isSome
                let s := modRctx ctx (fun r =>
                  { r with namings := tabPut r.namings slot n, ops := r.ops.map note,
                           past := if live then r.past else r.past.map note }) a.2
                dueCredit ctx slot s
  | _ => s

/-! ### CREDIT, RESEND, STATUS, RING_STOP, RESULT -/

/-- Residues whose parent a CREDIT comes from (log entry 21). -/
def creditResidues (d : RDesc) (src : Nat) (c : Credit) : List Nat :=
  if d.role = 4 then (if src = d.ringNext then [0] else [])
  else
    let own := (List.range d.t).filter (fun r => (d.parents.getD r (0xFFFF, 0)).1 == src)
    let named := if c.limOp != 0xFFFF then some (c.limChunk % d.t) else if c.baseOp != 0xFFFF then some (c.baseChunk % d.t) else none
    match named with
    | some k => if own.contains k then own.filter (fun r => d.parents.getD r (0xFFFF, 0) == d.parents.getD k (0xFFFF, 0)) else own
    | none => own

/-- A refused partial is sent again once a CREDIT places its chunk within the limit (R56). -/
def resendRefused (ctx : Nat) (s : State) : State :=
  match tabGet? s.rctxs ctx with
  | none => s
  | some r =>
    (r.positions.filter (fun p => p.2.refused && withinLimit r p.1 p.2.chunk)).foldl (fun s p =>
      sendAgain ctx p.1 (putPosition ctx p.1 { p.2 with refused := false } s)) s

/-- Emitted positions whose chunk the parent has released are released (Table 03.8). -/
def releaseCredited (ctx : Nat) (s : State) : State :=
  match tabGet? s.rctxs ctx with
  | none => s
  | some r =>
    (r.positions.filter (fun p => p.2.state == .emitted && !isRootOf r.d p.2.chunk && parentReleased r p.1 p.2.chunk)).foldl
      (fun s p => releasePosition ctx p.1 s) s

/-- CREDIT from a parent or the downstream position (R55, R402). -/
def takeCredit (p : Packet) (s : State) : State :=
  match p.body with
  | .credit ctx num chunk bnum bchunk =>
    match tabGet? s.rctxs ctx with
    | none => s
    | some r =>
      let c : Credit := { limOp := num, limChunk := chunk, baseOp := bnum, baseChunk := bchunk }
      let rs := if r.d.job = p.hdr.job then creditResidues r.d p.hdr.src c else []
      if rs.isEmpty then s
      else releaseCredited ctx (resendRefused ctx (modRctx ctx (fun r =>
        { r with credits := rs.foldl (fun t i => tabPut t i c) r.credits }) s))
  | _ => s

/-- The position of a chunk that a parent's packet names, if it is open here. -/
def namedPosition (r : Rctx) (num chunk : Nat) : Option (Nat × Position) :=
  (knownOp r num).bind (fun o =>
    if chunkIn r.d o chunk then (tabGet? r.positions (positionOf r.d o chunk)).map (fun p => (positionOf r.d o chunk, p)) else none)

/-- RESEND from a parent (R78): a partial already sent is sent again, by a STOPPED context too; one not yet complete goes when it is. -/
def takeResend (p : Packet) (s : State) : State :=
  match p.body with
  | .resend ctx num chunk =>
    match (tabGet? s.rctxs ctx).bind (fun r =>
        if r.d.job = p.hdr.job && p.hdr.src = (parentOf r.d chunk).1 then namedPosition r num chunk else none) with
    | some (q, x) =>
      let root := ((tabGet? s.rctxs ctx).map (fun r => isRootOf r.d chunk)).getD true
      if x.state = .opened || root then s else sendAgain ctx q s
    | none => s
  | _ => s

/-- STATUS from a parent (R56): a partial refused with RANGE under the credit test waits for a CREDIT. -/
def takeStatus (p : Packet) (s : State) : State :=
  match p.body with
  | .status ctx num chunk status _ _ _ =>
    match (tabGet? s.rctxs ctx).bind (fun r =>
        if status = stRange && r.d.job = p.hdr.job && p.hdr.src = (parentOf r.d chunk).1 then namedPosition r num chunk else none) with
    | some (q, x) => if x.state = .opened then s else resendRefused ctx (putPosition ctx q { x with refused := true } s)
    | none => s
  | _ => s

/-- RING_STOP from upstream (R82): the position stops, naming the origin, and passes it on unless it is its own. -/
def takeRingStop (p : Packet) (s : State) : State :=
  match p.body with
  | .ringStop ctx origin =>
    match tabGet? s.rctxs ctx with
    | none => s
    | some r =>
      if r.d.role = 4 && r.d.job = p.hdr.job then
        let s := stopUnnamed ctx origin 1 s
        if origin = ownAddr s then s else sendRingStop r origin s
      else s
  | _ => s

/-- RESULT from the tree (R71): to every local member, and on. -/
def takeResult (p : Packet) (s : State) : State :=
  let h := longHdr p
  match tabGet? s.rctxs h.ctx with
  | none => s
  | some r =>
    match (if r.d.job = p.hdr.job then knownOp r h.opNum else none) with
    | some o =>
      if chunkIn r.d o h.chunk then sendResult h.ctx o h.chunk h.pkt (payloadOf p) p.hdr.last (BitVec.ofNat 16 h.cond)
        (some { rctx := h.ctx, pos := none }) s else s
    | none => s

end Sys2Proof.Machine
end

