-- ==== Sys2Proof/Machine/DeckRows.lean ====
section
/-!
DEFINITION. What the deck and the timers of a reduction context do: fold batches and their output (R60 to R62, R65), lag timers (R74, R75, R82),
coalesced CREDITs (R55) and releases (Table 03.8).
-/
namespace Sys2Proof.Machine

/-- Lane groups in service. -/
def laneGroupsUp (s : State) : List Nat := (List.range 16).filter (fun g => !unitLost s (.laneGroup g))

/-- Whether the deck can start a sweep: none under way, awake and clocked, with a lane group (R60, R84, R317). -/
def deckFree (s : State) : Bool :=
  s.deck.sweep.isNone && !s.deck.power.idle && s.clk.datapath == .locked && !(laneGroupsUp s).isEmpty

/-- Whether a stack answers: initialised and clocked, and not in its idle state (R317, R321). -/
def stackAwake (s : State) (k : Nat) : Bool :=
  (getStack s k).init && tabGet? s.clk.hbm k == some .locked && !(getStack s k).power.idle

/-- The deck works: its idle time starts again (R84). -/
def deckWorks (s : State) : State := { s with deck := { s.deck with power := { s.deck.power with lastWork := now s } } }

/-- Positions ready for a fold batch with the tide counts at which they became so, contexts and positions ascending; deep berths must be
within reach (R57). DESIGN CHOICE: those of a STOPPED context are not folded (log entry 58). -/
def readyFolds (s : State) : List (Tide × Nat × Nat) :=
  (s.rctxs.map (fun c =>
    if c.2.state = .stopped then []
    else c.2.positions.filterMap (fun p =>
      if foldReady c.2 p.2 && !p.2.sweeping && (periodAllows s c.2 p.2 || p.2.again) && (!c.2.d.deep || stackAwake s (p.1 % 8))
      then p.2.readyAt.map (fun t => (t, c.1, p.1)) else none))).flatten

/-- A fold batch begins (R61): at most 32 contributions in slot order. -/
def startFold (c q : Nat) (s : State) : State :=
  match (tabGet? s.rctxs c).bind (fun r => tabGet? r.positions q) with
  | none => s
  | some p =>
    let s := modRctx c (fun r =>
      let r := { r with positions := tabPut r.positions q { p with sweeping := true } }
      if p.again then r else openPeriod s r p) s
    deckWorks { s with deck := { s.deck with sweep := some (.fold c q ((unfoldedSlots p).take 32)) } }

/-- The output of a fold batch enters its position, unless a re-form took it away (R76). DESIGN CHOICE: a further batch of the chunk
becomes ready when this one ends (log entry 58). Squares of a chunk that is folded again are those it had (R28). -/
def foldOutput (c q : Nat) (slots : List Nat) (s : State) : State :=
  match tabGet? s.rctxs c with
  | none => s
  | some r =>
    match tabGet? r.positions q with
    | none => s
    | some p =>
      if !p.sweeping then s
      else
        let n := ((knownOp r p.op).map (fun o => chunkElems r.d o p.chunk)).getD 0
        let kept := p.dots
        let p := (slots.filter (fun i => (presentSlots p).contains i)).foldl (foldSlot s.deck.trunc r n) { p with sweeping := false }
        let p := if p.again then { p with dots := kept } else p
        let s := putPosition c q (noteReady (now s) r { p with readyAt := none }) s
        if r.state != .stopped && allPresent r p && (unfoldedSlots p).isEmpty then
          (if p.again then finishAgain c q s else completeChunk c q s)
        else s

/-- FOLD_BATCH_DONE (R66, R71): the berth writes complete; a complete chunk goes on by its role. -/
def execFoldBatchDone (s : State) : Result :=
  match s.deck.sweep with
  | some (.fold c q slots) => finish (foldOutput c q slots (deckWorks { s with deck := { s.deck with sweep := none } }))
  | _ => finish s

/-- The norm period a lag counts in (R64, R74): the step of the chunk's contributions, or the operation by its start. DESIGN CHOICE: with
no contribution present, the step of the first one staged, else 0 (log entry 58). -/
def lagPeriod (r : Rctx) (p : Position) : Nat :=
  if stepPeriods r then
    (if (presentSlots p).isEmpty then ((p.contribs.head?).map (fun c => c.2.step)).getD 0 else p.step)
  else ((knownOp r p.op).map (fun o => o.start)).getD 0

/-- SOFT_LAG_EXPIRY (R74, R75), after the arrivals of its tick: the chunk becomes ready, and STRAGGLER names each missing slot once per
period. -/
def execSoftLagExpiry (ctx q : Nat) (s : State) : Result :=
  match tabGet? s.rctxs ctx with
  | none => finish s
  | some r =>
    match tabGet? r.positions q with
    | none => finish s
    | some p =>
      let miss := missingSlots r p
      if !softLagDue s r p || arrivalsDue s then finish s
      else
        let per := lagPeriod r p
        let s := miss.foldl (fun s i =>
          let seen := ((tabGet? s.rctxs ctx).map (fun r => r.lagged.contains (per, i))).getD false
          if seen then countJob r.d.job 16 s
          else
            let who := if i < r.d.m then slotRank r.d i else (slotPeer r.d i).1
            raiseEvent 0x0060 (some r.d.job)
              (le 2 ctx ++ le 2 i ++ le 4 p.chunk ++ le 2 p.op ++ le 2 who ++ le 1 (b2n (decide (r.d.m ≤ i))))
              (modRctx ctx (fun r => { r with lagged := r.lagged ++ [(per, i)] }) s)) s
        finish (putPosition ctx q (noteReady (now s) r { p with softFired := true }) s)

/-- HARD_LAG_EXPIRY (R74, R75, R82), after the arrivals of its tick: the context stops, naming the lowest missing slot; a ring position
also sends RING_STOP. -/
def execHardLagExpiry (ctx q : Nat) (s : State) : Result :=
  match tabGet? s.rctxs ctx with
  | none => finish s
  | some r =>
    match tabGet? r.positions q with
    | none => finish s
    | some p =>
      let miss := missingSlots r p
      if !hardLagDue s r p || arrivalsDue s then finish s
      else
        let s := stopRctx ctx (miss.headD 0) p.chunk p.op (ownAddr s) 0 s
        finish (if r.d.role = 4 then sendRingStop r (ownAddr s) s else s)

/-- CREDIT_SEND (R55): a due CREDIT leaves once 256 ns have passed since the slot's last. -/
def execCreditSend (ctx slot : Nat) (s : State) : Result :=
  match tabGet? s.rctxs ctx with
  | none => finish s
  | some r => if r.creditDue.contains slot && creditOpen s r slot then finish (sendCredit ctx slot s) else finish s

/-- CHUNK_RELEASE (R66, Table 03.8): a position whose result has left is released; a non-root one once its parent has
released the chunk. -/
def execChunkRelease (ctx q : Nat) (s : State) : Result :=
  match tabGet? s.rctxs ctx with
  | none => finish s
  | some r =>
    match tabGet? r.positions q with
    | none => finish s
    | some p =>
      if p.state == .emitted && (isRootOf r.d p.chunk || parentReleased r q p.chunk) then finish (releasePosition ctx q s)
      else finish s

end Sys2Proof.Machine
end

