-- ==== Sys2Proof/Machine/DeviceCommands.lean ====
section
/-!
DEFINITION. The Device commands (Table 12.5) and the Job commands (Table 12.6).
-/
namespace Sys2Proof.Machine

/-! ### Monitor records (Table 13.7) -/

/-- KIND and INDEX of monitor n in the order of R325. -/
def monitorKind (n : Nat) : Nat × Nat := if n < 64 then (0, n) else if n < 96 then (1, n - 64) else (2, n - 96)

def Monitor.zero : Monitor :=
  { high := false, low := false, trip := false, invalid := false, value := 0, peak := 0, sampled := false,
    outRun := 0, outRaised := false }

def getMonitor (s : State) (n : Nat) : Monitor := tabGet s.aon.monitors n Monitor.zero

/-- One monitor record, 8 bytes. -/
def monitorBytes (s : State) (n : Nat) : List Byte :=
  let m := getMonitor s n
  let k := monitorKind n
  le 1 k.1 ++ le 1 k.2 ++ le 1 (b2n m.high + 2 * b2n m.low + 4 * b2n m.trip + 8 * b2n m.invalid) ++ zeros 1 ++
    leInt 2 m.value ++ leInt 2 (if m.invalid then 0 else m.peak)

/-- The throttle threshold of a temperature sensor, 0.01 degrees (R327). -/
def throttleThreshold (s : State) (i : Nat) : Int := if i < 56 then (s.pwr.throttleTemp * 100 : Nat) else 9500

/-- Whether a valid sensor reads at or above its throttle threshold (R328). -/
def sensorHot (s : State) (i : Nat) : Bool :=
  let m := getMonitor s i
  !m.invalid && decide (throttleThreshold s i ≤ m.value)

/-! ### Device commands -/

/-- The row of DEV_INFO in its group table. -/
def rowDevInfo (x : Exec) (_s : State) : Row :=
  { Row.plain 0x0100 (onlyFields x.cmd.params []) with returns := true, need := 128 }

/-- DEV_INFO. -/
def execDevInfo (x : Exec) (s : State) : Result :=
  runCmd x s (rowDevInfo x)
    (fun s => { Effect.ok s with
      data := fit 128 (fit 64 (le 2 0x0384 ++ le 1 Config.stepping.toNat ++ le 1 1 ++ le 1 s.aon.boot.slot ++ le 1 2 ++
        le 1 (b2n s.flt.merge) ++ zeros 1 ++ le 8 serial64 ++ le 2 (ownAddr s) ++ zeros 6 ++ le 8 (now s).toNat ++
        le 4 (devStatus s)) ++ fit 64 s.sys.fwMeasurement) })

/-- The row of NOP in its group table. -/
def rowNop (x : Exec) (_s : State) : Row :=
  Row.plain 0x0101 (onlyFields x.cmd.params [(0, 8)])

/-- NOP: RESULT0 the tide count, RESULT1 ECHO. -/
def execNop (x : Exec) (s : State) : Result :=
  runCmd x s (rowNop x)
    (fun s => { Effect.ok s with r0 := (now s).toNat, r1 := param x 0 8 })

/-- The row of MONITOR_READ in its group table. -/
def rowMonitorRead (x : Exec) (_s : State) : Row :=
  { Row.plain 0x0102 (onlyFields x.cmd.params []) with returns := true, need := 896 }

/-- MONITOR_READ (R325). -/
def execMonitorRead (x : Exec) (s : State) : Result :=
  runCmd x s (rowMonitorRead x)
    (fun s => { Effect.ok s with data := ((List.range 112).map (monitorBytes s)).flatten })

/-- A change that takes effect in the next tide tick. -/
def defer (d : Deferred) (s : State) : State := { s with deferred := s.deferred ++ [d] }

/-- The row of SET_LATENCY_BUDGET in its group table. -/
def rowSetLatencyBudget (x : Exec) (s : State) : Row :=
  let scope := param x 0 1
  let hawser := param x 2 2
  let b := param x 4 4
  { Row.plain 0x0103 (onlyFields x.cmd.params [(0, 1), (2, 2), (4, 4)]) with
    jobScoped := scope == 1, jobExists := true,
    own := fails (2 < scope || (1000000000 < b && b != 0xFFFFFFFF) || 383 < hawser) stRange ++
      fails ((scope == 2 && (getHawser s hawser).slips.isEmpty) || (scope == 0 && b == 0xFFFFFFFF)) stState }

/-- SET_LATENCY_BUDGET (R319, R306). -/
def execSetLatencyBudget (x : Exec) (s : State) : Result :=
  let scope := param x 0 1
  let hawser := param x 2 2
  let b := param x 4 4
  let v := if b = 0xFFFFFFFF then none else some b
  runCmd x s (rowSetLatencyBudget x)
    (fun s => Effect.ok (match scope with
      | 0 => defer (.deviceBudget b) s
      | 1 => defer (.jobBudget x.cmd.job v) s
      | _ => defer (.hawserBudget hawser v) s))

/-- The row of THROTTLE_SET in its group table. -/
def rowThrottleSet (x : Exec) (_s : State) : Row :=
  let cap := param x 0 2
  let temp := param x 2 2
  { Row.plain 0x0104 (onlyFields x.cmd.params [(0, 2), (2, 2)]) with
    own := fails ((cap != 0 && (cap < 400 || 1650 < cap)) || (temp != 0 && (temp < 85 || 105 < temp))) stRange }

/-- THROTTLE_SET (R327). -/
def execThrottleSet (x : Exec) (s : State) : Result :=
  let cap := param x 0 2
  let temp := param x 2 2
  runCmd x s (rowThrottleSet x)
    (fun s => Effect.ok (defer (.throttle (if cap = 0 then 1650 else cap) (if temp = 0 then 105 else temp)) s))

/-- The row of DEV_RESET in its group table. -/
def rowDevReset (x : Exec) (s : State) : Row :=
  { Row.plain 0x0105 (onlyFields x.cmd.params [(0, 1)]) with
    own := fails (param x 0 1 != 0) stRange ++ fails (s.aon.tripped && (List.range 64).any (sensorHot s)) stState }

/-- DEV_RESET: after a trip it waits for every sensor to read below its throttle threshold (R329, log entry 17). -/
def execDevReset (x : Exec) (s : State) : Result :=
  runCmd x s (rowDevReset x)
    (fun s => Effect.ok { s with sys := { s.sys with devResetAt := some (now s + 1000000) } })

/-! ### Job commands -/

/-- A job as JOB_CREATE makes it (Table 12.6). -/
def Job.created : Job :=
  { launch := .unlaunched, l := 0, replay := false, seed := 0, classes := ClassMap.default, closed := false, sliceMask := 0,
    rankBase := 0, rankCount := 0, phaseMaps := [], topo := none, topoDigest := zeros 64, budget := none }

def jobOf (s : State) (x : Exec) : Job := (tabGet? s.jobs x.cmd.job).getD Job.created

/-- Contexts of a job. -/
def jobRctxs (s : State) (j : Nat) : List (Nat × Rctx) := s.rctxs.filter (fun r => r.2.d.job == j)
def jobOctxs (s : State) (j : Nat) : List (Nat × Octx) := s.octxs.filter (fun o => o.2.d.job == j)

/-- Whether a reduction context of a job is RUNNING. -/
def jobRunning (s : State) (j : Nat) : Bool := (jobRctxs s j).any (fun r => r.2.state == .running)

/-- The row of JOB_CREATE in its group table. -/
def rowJobCreate (x : Exec) (s : State) : Row :=
  { Row.plain 0x0200 (onlyFields x.cmd.params []) with
    jobScoped := true, own := fails (tabHas s.jobs x.cmd.job) stState }

/-- JOB_CREATE. -/
def execJobCreate (x : Exec) (s : State) : Result :=
  runCmd x s (rowJobCreate x)
    (fun s => Effect.ok { s with jobs := tabPut s.jobs x.cmd.job Job.created })

/-- The row of JOB_DESTROY in its group table. -/
def rowJobDestroy (x : Exec) (s : State) : Row :=
  let j := x.cmd.job
  { Row.job 0x0201 (onlyFields x.cmd.params []) with
    own := fails (!(jobRctxs s j).isEmpty || !(jobOctxs s j).isEmpty) stState }

/-- JOB_DESTROY: the job's range, maps, classes, slice and budget go with it. -/
def execJobDestroy (x : Exec) (s : State) : Result :=
  let j := x.cmd.job
  runCmd x s (rowJobDestroy x)
    (fun s => Effect.ok { s with jobs := tabDel s.jobs j,
                                 net := { s.net with told := s.net.told.filter (fun k => k.job != j),
                                                     asked := s.net.asked.filter (fun k => k.job != j) },
                                 deferred := s.deferred.filter (fun d => match d with
                                   | .jobBudget k _ => k != j
                                   | _ => true) })

/-- The rank entries of a descriptor. -/
def rankWords (d : List Byte) (n : Nat) : List (BitVec 32) := (List.range n).map (fun i => BitVec.ofNat 32 (field d (4 * i) 4))

/-- Whether a list holds some value twice. -/
def hasRepeat (l : List Nat) : Bool :=
  match l with
  | [] => false
  | a :: t => t.contains a || hasRepeat t

/-- The state with a job's rank range and entries written (R161). -/
def setRanks (j base n : Nat) (ws : List (BitVec 32)) (s : State) : State :=
  let kept := s.net.ranks.filter (fun p => p.1 < base || base + n ≤ p.1)
  let fresh := ((List.range n).zip ws).map (fun p => (base + p.1, p.2))
  let ranks := kept.filter (fun p => p.1 < base) ++ fresh ++ kept.filter (fun p => base ≤ p.1)
  modJob j (fun x => { x with rankBase := base, rankCount := n }) { s with net := { s.net with ranks := ranks } }

/-- The row of JOB_RANKS_SET in its group table. -/
def rowJobRanksSet (x : Exec) (s : State) : Row :=
  let j := x.cmd.job
  let base := param x 0 4
  let n := param x 4 4
  let ws := rankWords (desc x) (min n 65536)
  let valid := (ws.filter (fun w => bit w.toNat 31)).map (fun w => bits w.toNat 15 0)
  let after := setRanks j base n ws s
  let hs := ((localMembers after j).map Prod.snd).eraseDups
  { Row.job 0x0202 (onlyFields x.cmd.params [(0, 4), (4, 4)]) with
    descLen := 4 * n,
    own := fails (n == 0 || 65536 < n || 65536 < base + n) stRange ++
      fails (ws.any (fun w => bits w.toNat 30 16 != 0) || hasRepeat valid ||
        s.jobs.any (fun o => o.1 != j && o.2.rankCount != 0 && base < o.2.rankBase + o.2.rankCount &&
          o.2.rankBase < base + n)) stBadParam ++
      fails (jobRunning s j) stBusy ++
      fails (hs.any (fun h => 4 < ((hawserJobs after h).map Prod.fst).eraseDups.length)) stNoResource }

/-- JOB_RANKS_SET (R161, R162). -/
def execJobRanksSet (x : Exec) (s : State) : Result :=
  let j := x.cmd.job
  let base := param x 0 4
  let n := param x 4 4
  let ws := rankWords (desc x) (min n 65536)
  runCmd x s (rowJobRanksSet x)
    (fun s => Effect.ok (setRanks j base n ws s))

/-- The row of JOB_CLASS_SET in its group table. -/
def rowJobClassSet (x : Exec) (s : State) : Row :=
  let a := param x 0 1
  let b := param x 1 1
  let c := param x 2 1
  let m := param x 3 1
  let ok (v : Nat) : Bool := 1 ≤ v && v ≤ 7
  { Row.job 0x0203 (onlyFields x.cmd.params [(0, 4)]) with
    own := fails (!(ok a && ok b && ok c) || bit m 0) stBadParam ++ fails ((jobOf s x).launch != .unlaunched) stState }

/-- JOB_CLASS_SET (R170). -/
def execJobClassSet (x : Exec) (s : State) : Result :=
  let a := param x 0 1
  let b := param x 1 1
  let c := param x 2 1
  let m := param x 3 1
  runCmd x s (rowJobClassSet x)
    (fun s => Effect.ok (modJob x.cmd.job (fun j => { j with classes := { reduce := a, request := b, write := c, mask := m } }) s))

/-- The row of JOB_SLICE_SET in its group table. -/
def rowJobSliceSet (x : Exec) (s : State) : Row :=
  { Row.job 0x0204 (onlyFields x.cmd.params [(0, 1)] && param x 0 1 < 2) with
    descLen := 48, own := fails ((jobOf s x).launch != .unlaunched) stState }

/-- JOB_SLICE_SET (R206). -/
def execJobSliceSet (x : Exec) (s : State) : Result :=
  runCmd x s (rowJobSliceSet x)
    (fun s => Effect.ok (modJob x.cmd.job (fun j => { j with closed := bit (param x 0 1) 0, sliceMask := leNat (desc x) }) s))

/-- The length of a phase map (Table 04.13). -/
def phaseMapLen (d : List Byte) : Nat := 64 + 4 * field d 4 2 + 2 * (field d 1 1 * field d 2 2)

def parsePhaseMap (d : List Byte) : PhaseMap :=
  let st := field d 1 1
  let gr := field d 2 2
  let lc := field d 4 2
  { stages := st, groups := gr, lctx := lc,
    contexts := (List.range lc).map (fun i => (field d (64 + 4 * i) 2, field d (66 + 4 * i) 2)),
    stageRanks := (List.range (st * gr)).map (fun i => field d (64 + 4 * lc + 2 * i) 2), digest := sha3 d }

/-- The row of PHASE_MAP_SET in its group table. -/
def rowPhaseMapSet (x : Exec) (s : State) : Row :=
  let d := desc x
  let st := field d 1 1
  let gr := field d 2 2
  let lc := field d 4 2
  { Row.job 0x0205 (onlyFields x.cmd.params []) with
    descLen := if x.desc.isSome && 64 ≤ d.length then phaseMapLen d else if x.desc.isSome then 64 else x.cmd.descLen,
    own := fails (3 < field d 0 1 || 64 < st || 1024 < gr || 4096 < st * gr || 256 < lc) stRange ++
      fails (!zeroAt d 6 58) stBadParam ++ fails (jobRunning s x.cmd.job) stBusy }

/-- PHASE_MAP_SET (R125): a map of nothing removes the map. -/
def execPhaseMapSet (x : Exec) (s : State) : Result :=
  let d := desc x
  let st := field d 1 1
  let gr := field d 2 2
  let lc := field d 4 2
  runCmd x s (rowPhaseMapSet x)
    (fun s => Effect.ok (modJob x.cmd.job (fun j =>
      { j with phaseMaps := if st = 0 && gr = 0 && lc = 0 then tabDel j.phaseMaps (field d 0 1)
                            else tabPut j.phaseMaps (field d 0 1) (parsePhaseMap d) }) s))

/-- Code of a launch state (Table 12.6). -/
def launchCode : LaunchState → Nat
  | .unlaunched => 0
  | .pending => 1
  | .launched => 2

/-- The row of JOB_QUERY in its group table. -/
def rowJobQuery (x : Exec) (_s : State) : Row :=
  { Row.job 0x0206 (onlyFields x.cmd.params []) with returns := true, need := 64 }

/-- JOB_QUERY. -/
def execJobQuery (x : Exec) (s : State) : Result :=
  runCmd x s (rowJobQuery x)
    (fun s =>
      let j := jobOf s x
      let maps := maskOf (j.phaseMaps.map Prod.fst)
      { Effect.ok s with
        data := fit 64 (le 1 (launchCode j.launch) ++
          le 1 (b2n j.replay + 2 * b2n j.closed + 4 * b2n j.topo.isSome + 16 * maps) ++ le 1 j.classes.reduce ++
          le 1 j.classes.request ++ le 1 j.classes.write ++ le 1 j.classes.mask ++ zeros 2 ++ le 8 j.seed.toNat ++
          le 8 j.l.toNat ++ le 4 j.rankBase ++ le 4 j.rankCount ++ le 2 (jobRctxs s x.cmd.job).length ++
          le 2 (jobOctxs s x.cmd.job).length) })

end Sys2Proof.Machine
end

