-- ==== Sys2Proof/Machine/ReductionCommands.lean ====
section
/-!
DEFINITION. The Reduction commands (Table 12.10) and AUDIT_SEAL (Table 12.13).
-/
namespace Sys2Proof.Machine

/-! ### RCTX_CREATE (R47, R48, R54, R135, R250) -/

/-- The length a reduction context descriptor implies (Table 03.1). -/
def rdescLen (d : List Byte) : Nat := 64 + 4 * field d 10 2 + 4 * field d 12 2 + 4 * field d 14 1

/-- A reduction context descriptor, defaults substituted. -/
def parseRDesc (d : List Byte) : RDesc :=
  let m := field d 10 2
  let c := field d 12 2
  let t := field d 14 1
  let fl := field d 9 1
  let pair (o : Nat) : Nat × Nat := (field d o 2, field d (o + 2) 2)
  let dflt (v n : Nat) : Nat := if v = 0 then n else v
  { ctx := field d 0 2, job := field d 2 1, role := field d 3 1, op := field d 4 1, fmt := field d 5 1 % 16,
    resultFmt := field d 6 1 % 16, chunkSize := field d 7 1, rowLog2 := field d 8 1, norm := bit fl 0, deep := bit fl 1,
    stepped := bit fl 2, m := m, c := c, t := t, treeSet := field d 16 2, berthQuota := field d 20 4,
    softLag := dflt (field d 24 4) 2000, hardLag := dflt (field d 28 4) 100000, ringSize := field d 32 2,
    ringPos := field d 34 2, ringNext := field d 36 2, ringNextCtx := field d 38 2, ringPrev := field d 40 2,
    ringPrevCtx := field d 42 2, members := (List.range m).map (fun i => field d (64 + 4 * i) 2),
    children := (List.range c).map (fun i => pair (64 + 4 * m + 4 * i)),
    parents := (List.range t).map (fun i => pair (64 + 4 * m + 4 * c + 4 * i)), head := d.take 64 }

/-- W of R54. -/
def windowOf (d : RDesc) : Nat := d.berthQuota / d.elems

/-- Whether E is defined: neither code is reserved. -/
def sizesDefined (d : RDesc) : Bool := d.chunkSize < 4 && !fmtReserved d.fmt

/-- Whether a list ascends strictly. -/
def ascending : List Nat → Bool
  | a :: b :: t => a < b && ascending (b :: t)
  | _ => true

/-- A numeric field outside its stated range (R48, R54). -/
def rdescRange (d : RDesc) : Bool :=
  let lag (v : Nat) : Bool := v < 10 || 10000000 < v
  4095 < d.ctx || 384 < d.m || 64 < d.c || d.t < 1 || 16 < d.t || d.berthQuota < 1 ||
    (if d.deep then 134217728 else 1572864) < d.berthQuota || lag d.softLag || lag d.hardLag ||
    (d.rowLog2 != 0 && (d.rowLog2 < 4 || 16 < d.rowLog2)) ||
    (d.role == 4 && (d.ringSize < 2 || 1024 < d.ringSize || d.ringSize ≤ d.ringPos)) ||
    (sizesDefined d && (windowOf d < 1 || 256 < windowOf d))

/-- The rules of R48 on a descriptor's roles. -/
def roleOk (d : RDesc) : Bool :=
  let noParent := d.parents.all (fun p => p.1 == 0xFFFF)
  let parentsSet := (residues d.t d.treeSet).all (fun r => (d.parents.getD r (0xFFFF, 0)).1 != 0xFFFF)
  match d.role with
  | 0 => 1 ≤ d.m && d.c == 0 && parentsSet
  | 1 => 1 ≤ d.c && parentsSet
  | 2 => 1 ≤ d.c && noParent
  | 3 => d.c == 0 && d.t == 1 && noParent
  | 4 => 1 ≤ d.m && d.c == 0 && d.t == 1 && noParent
  | _ => false

/-- What R48 refuses with BAD_PARAM, R9's fields among them. -/
def rdescBad (s : State) (job : Nat) (b : List Byte) (d : RDesc) : Bool :=
  let ring := d.ringSize + d.ringPos + d.ringNext + d.ringNextCtx + d.ringPrev + d.ringPrevCtx
  d.job != job || 16 ≤ field b 5 1 || 16 ≤ field b 6 1 || 8 ≤ field b 9 1 || !zeroAt b 15 1 || !zeroAt b 18 2 || !zeroAt b 44 20 ||
    (List.range d.m).any (fun i => !zeroAt b (66 + 4 * i) 2) || !sizesDefined d || !opPermits d.op d.fmt d.resultFmt ||
    !ascending d.members || d.members.any (fun r => (hawserOfRank s job r).isNone) || d.m + d.c < 1 || 448 < d.m + d.c ||
    !roleOk d || d.treeSet == 0 || 2 ^ d.t ≤ d.treeSet || (d.role != 4 && ring != 0) || (d.rowLog2 != 0) != isScaled d.fmt ||
    (d.norm && (d.op != 0 || !isFloat d.fmt)) || d.hardLag ≤ d.softLag || d.children.eraseDups.length != d.children.length ||
    (d.stepped && 1 < d.role)

/-- Reservations of Table 03.4: positions, on-die berths, deep berths, dot berths, pontoon bytes. -/
structure Reserve where
  positions : Nat
  onDie : Nat
  deep : Nat
  dots : Nat
  pontoon : Nat

def Reserve.plus (a b : Reserve) : Reserve :=
  ⟨a.positions + b.positions, a.onDie + b.onDie, a.deep + b.deep, a.dots + b.dots, a.pontoon + b.pontoon⟩

/-- Dot berths of a context. -/
def dotBerths (d : RDesc) : Nat := if d.norm then (if d.role ≤ 1 then d.m else d.m + 1) else 0

/-- Staging of a slot (Table 03.5). -/
def slotStaging (d : RDesc) (member : Bool) : Nat :=
  let size := 4096 * 2 ^ d.chunkSize
  let rows := max 1 (d.elems / 2 ^ d.rowLog2)
  if member then size + (if isScaled d.fmt then 64 * ceilDiv rows 64 else 0)
  else if formOf d.op = 0 then 64 + 41 * d.elems
  else 64 + size + (if formOf d.op = 1 && isScaled d.fmt then d.elems else 0)

def reserveOf (d : RDesc) : Reserve :=
  let w := windowOf d
  let stage := d.m * slotStaging d true + (d.slots - d.m) * slotStaging d false
  { positions := w, onDie := if d.deep then 0 else w * d.elems, deep := if d.deep then w * d.elems else 0, dots := dotBerths d,
    pontoon := roundUp (w * stage) 4096 }

/-- Everything reserved: the reduction contexts', and the optimizer contexts' layer berths (R87). -/
def reserved (s : State) : Reserve :=
  let r := s.rctxs.foldl (fun (a : Reserve) c => a.plus (reserveOf c.2.d)) ⟨0, 0, 0, 0, 0⟩
  { r with dots := r.dots + (s.octxs.map (fun o => if o.2.d.rule = 2 then 2 * o.2.d.layers else 0)).sum }

/-- Whether a device total would be exceeded. -/
def exceeds (r : Reserve) : Bool :=
  8192 < r.positions || 1572864 < r.onDie || 134217728 < r.deep || 4096 < r.dots || 2 ^ 28 < r.pontoon

/-- Whether a job's topology map holds a descriptor's context (R135). -/
def inTopology (s : State) (j : Job) (d : RDesc) : Bool :=
  let links := (sha3 ((d.children ++ d.parents).map (fun p => le 2 p.1 ++ le 2 p.2)).flatten).take 32
  (j.topo.getD []).any (fun e =>
    e.addr == ownAddr s && e.ctx == d.ctx && e.role == d.role && e.t == d.t && e.treeSet == d.treeSet &&
      e.ring == [d.ringSize, d.ringPos, d.ringNext, d.ringNextCtx, d.ringPrev, d.ringPrevCtx] && e.c == d.c && e.m == d.m &&
      e.links == links)

/-- A context as created. -/
def Rctx.created (s : State) (d : RDesc) : Rctx :=
  { d := d, w := windowOf d, state := .idle, enabled := 2 ^ d.slots - 1, ops := [], past := [], nextPos := 0, base := 0,
    released := [], positions := [], octx := none, credits := [], creditDue := [], creditSent := [], lagged := [], told := [],
    namings := [], period := none, dots := [], snapshots := [], reforms := [], leaves := [], covered := [],
    acct := Account.start s }

/-- The row of RCTX_CREATE in its group table. -/
def rowRctxCreate (x : Exec) (s : State) : Row :=
  let b := desc x
  let d := parseRDesc b
  let replay := (jobOf s x).replay
  { Row.job 0x0600 (onlyFields x.cmd.params []) with
    descLen := if x.desc.isSome then rdescLen b else x.cmd.descLen,
    own := fails (rdescRange d) stRange ++ fails (rdescBad s x.cmd.job b d) stBadParam ++
      fails (tabHas s.rctxs d.ctx || (replay && !inTopology s (jobOf s x) d) ||
        (rctxPeers d).any (fun a => a != 0xFFFF && refusedPeer s replay a)) stState ++
      fails (exceeds ((reserved s).plus (reserveOf d))) stNoBerths }

/-- RCTX_CREATE. -/
def execRctxCreate (x : Exec) (s : State) : Result :=
  let b := desc x
  let d := parseRDesc b
  runCmd x s (rowRctxCreate x)
    (fun s => { Effect.ok { s with rctxs := tabPut s.rctxs d.ctx (Rctx.created s d) } with r0 := windowOf d })

/-! ### RCTX_DESTROY, RCTX_QUERY -/

/-- A job's reduction context by number (R306). -/
def jobRctx (s : State) (x : Exec) (ctx : Nat) : Option Rctx :=
  (tabGet? s.rctxs ctx).bind (fun r => if r.d.job = x.cmd.job then some r else none)

/-- Whether a queued packet is the first transmission of a copy of a lane: it has its sequence number and has not left a slip. -/
def unsentOn (x : Crossing) (lane : Nat) (q : Queued) : Bool :=
  q.pkt.hdr.xing && q.pkt.hdr.xmit == 0 && q.pkt.hdr.egress == x.peer && q.pkt.hdr.egressLanding == x.peerLanding && q.pkt.hdr.lane == lane

/-- Unsent packets of a lane that a test picks are withdrawn with their copies, and those behind them move up in sequence; one with a
later number already sent has to go (log entry 20). -/
def withdrawLane (mine : Option EmitTag → Bool) (x : Crossing) (lane : Nat) (s : State) : State :=
  let l := getLane x lane
  let waiting := (getLanding s x.landing).voq.filter (unsentOn x lane)
  let last := (l.copies.reverse.takeWhile (fun c => waiting.any (fun q => q.pkt.hdr.seq == c.seq))).map (fun c => c.seq)
  let gone := (waiting.filter (fun q => mine q.emit && last.contains q.pkt.hdr.seq)).map (fun q => q.pkt.hdr.seq)
  let up (n : Seq) : Seq := n - BitVec.ofNat 24 (gone.filter (fun g => seqBefore g n)).length
  let move (p : Packet) : Packet := { p with hdr := { p.hdr with seq := up p.hdr.seq } }
  if gone.isEmpty then s
  else
    modLanding x.landing (fun y =>
      { y with voq := y.voq.filterMap (fun q =>
          if !unsentOn x lane q then some q
          else if gone.contains q.pkt.hdr.seq then none
          else some { q with pkt := move q.pkt, reps := q.reps.map (fun r => { r with pkt := move r.pkt }) }) })
      (modXing x.landing x.peer x.peerLanding (fun y =>
        let l := getLane y lane
        setLane y lane { l with nextSeq := l.nextSeq - BitVec.ofNat 24 gone.length,
                                copies := (l.copies.filter (fun c => !gone.contains c.seq)).map (fun c =>
                                  { c with seq := up c.seq, pkt := move c.pkt }) }) s)

/-- Packets of a context's emissions that have not been sent are withdrawn from their sources, their queues and their lanes, and those
that have to go no longer count for it (R76, log entry 20). -/
def withdraw (ctx : Nat) (qs : List Nat) (s : State) : State :=
  let mine (e : Option EmitTag) : Bool := (e.map (fun t => t.rctx == ctx && (t.pos.map qs.contains).getD false)).getD false
  let s := s.xings.foldl (fun s x => (List.range x.lanes.length).foldl (fun s i => withdrawLane mine x i s) s) s
  { s with lands := s.lands.map (fun l =>
      (l.1, { l.2 with sources := l.2.sources.filter (fun q => !mine q.emit),
                       voq := (l.2.voq.filter (fun q => !mine q.emit || q.pkt.hdr.xing || q.residueAt.isSome)).map (fun q =>
                         if mine q.emit then { q with emit := none } else q) })),
           xings := s.xings.map (fun x =>
      { x with lanes := x.lanes.map (fun l => { l with copies := l.copies.map (fun c => if mine c.emit then { c with emit := none } else c) }) }) }

/-- The row of RCTX_DESTROY in its group table. -/
def rowRctxDestroy (x : Exec) (s : State) : Row :=
  let ctx := param x 0 2
  { Row.job 0x0601 (onlyFields x.cmd.params [(0, 2)]) with
    own := match jobRctx s x ctx with
      | none => fails true stState
      | some r => fails r.octx.isSome stState ++ fails (r.state == .running) stBusy }

/-- RCTX_DESTROY (R79, R89). -/
def execRctxDestroy (x : Exec) (s : State) : Result :=
  let ctx := param x 0 2
  runCmd x s (rowRctxDestroy x)
    (fun s =>
      let qs := ((tabGet? s.rctxs ctx).map (fun r => r.positions.map Prod.fst)).getD []
      Effect.ok { withdraw ctx qs s with rctxs := tabDel s.rctxs ctx })

def rstateCode : RState → Nat
  | .idle => 0
  | .running => 1
  | .stopped => 2

/-- A scoreboard record (Table 03.7). DESIGN CHOICE: of a FREE entry every field but CTX reads 0 (log entry 58). -/
def scoreboard (r : Rctx) (i : Nat) : List Byte :=
  match r.positions.find? (fun p => p.1 % r.w == i) with
  | none => fit 160 (le 2 r.d.ctx)
  | some (_, p) =>
    let st := match p.state with
      | .opened => 1
      | .complete => 2
      | .emitted => 3
    le 2 r.d.ctx ++ le 1 st ++ le 1 (b2n p.softFired + 2 * b2n (foldReady r p)) ++ le 2 p.op ++ zeros 2 ++ le 4 p.chunk ++
      le 2 (expectedSlots r p.chunk).length ++ le 2 (presentSlots p).length ++ le 2 (foldedSlots p).length ++ zeros 6 ++
      le 8 p.openTide.toNat ++ le 64 (maskOf (presentSlots p)) ++ le 64 (maskOf (foldedSlots p))

/-- The newer norm snapshot's tallies: members in slot order, then the sum where the role has one. -/
def snapshotBytes (r : Rctx) : List Byte :=
  let ts := ((r.snapshots.head?).map (fun n => n.dots)).getD []
  let keys := List.range r.d.m ++ (if r.d.role ≤ 1 then [] else [sumKey])
  (keys.map (fun k => let t := tabGet ts k (Tally.zero 640); t.bytes ++ le 1 t.flags)).flatten

/-- The row of RCTX_QUERY in its group table. -/
def rowRctxQuery (x : Exec) (s : State) : Row :=
  let ctx := param x 0 2
  let r := jobRctx s x ctx
  { Row.job 0x0602 (onlyFields x.cmd.params [(0, 2)]) with
    returns := true, need := (r.map (fun r => 128 + 160 * r.w + 81 * dotBerths r.d)).getD 0, own := fails r.isNone stState }

/-- RCTX_QUERY (R58, Table 12.10). -/
def execRctxQuery (x : Exec) (s : State) : Result :=
  let ctx := param x 0 2
  runCmd x s (rowRctxQuery x)
    (fun s =>
      match jobRctx s x ctx with
      | none => Effect.ok s
      | some r =>
        let sn := r.snapshots.head?
        let kind := (sn.map (fun n => if n.stepPeriod then 1 else 2)).getD 0
        let head := le 2 ctx ++ le 1 (rstateCode r.state) ++ le 1 r.d.role ++ le 2 r.w ++ le 1 r.ops.length ++ zeros 1 ++
          le 8 r.base ++ le 2 (r.octx.getD 0xFFFF) ++ le 1 kind ++ zeros 5 ++ le 8 ((sn.map (fun n => n.period)).getD 0)
        { Effect.ok s with
          data := fit 64 head ++ le 64 r.enabled ++ ((List.range r.w).map (scoreboard r)).flatten ++
            (if r.d.norm then snapshotBytes r else []) })

/-! ### RCTX_REFORM (R76, R77) -/

/-- Positions whose contents a re-form discards: those whose emission has not begun, ascending. -/
def discardable (r : Rctx) : List (Nat × Position) := r.positions.filter (fun p => !p.2.emitBegun && p.2.state != .emitted)

/-- The lowest position at or after b that is neither open nor released, `fuel` at least the positions held. -/
def lowestUnopened : Nat → Rctx → Nat → Nat
  | 0, _, q => q
  | n + 1, r, q => if tabHas r.positions q || r.released.contains q then lowestUnopened n r (q + 1) else q

/-- The boundary chunk of a re-form. -/
def boundaryOf (r : Rctx) : Nat × Nat :=
  match (discardable r).head? with
  | some p => (p.2.op, p.2.chunk)
  | none => nameAt r (lowestUnopened (r.positions.length + r.released.length + 1) r r.base)

/-- Whether some record covers a context's re-forms (R77). -/
def reformsCovered (r : Rctx) : Bool := r.octx.isSome || r.d.role ≤ 1

/-- A re-form takes effect; the positions it discards are returned in number. -/
def applyReform (ctx map : Nat) (s : State) : State :=
  match tabGet? s.rctxs ctx with
  | none => s
  | some r =>
    let gone := discardable r
    let qs := gone.map Prod.fst
    let at_ := boundaryOf r
    let entry : Reform := { opNum := at_.1, chunk := at_.2, map := map }
    let s := withdraw ctx qs { s with deck := { s.deck with queue := s.deck.queue.filter (fun e => match e.sweep with
      | .update c q => !(c == ctx && qs.contains q)
      | _ => true) } }
    let s := modRctx ctx (fun r =>
      { r with positions := r.positions.filter (fun p => !qs.contains p.1), enabled := map,
               reforms := if reformsCovered r then r.reforms ++ [entry] else r.reforms,
               state := if r.ops.isEmpty then .idle else .running }) s
    let s := gone.foldl (fun s p => (setBits r.d.slots map).foldl (fun s i =>
      toSlot r i p.2.op p.2.chunk (fun c => .resend c p.2.op p.2.chunk) s) s) s
    advanceWindow ctx s

/-- The row of RCTX_REFORM in its group table. -/
def rowRctxReform (x : Exec) (s : State) : Row :=
  let ctx := param x 0 2
  let map := leNat (desc x)
  { Row.job 0x0603 (onlyFields x.cmd.params [(0, 2)]) with
    descLen := 64,
    own := match jobRctx s x ctx with
      | none => fails true stState
      | some r =>
        fails (2 ^ r.d.slots ≤ map) stBadParam ++
          fails (r.state != .idle && (setBits r.d.slots map).any (fun i => !r.enabled.testBit i)) stState ++
          fails (reformsCovered r && 255 ≤ r.reforms.length) stNoResource }

/-- RCTX_REFORM. -/
def execRctxReform (x : Exec) (s : State) : Result :=
  let ctx := param x 0 2
  let map := leNat (desc x)
  runCmd x s (rowRctxReform x)
    (fun s =>
      let n := ((tabGet? s.rctxs ctx).map (fun r => (discardable r).length)).getD 0
      { Effect.ok (applyReform ctx map s) with r0 := n })

/-! ### AUDIT_SEAL (R150, R151, R156) -/

/-- The member tallies of a snapshot, summed exactly, and its sum tally, as the first bytes of a noise block. -/
def snapshotNoise (r : Rctx) (n : Snapshot) : List Byte :=
  let m := (List.range r.d.m).foldl (fun a i => a.fold (tabGet n.dots i (Tally.zero 640))) (Tally.zero 640)
  let t := if r.d.role ≤ 1 then Tally.zero 640 else tabGet n.dots sumKey (Tally.zero 640)
  m.bytes ++ t.bytes ++ le 1 m.flags ++ le 1 t.flags

/-- The record of a seal of step t. -/
def partialRecord (r : Rctx) (t : Nat) : RecordIn :=
  let ls := r.leaves.filter (fun l => l.step == t)
  let sn := if r.d.norm then r.snapshots.find? (fun n => n.stepPeriod && n.period == t) else none
  { kind := 1, cond := orConds (ls.map (fun l => l.cond)), reshard := false, abandoned := false, step := t, job := r.d.job,
    rule := 0xFF, octx := 0xFFFF, rctx := r.d.ctx, cfg := sha3 r.d.head, leaves := ls,
    noise := (sn.map (snapshotNoise r)).getD [], cf := 0, lr := 0, k1 := 0, k2 := 0, p1 := 0, p2 := 0, slots := r.d.slots,
    reforms := r.reforms, layers := [], chunks := ls.length, acct := r.acct, map := r.enabled }

/-- The row of AUDIT_SEAL in its group table. -/
def rowAuditSeal (x : Exec) (s : State) : Row :=
  let ctx := param x 0 2
  let t := param x 8 8
  { Row.job 0x0901 (onlyFields x.cmd.params [(0, 2), (8, 8)]) with
    own := match jobRctx s x ctx with
      | none => fails true stState
      | some r =>
        fails (1 < r.d.role || !r.leaves.any (fun l => l.step == t)) stState ++
          fails (auditFull s || r.positions.any (fun p => !(presentSlots p.2).isEmpty && p.2.step == t)) stBusy }

/-- AUDIT_SEAL. -/
def execAuditSeal (x : Exec) (s : State) : Result :=
  let ctx := param x 0 2
  let t := param x 8 8
  runCmd x s (rowAuditSeal x)
    (fun s =>
      match tabGet? s.rctxs ctx with
      | none => Effect.ok s
      | some r0 =>
        let r := if stepPeriods r0 && r0.period == some t then closePeriod r0 else r0
        let s := queueRecord (partialRecord r t) s
        Effect.ok (modRctx ctx (fun _ =>
          { r with leaves := r.leaves.filter (fun l => l.step != t), reforms := [],
                   covered := coverStep { step := t, leaves := r.leaves.filter (fun l => l.step == t) } r.covered,
                   acct := Account.start s }) s))

end Sys2Proof.Machine
end

