-- ==== Sys2Proof/Machine/Rules.lean ====
section
/-!
DEFINITION. The update arithmetic of R98, the rules of R99 to R104, the schedule engine of R105 to R107, the factors of
R115 and R116, and the noise statistics of R128 and R129.
-/
namespace Sys2Proof.Machine

/-! ### Operations (R98) -/

/-- A decoded FP32 pattern. -/
def fval (x : F32) : FVal := decodeElem fp32 x.toNat

/-- An FP32 pattern and conditions, from a rounding. -/
def packF32 (r : Nat × Cond) : F32 × Cond := (BitVec.ofNat 32 r.1, r.2)

def nan32 : F32 := 0x7FC00000#32
def one32 : F32 := 0x3F800000#32

/-- A NaN result (R98). -/
def nanResult : F32 × Cond := (nan32, { Cond.none with nan := true })

/-- An infinite result that did not overflow: INF alone (R98). -/
def infResult (neg : Bool) : F32 × Cond := (BitVec.ofNat 32 (infBits fp32 neg), { Cond.none with inf := true })

/-- Sum of two exact values (R98): signs of zero as IEEE 754 has them for round to nearest. -/
def addVal (a b : FVal) : FVal :=
  match a, b with
  | .nan, _ => .nan
  | _, .nan => .nan
  | .inf s, .inf t => if s = t then .inf s else .nan
  | .inf s, _ => .inf s
  | _, .inf t => .inf t
  | .fin sa ma qa, .fin sb mb qb =>
    if ma = 0 && mb = 0 then .fin (sa && sb) 0 0
    else
      let q := min qa qb
      let va : Int := (ma * 2 ^ (qa - q).toNat : Nat)
      let vb : Int := (mb * 2 ^ (qb - q).toNat : Nat)
      let v := (if sa then -va else va) + (if sb then -vb else vb)
      .fin (decide (v < 0)) v.natAbs q

/-- The value with its sign changed. -/
def negVal (a : FVal) : FVal :=
  match a with
  | .fin s m q => .fin (!s) m q
  | .inf s => .inf (!s)
  | .nan => .nan

/-- `rne32` of an exact value. -/
def rne32 (v : FVal) : F32 × Cond := packF32 (rneVal fp32 v)

def addF (a b : F32) : F32 × Cond := rne32 (addVal (fval a) (fval b))
def subF (a b : F32) : F32 × Cond := rne32 (addVal (fval a) (negVal (fval b)))
def mulF (trunc : Bool) (a b : F32) : F32 × Cond := rne32 (mulVal trunc (fval a) (fval b))

/-- Division (R98). -/
def divVal (a b : FVal) : F32 × Cond :=
  match a, b with
  | .nan, _ => nanResult
  | _, .nan => nanResult
  | .inf _, .inf _ => nanResult
  | .inf s, .fin t _ _ => infResult (xor s t)
  | .fin s _ _, .inf t => (BitVec.ofNat 32 (b2n (xor s t) * 2 ^ 31), Cond.none)
  | .fin s m q, .fin t n r =>
    if n = 0 then (if m = 0 then nanResult else infResult (xor s t))
    else packF32 (rne fp32 (xor s t) m n (q - r))

def divF (a b : F32) : F32 × Cond := divVal (fval a) (fval b)

/-- Integer square root, bit by bit from `2^bits` downwards. -/
def isqrtFrom : Nat → Nat → Nat → Nat
  | 0, _, r => r
  | i + 1, n, r => isqrtFrom i n (if (r + 2 ^ i) * (r + 2 ^ i) ≤ n then r + 2 ^ i else r)

/-- Square root (R98): the root with 2^-36 relative places or better and a sticky half when inexact, rounded once. -/
def sqrtF (a : F32) : F32 × Cond :=
  match fval a with
  | .nan => nanResult
  | .inf neg => if neg then nanResult else infResult false
  | .fin neg m q =>
    if m = 0 then (BitVec.ofNat 32 (b2n neg * 2 ^ 31), Cond.none)
    else if neg then nanResult
    else
      let sh : Nat := 80 + (if q % 2 = 0 then 0 else 1)
      let n := m * 2 ^ sh
      let r := isqrtFrom 60 n 0
      let v := 2 * r + (if r * r = n then 0 else 1)
      packF32 (rne fp32 false v 2 ((q - (sh : Int)) / 2))

/-! ### The rules (R99 to R103) -/

/-- The constants an update sweep uses for one element (R99, R105): `lrr` is lr, or the layer's lrr for Trust. -/
structure RuleIn where
  rule : Nat
  clip : Bool
  trunc : Bool
  alpha : F32
  cf : F32
  beta1 : F32
  beta2 : F32
  c1 : F32
  c2 : F32
  eps : F32
  wd : F32
  lr : F32
  lrr : F32
  k1 : F32
  k2 : F32

/-- What one element's update gives: new w, m, v; u for Trust's norm; conditions. -/
structure RuleOut where
  w : F32
  m : F32
  v : F32
  u : F32
  cond : Cond

/-- The prelude of R99 after g0. -/
def prelude (r : RuleIn) (g0 : F32) : F32 × Cond :=
  let a := mulF r.trunc r.alpha g0
  if r.clip then
    let b := mulF r.trunc a.1 r.cf
    (b.1, a.2.or b.2)
  else a

/-- SGD-M (R100). -/
def sgdM (r : RuleIn) (g w m : F32) : RuleOut :=
  let d := mulF r.trunc r.wd w
  let g1 := addF g d.1
  let a := mulF r.trunc r.beta1 m
  let m1 := addF a.1 g1.1
  let s := mulF r.trunc r.lr m1.1
  let w1 := subF w s.1
  { w := w1.1, m := m1.1, v := 0, u := 0,
    cond := d.2.or (g1.2.or (a.2.or (m1.2.or (s.2.or w1.2)))) }

/-- AdamW (R101), and Trust (R102) through `lrr`. -/
def adamW (r : RuleIn) (g w m v : F32) : RuleOut :=
  let a := mulF r.trunc r.beta1 m
  let b := mulF r.trunc r.c1 g
  let m1 := addF a.1 b.1
  let q := mulF r.trunc g g
  let c := mulF r.trunc r.beta2 v
  let e := mulF r.trunc r.c2 q.1
  let v1 := addF c.1 e.1
  let mh := divF m1.1 r.k1
  let vh := divF v1.1 r.k2
  let h := sqrtF vh.1
  let den := addF h.1 r.eps
  let u0 := divF mh.1 den.1
  let d := mulF r.trunc r.wd w
  let u := addF u0.1 d.1
  let s := mulF r.trunc r.lrr u.1
  let w1 := subF w s.1
  let conds := [a.2, b.2, m1.2, q.2, c.2, e.2, v1.2, mh.2, vh.2, h.2, den.2, u0.2, d.2, u.2, s.2, w1.2]
  { w := w1.1, m := m1.1, v := v1.1, u := u.1, cond := conds.foldl Cond.or Cond.none }

/-- One element through its rule (R99 to R103). -/
def applyRule (r : RuleIn) (g0 w m v : F32) : RuleOut :=
  let g := prelude r g0
  let o := if r.rule = 0 then sgdM r g.1 w m else adamW r g.1 w m v
  { o with cond := o.cond.or g.2 }

/-! ### The schedule (R105 to R107) -/

/-- rne32 of a ratio of integers. -/
def ratio32 (num den : Nat) : F32 := (packF32 (rne fp32 false num den 0)).1

/-- pi x 2^`p`, by Machin's formula pi = 16 atan(1/5) - 4 atan(1/239), with `n` terms. -/
def atanInv (p x : Nat) (n : Nat) : Int :=
  ((List.range n).map (fun k =>
    let t : Int := ((2 ^ p / ((2 * k + 1) * x ^ (2 * k + 1)) : Nat) : Int)
    if k % 2 = 0 then t else -t)).sum

def piScaled (p : Nat) : Int := 16 * atanInv p 5 100 - 4 * atanInv p 239 100

/-- Sum of a Taylor series of alternating terms: term_(k+1) = term_k x y2 / ((a + 2k)(a + 2k + 1)), all scaled by 2^p. -/
def taylor : Nat → Nat → Int → Int → Nat → Int
  | 0, _, _, _, _ => 0
  | n + 1, p, t, y2, a => t + taylor n p (-(t * y2 / 2 ^ p / (a * (a + 1)))) y2 (a + 2)

/-- cos(pi x num / den) for 0 <= num / den <= 1, scaled by 2^p: reduced to at most pi / 4 exactly first. -/
def cospiScaled (p num den : Nat) : Int :=
  let flip := decide (den < 2 * num)
  let n := if flip then den - num else num
  let sine := decide (den < 4 * n)
  let y : Int := if sine then piScaled p * ((den : Int) - 2 * n) / (2 * den) else piScaled p * n / den
  let y2 := y * y / 2 ^ p
  let c := if sine then taylor 60 p y y2 2 else taylor 60 p (2 ^ p) y2 1
  if flip then -c else c

/-- `rne32(cospi(q))` for q = rne32 of a ratio in 0 to 1 (R106). The value is irrational but for q = 0, 1/2 and 1, and
256 binary places decide its rounding (log entry 12). -/
def cospi (q : F32) : F32 :=
  match fval q with
  | .fin _ m e =>
    let num := if 0 ≤ e then m * 2 ^ e.toNat else m
    let den := if 0 ≤ e then 1 else 2 ^ (-e).toNat
    if num = 0 then one32
    else if num = den then 0xBF800000#32
    else if 2 * num = den then 0
    else
      let c := cospiScaled 256 num den
      (packF32 (rne fp32 (decide (c < 0)) c.natAbs 1 (-256))).1
  | _ => nan32

/-- The restart loop of R106: subtracts periods while tau exceeds P. P grows or stays, so tau is at most `fuel` periods
away; a constant P (T_MULT 1) is divided out first. -/
def restartLoop : Nat → Nat → Nat → Nat → Nat × Nat
  | 0, tau, p, _ => (tau, p)
  | fuel + 1, tau, p, mult => if p < tau then restartLoop fuel (tau - p) (p * mult) mult else (tau, p)

/-- The schedule factor f(t) (R106). -/
def scheduleFactor (d : ODesc) (t : Nat) : F32 :=
  if t ≤ d.warmup then ratio32 t d.warmup
  else if d.decay = 0 then one32
  else
    let tau0 := t - d.warmup
    let tp := if d.restart = 0 then (tau0, d.cycle)
      else if d.tMult ≤ 1 then ((tau0 - 1) % d.cycle + 1, d.cycle)
      else restartLoop 80 tau0 d.cycle d.tMult
    let q := if tp.2 < tp.1 then one32 else ratio32 (tp.1 - 1) tp.2
    let span := (subF one32 d.lrMinFrac).1
    let x := if d.decay = 1 then
        let c := cospi q
        let hc := (addF one32 c).1
        (mulF false 0x3F000000#32 hc).1
      else (subF one32 q).1
    (addF d.lrMinFrac (mulF false span x).1).1

/-- The step constants of a step t with its running products (R105, R107). -/
def stepConsts (d : ODesc) (t : Nat) (p1 p2 cf : F32) (r : List F32) : Consts :=
  { lr := (mulF false d.lr (scheduleFactor d t)).1,
    k1 := if d.rule = 0 then 0 else (subF one32 p1).1,
    k2 := if d.rule = 0 then 0 else (subF one32 p2).1,
    cf := cf, p1 := p1, p2 := p2, r := r }

/-! ### Factors and noise (R115, R116, R128, R129) -/

/-- Whether an FP32 pattern is finite. -/
def finite32 (x : F32) : Bool := match fval x with | .fin _ _ _ => true | _ => false

/-- Whether `a > b` for patterns that are not NaN, zeros of either sign alike. -/
def gt32 (a b : F32) : Bool :=
  match fval a, fval b with
  | .nan, _ => false
  | _, .nan => false
  | .fin sa ma qa, .fin sb mb qb =>
    if ma = 0 && mb = 0 then false
    else if ma = 0 then sb
    else if mb = 0 then !sa
    else belowVal (.fin sb mb qb) (.fin sa ma qa)
  | x, y => belowVal y x

/-- Whether a pattern is a zero. -/
def isZero32 (x : F32) : Bool := x &&& 0x7FFFFFFF#32 == 0

/-- The clip factor for step t + 1 (R115). -/
def clipFactor (d : ODesc) (sumSq : Tally 640) : F32 :=
  let q := packF32 (dotResult sumSq fp32)
  let gn := (sqrtF q.1).1
  let ga := (mulF false (d.alpha &&& 0x7FFFFFFF#32) gn).1
  if d.clip && finite32 ga && gt32 ga d.clipNorm then (divF d.clipNorm ga).1 else one32

/-- The trust ratio of one layer for step t + 1 (R116). -/
def trustRatio (d : ODesc) (w u : Tally 640) : F32 :=
  let wn := (sqrtF (packF32 (dotResult w fp32)).1).1
  let un := (sqrtF (packF32 (dotResult u fp32)).1).1
  if finite32 wn && finite32 un && !isZero32 wn && !isZero32 un then
    let q := (divF wn un).1
    if gt32 q d.trustMax then d.trustMax else q
  else one32

/-- floor(BN / BATCH_QUANT + 1/2) x BATCH_QUANT, limited to BATCH_MIN to BATCH_MAX (R129). -/
def suggestBatch (d : ODesc) (bn : F32) : Nat :=
  match fval bn with
  | .inf neg => if neg then d.batchMin else d.batchMax
  | .nan => d.batchMin
  | .fin neg m e =>
    let num := if 0 ≤ e then m * 2 ^ e.toNat else m
    let den := if 0 ≤ e then 1 else 2 ^ (-e).toNat
    let v : Int := if neg then -(num : Int) else num
    let s := (2 * v + d.batchQuant * den) / (2 * d.batchQuant * den) * d.batchQuant
    if s < d.batchMin then d.batchMin else if (d.batchMax : Int) < s then d.batchMax else s.toNat

/-- The noise statistics of a commit (R128, R129). -/
def noiseStats (d : ODesc) (memberSq sumSq : Tally 640) : Noise :=
  let n := d.membersTotal
  let b := d.bMember
  let bb := n * b
  let int32 (v : Nat) : FVal := .fin false v 0
  let qs := (packF32 (dotResult memberSq fp32)).1
  let qb := (packF32 (dotResult sumSq fp32)).1
  let sSmall := (divVal (fval qs) (int32 n)).1
  let sBig := (divVal (fval qb) (int32 (n * n))).1
  let x1 := (rne32 (mulVal false (int32 bb) (fval sBig))).1
  let x2 := (rne32 (mulVal false (int32 b) (fval sSmall))).1
  let dG := (subF x1 x2).1
  let g2 := (divVal (fval dG) (int32 (bb - b))).1
  let y := (subF sSmall sBig).1
  let k := ratio32 (b * bb) (bb - b)
  let ts := (mulF false y k).1
  let valid := finite32 g2 && gt32 g2 0 && finite32 ts
  let bn := if valid then (divF ts g2).1 else 0
  { memberSq := memberSq, sumSq := sumSq, sSmall := sSmall, sBig := sBig, g2 := g2, trace := ts, bNoise := bn,
    suggest := min (if valid then suggestBatch d bn else bb) 0xFFFFFFFF, valid := valid }

/-- The noise block's bytes (Table 04.14). -/
def Noise.bytes (x : Noise) : List Byte :=
  x.memberSq.bytes ++ x.sumSq.bytes ++ le 1 x.memberSq.flags ++ le 1 x.sumSq.flags ++ zeros 2 ++ le 4 x.sSmall.toNat ++
    le 4 x.sBig.toNat ++ le 4 x.g2.toNat ++ le 4 x.trace.toNat ++ le 4 x.bNoise.toNat ++ le 4 x.suggest ++
    le 4 (b2n x.valid)

end Sys2Proof.Machine
end

