-- ==== Sys2Proof/Machine/Optimizer.lean ====
section
/-!
DEFINITION. Shared operations of the optimizer contexts: records and banks (R90, R91), gather images (R118 to R122), the seal,
commit, confirmation and failure of a step (R108 to R113), roll-back (R114), and moves of a fence (R123).
-/
namespace Sys2Proof.Machine

/-! ### Records and banks (R16, R90, R91) -/

/-- Local chunks of a segment, and the records of one. -/
def segChunks (r : Rctx) (g : Segment) : Nat := ceilDiv g.records r.d.elems
def localLen (r : Rctx) (g : Segment) (j : Nat) : Nat := min r.d.elems (g.records - j * r.d.elems)

/-- Whether the stacks that hold a range of the state area are in service. -/
def rangeAlive (s : State) (lo len : Nat) : Bool :=
  len == 0 || (List.range 8).all (fun k => !(unitLost s (.stack k)) || k < stackOf lo || stackOf (lo + len - 1) < k)

/-- Whether a chunk's records in a bank lie on stacks in service. -/
def chunkAlive (s : State) (r : Rctx) (o : Octx) (seg j b : Nat) : Bool :=
  let g := segAt o.d seg
  rangeAlive s (recordAddr o.d g (j * r.d.elems) b) (localLen r g j * recordSize o.d)

/-- Every (segment, local chunk) of a context. -/
def localChunks (r : Rctx) (o : Octx) : List (Nat × Nat) :=
  (o.d.segments.zipIdx.map (fun g => (List.range (segChunks r g.1)).map (fun j => (g.2, j)))).flatten

/-- Whether a bank's entry of a chunk holds a version. -/
def holdsVersion (s : State) (r : Rctx) (o : Octx) (seg j v : Nat) : Bool :=
  let e := (getChunk o seg j).bank v
  e.valid && e.step == v && chunkAlive s r o seg j v

/-- A version is whole when every record of the context holds it (R91). -/
def versionWhole (s : State) (r : Rctx) (o : Octx) (v : Nat) : Bool := (localChunks r o).all (fun c => holdsVersion s r o c.1 c.2 v)

/-- Chunks whose records have been written in the open step. -/
def chunksWritten (r : Rctx) (o : Octx) : Nat := ((localChunks r o).filter (fun c => (getChunk o c.1 c.2).written)).length

def modChunk (octx seg j : Nat) (f : ChunkState → ChunkState) (s : State) : State :=
  modOctx octx (fun o => { o with chunks := tabPut o.chunks (chunkKey seg j) (f (getChunk o seg j)) }) s

/-- One bank's entry of a chunk changed. -/
def modEntry (octx seg j b : Nat) (f : ChunkEntry → ChunkEntry) (s : State) : State :=
  modChunk octx seg j (fun c => c.setBank b (f (c.bank b))) s

/-! ### Gather images (R39, R40, R118, R119, R122) -/

/-- Whether gather rows are longer than a chunk. -/
def rowGather (r : Rctx) (o : Octx) : Bool := isScaled o.d.gatherFmt && decide (r.d.elems < 2 ^ o.d.gatherRowLog2)

/-- w of n records from record k of a segment in a bank. -/
def readW (s : State) (o : Octx) (g : Segment) (k n b : Nat) : List F32 :=
  (List.range n).map (fun i => BitVec.ofNat 32 (leNat (readBytes s (recordAddr o.d g (k + i) b) 4)))

/-- One row converted with its scale exponent: element bytes and conditions (R40). -/
def convertRow (code : Nat) (e : Int) (ws : List F32) : List Byte × Cond :=
  match fmtOf code with
  | none => ([], Cond.none)
  | some f =>
    let xs := ws.map (convertScaled f e)
    ((xs.map (fun x => le f.bytes x.1)).flatten, (xs.map Prod.snd).foldl Cond.or Cond.none)

/-- A scale byte of an exponent (R21). -/
def scaleByte (e : Int) : Byte := BitVec.ofNat 8 (e + 127).toNat

/-- The image of a chunk of new weights: element bytes, scale bytes, conditions (R39, R40). `row` gives the weights of the whole
row where rows are longer than a chunk. -/
def imageOf (r : Rctx) (o : Octx) (ws : List F32) (row : Option (List F32)) : List Byte × List Byte × Cond :=
  let code := o.d.gatherFmt
  match fmtOf code with
  | none => ([], [], Cond.none)
  | some f =>
    if !isScaled code then
      let xs := ws.map (convertUnscaled f)
      ((xs.map (fun x => le f.bytes x.1)).flatten, [], (xs.map Prod.snd).foldl Cond.or Cond.none)
    else match row with
      | some all =>
        let e := rowScale f all
        let x := convertRow code e ws
        (x.1, [scaleByte e], x.2)
      | none =>
        let rows := chunksOf (r.d.elems + 1) (2 ^ o.d.gatherRowLog2) ws
        let es := rows.map (rowScale f)
        let xs := (rows.zip es).map (fun p => convertRow code p.2 p.1)
        ((xs.map Prod.fst).flatten, es.map scaleByte, (xs.map Prod.snd).foldl Cond.or Cond.none)

/-- Local chunks of the gather row that holds a local chunk, within its operation (R119). -/
def rowChunks (r : Rctx) (o : Octx) (op : Operation) (g : Segment) (j : Nat) : List Nat :=
  if rowGather r o then
    let row (k : Nat) : Nat := chunkOfLocal r.d op.f k * r.d.elems / 2 ^ o.d.gatherRowLog2
    (List.range (segChunks r g)).filter (fun k => row k == row j)
  else [j]

/-- The ranges of the state area that a queued sweep reads (R96, R119, R122). -/
def sweepInputs (s : State) (w : Sweep) : List (Nat × Nat) :=
  match w with
  | .fold _ _ _ => []
  | .update c q =>
    (match tabGet? s.rctxs c with
     | none => []
     | some r =>
       match tabGet? r.positions q, r.octx.bind (tabGet? s.octxs) with
       | some p, some o =>
         (((knownOp r p.op).bind (fun op => segmentOf r o op p.chunk)).map (fun g => chunkRange r o.d g.1 g.2 o.s)).toList
       | _, _ => [])
  | .gather n seg j b =>
    (match (tabGet? s.octxs n).bind (fun o => (tabGet? s.rctxs o.d.rctx).map (fun r => (o, r))) with
     | none => []
     | some (o, r) =>
       match knownOp r (segAt o.d seg).opNum with
       | none => []
       | some op => (rowChunks r o op (segAt o.d seg) j).map (fun i => chunkRange r o.d seg i b))

/-- Whether the records that a queued sweep reads have arrived (R60): every stack that holds them answers, or is lost. -/
def inputsPresent (s : State) (w : Sweep) : Bool :=
  (sweepInputs s w).all (fun x => (List.range 8).all (fun k => !inRange x k || unitLost s (.stack k) || stackAwake s k))

/-- Stack whose pool holds an image. -/
def imageStack (r : Rctx) (o : Octx) (seg j b : Nat) : Nat := stackOf (recordAddr o.d (segAt o.d seg) (j * r.d.elems) b)

/-- Whether an image's push has not finished: it is of the version that an open position of its chunk is emitting. -/
def pushUnfinished (s : State) (im : Image) : Bool :=
  match tabGet? s.octxs im.octx with
  | none => false
  | some o =>
    match tabGet? s.rctxs o.d.rctx with
    | none => false
    | some r =>
      r.positions.any (fun p => p.2.emitBegun && p.2.state != .emitted && p.2.step == im.version &&
        ((knownOp r p.2.op).bind (fun op => segmentOf r o op p.2.chunk)) == some (im.seg, im.chunk))

def imageSize (im : Image) : Nat := im.bytes.length + im.scales.length

/-- The pool with its oldest images given up until it fits; an image being pushed stays (R122). -/
def trimPool (s : State) : Nat → List Image → List Image
  | 0, l => l
  | n + 1, l =>
    if (l.map imageSize).sum ≤ 2684354560 then l
    else match l.find? (fun im => !pushUnfinished s im) with
      | none => l
      | some im => trimPool s n (l.erase im)

/-- An image is written to the staging pool of a stack. -/
def stageImage (k : Nat) (im : Image) (s : State) : State :=
  modStack k (fun x =>
    let others := x.staging.filter (fun y => !(y.octx == im.octx && y.seg == im.seg && y.chunk == im.chunk && y.bank == im.bank))
    { x with staging := trimPool s (others.length + 1) (others ++ [im]) }) s

/-- Every staged image. -/
def stagedImages (s : State) : List Image := (s.hbm.stk.map (fun k => k.2.staging)).flatten

def findImage (s : State) (octx seg j b : Nat) : Option Image :=
  (stagedImages s).find? (fun y => y.octx == octx && y.seg == seg && y.chunk == j && y.bank == b % 2)

/-- Staged images that meet a test are changed or, where `f` gives none, dropped. -/
def mapImages (f : Image → Option Image) (s : State) : State :=
  { s with hbm := { s.hbm with stk := s.hbm.stk.map (fun k => (k.1, { k.2 with staging := k.2.staging.filterMap f })) } }

/-- New weights of a chunk's gather row, or of the chunk where the row is not longer: w from a bank. -/
def rowWeights (s : State) (r : Rctx) (o : Octx) (op : Operation) (seg j b : Nat) : List F32 :=
  let g := segAt o.d seg
  ((rowChunks r o op g j).map (fun i => readW s o g (i * r.d.elems) (localLen r g i) b)).flatten

/-- The image of a chunk formed from a bank's records. -/
def formImage (s : State) (r : Rctx) (o : Octx) (op : Operation) (seg j b : Nat) : List Byte × List Byte × Cond :=
  let g := segAt o.d seg
  imageOf r o (readW s o g (j * r.d.elems) (localLen r g j) b) (if rowGather r o then some (rowWeights s r o op seg j b) else none)

/-- g0 of a berth (R33). -/
def berthG0 (b : Berth) : F32 × Cond :=
  match b with
  | .sum t => let x := sumResult t fp32; (BitVec.ofNat 32 x.1, x.2)
  | _ => (0, Cond.none)

/-! ### Gather packets (R118, R120, R121, R182) -/

/-- The packets of an image relative to a base: index, offset, payload, valid bytes of the last unit. Scale bytes last. -/
def imagePieces (r : Rctx) (o : Octx) (op : Operation) (chunk : Nat) (im : Image) : List (Nat × Nat × List Byte × Nat) :=
  let gs := elemBytes o.d.gatherFmt
  let first := (chunk * r.d.elems - op.f) * gs
  let cut := chunksOf (im.bytes.length + 1) 4096 im.bytes
  let elems := cut.zipIdx.map (fun b => (b.2, first + 4096 * b.2, fit (roundUp b.1.length 64) b.1, 64))
  let lg := 2 ^ o.d.gatherRowLog2
  let n := im.scales.length
  if n = 0 then elems
  else elems ++ [(cut.length, roundUp (op.k * gs) 64 + (chunk * r.d.elems / lg - op.f / lg), fit (roundUp n 64) im.scales,
    n - 64 * (ceilDiv n 64 - 1))]

/-- The first eight bytes of the version tag (Table 04.12). -/
def tagAux (job octx : Nat) (digest : List Byte) : Nat := job + 2 ^ 16 * octx + 2 ^ 32 * leNat (digest.take 4)

/-- A GATHER packet. -/
def gatherPacket (hdr : Header) (ctx op chunk pkt cond fmt fan addr step aux tail : Nat) (payload : List Byte) : Packet :=
  mkPacket hdr (.long 0x47 { LongHdr.zero with units := payload.length / 64, tail := tail, ctx := ctx, opNum := op, pkt := pkt,
                                               chunk := chunk, cond := cond, fmt := fmt, nodeFan := fan, addr := addr, step := step,
                                               aux := aux } payload)

/-- The member slot that takes a chunk for a node of slots lo to hi - 1 (R118): the chosen one, or the next enabled. -/
def nodeSlot (r : Rctx) (lo hi chunk : Nat) : Option Nat :=
  let n := hi - lo
  ((List.range n).map (fun i => lo + (chunk % n + i) % n)).find? (fun i => r.enabled.testBit i)

/-- The member slots that a chunk's image goes to, one a node. -/
def nodeSlots (r : Rctx) (fan chunk : Nat) : List Nat :=
  (List.range (ceilDiv r.d.m (max 1 fan))).filterMap (fun k => nodeSlot r (k * max 1 fan) (min ((k + 1) * max 1 fan) r.d.m) chunk)

/-- What a gather image packet says, whoever sends it on: index, offset from the result base, whether it is the last. -/
structure GatherPiece where
  op : Operation
  chunk : Nat
  pkt : Nat
  off : Nat
  cond : Nat
  fmt : Nat
  fan : Nat
  step : Nat
  aux : Nat
  tail : Nat
  payload : List Byte
  last : Bool

/-- Replicas of a gather packet: one a node of local members, then the peers below, to whom ADDR is the offset from a
member's result base (log entry 24). -/
def gatherReplicas (s : State) (r : Rctx) (g : GatherPiece) : List Replica :=
  let cls := (classesOf s r.d.job).reduce
  let gs := elemBytes g.fmt
  let l := originLanding s (g.chunk % 8)
  (nodeSlots r g.fan g.chunk).filterMap (fun i =>
    match g.op.announces.find? (fun a => a.slot == i), hawserOfRank s r.d.job (slotRank r.d i) with
    | some a, some h =>
      let n := namingFor s r i g.op.num
      let hdr := { ownHeader s cls r.d.job (slotAddr s r i) with phase := n.phase, last := g.last, notifyDst := g.last }
      let base := a.resultBase + (g.chunk * r.d.elems - g.op.f) * gs
      some { dest := .hawser h,
             pkt := gatherPacket hdr n.lctx g.op.num g.chunk g.pkt g.cond g.fmt g.fan (a.resultBase + g.off) g.step g.aux g.tail g.payload,
             follow := if g.last then some (chunkLanding s hdr n g.op.num g.chunk base (chunkElems r.d g.op g.chunk * gs)) else none }
    | _, _ => none) ++
  (downPeers r g.chunk).map (fun p =>
    { dest := .crossing p.1 l 0, follow := none,
      pkt := gatherPacket { ownHeader s cls r.d.job p.1 with last := g.last, egress := p.1 } p.2 g.op.num g.chunk g.pkt g.cond g.fmt
        g.fan g.off g.step g.aux g.tail g.payload })

/-- A gather packet enters its source as one multicast. -/
def sendGather (r : Rctx) (g : GatherPiece) (tag : Option EmitTag) (s : State) : State :=
  match gatherReplicas s r g with
  | [] => s
  | x :: xs => originateReps (g.chunk % 8) x.pkt (x :: xs) tag s

/-- The pieces of a chunk's image. -/
def gatherPieces (r : Rctx) (o : Octx) (op : Operation) (chunk : Nat) (im : Image) : List GatherPiece :=
  let ps := imagePieces r o op chunk im
  ps.map (fun p =>
    { op := op, chunk := chunk, pkt := p.1, off := p.2.1, cond := im.cond.toNat, fmt := o.d.gatherFmt, fan := o.d.nodeFan,
      step := im.version, aux := tagAux r.d.job o.d.octx im.digest, tail := p.2.2.2, payload := p.2.2.1,
      last := p.1 + 1 == ps.length })

/-- The push of a visible chunk (R118), which is its position's emission. -/
def pushImage (octx q : Nat) (im : Image) (s : State) : State :=
  match tabGet? s.octxs octx with
  | none => s
  | some o =>
    match (tabGet? s.rctxs o.d.rctx).bind (fun r => (tabGet? r.positions q).bind (fun p => (knownOp r p.op).map (fun op => (r, p, op)))) with
    | none => s
    | some (r, p, op) =>
      let gs := gatherPieces r o op p.chunk im
      let n := (gs.map (fun g => (gatherReplicas s r g).length)).sum
      gs.foldl (fun s g => sendGather r g (some { rctx := o.d.rctx, pos := some q }) s) (beginEmission o.d.rctx q n s)

/-- A reply to a GATHER_REQ (R121, R182): to the requester alone. -/
def replyGather (r : Rctx) (o : Octx) (op : Operation) (chunk : Nat) (w : GatherWait) (im : Image) (s : State) : State :=
  let gs := elemBytes o.d.gatherFmt
  (gatherPieces r o op chunk im).foldl (fun s g =>
    let hdr := { ownHeader s (classesOf s r.d.job).request r.d.job w.requester with
                 phase := w.naming.phase, last := g.last, notifyDst := g.last, tag := w.tag }
    let base := w.resultAddr + (chunk * r.d.elems - op.f) * gs
    originateTo (chunk % 8)
      (gatherPacket hdr w.naming.lctx op.num chunk g.pkt g.cond g.fmt g.fan (w.resultAddr + g.off) g.step g.aux g.tail g.payload)
      (if g.last then some (chunkLanding s hdr w.naming op.num chunk base (chunkElems r.d op chunk * gs)) else none) s) s

/-! ### Norms and beacons (R108, R110, Tables 04.9, 04.10) -/

def Norms.zero (layers : Nat) : Norms :=
  { sumSq := Tally.zero 640, memberSq := Tally.zero 640, layerW := List.replicate layers (Tally.zero 640),
    layerU := List.replicate layers (Tally.zero 640) }

def Norms.add (a b : Norms) : Norms :=
  { sumSq := a.sumSq.fold b.sumSq, memberSq := a.memberSq.fold b.memberSq, layerW := a.layerW.zipWith Tally.fold b.layerW,
    layerU := a.layerU.zipWith Tally.fold b.layerU }

/-- Layers whose tallies are exchanged. -/
def trustLayers (d : ODesc) : Nat := if d.rule = 2 then d.layers else 0

/-- The entries sent: KIND, INDEX, tally. -/
def Norms.entries (n : Norms) : List (Nat × Nat × Tally 640) :=
  (0, 0, n.sumSq) :: (1, 0, n.memberSq) :: (n.layerW.zipIdx.map (fun t => (2, t.2, t.1)) ++ n.layerU.zipIdx.map (fun t => (3, t.2, t.1)))

/-- Tallies received, keyed by KIND x 2^16 + INDEX. -/
def Norms.ofTab (layers : Nat) (t : Tab (Tally 640)) : Norms :=
  let at_ (k : Nat) : Tally 640 := tabGet t k (Tally.zero 640)
  { sumSq := at_ 0, memberSq := at_ 65536, layerW := (List.range layers).map (fun i => at_ (131072 + i)),
    layerU := (List.range layers).map (fun i => at_ (196608 + i)) }

/-- The own tallies of the step being sealed. -/
def ownNorms (r : Rctx) (o : Octx) : Norms :=
  let ls := List.range (trustLayers o.d)
  { sumSq := tabGet r.dots sumKey (Tally.zero 640),
    memberSq := (List.range r.d.m).foldl (fun a i => a.fold (tabGet r.dots i (Tally.zero 640))) (Tally.zero 640),
    layerW := ls.map (fun i => tabGet o.layerW i (Tally.zero 640)), layerU := ls.map (fun i => tabGet o.layerU i (Tally.zero 640)) }

def putPeer (octx i : Nat) (p : PeerState) (s : State) : State := modOctx octx (fun o => { o with peers := tabPut o.peers i p }) s

/-- A long packet to a peer of the commit group. -/
def groupPacket (s : State) (o : Octx) (addr kind : Nat) (ord : Bool) (payload : List Byte) : Packet :=
  longPacket { ownHeader s (classesOf s o.d.job).reduce o.d.job addr with ord := ord } kind LongHdr.zero payload

/-- The norm packets of a step, in order. -/
def normPayloads (o : Octx) (t : Nat) (n : Norms) : List (List Byte) :=
  (chunksOf 43 48 n.entries).map (fun es =>
    fit 4032 (es.map (fun e => e.2.2.bytes ++ le 2 e.2.1 ++ le 1 e.1 ++ le 1 e.2.2.flags)).flatten ++ le 8 t ++ le 2 o.d.octx ++
      le 1 es.length ++ zeros 53)

/-- A beacon's payload. -/
def beaconPayload (o : Octx) (kind step : Nat) : List Byte :=
  fit 16 (le 1 kind ++ zeros 1 ++ le 2 o.d.octx ++ le 2 (ceilDiv (2 + 2 * trustLayers o.d) 48) ++ zeros 2 ++ le 8 step) ++ cfg48 o

/-- A beacon to a peer, preceded by norm packets where it reports a step (R108). DISAGREE has none (log entry 25). -/
def sendBeacon (octx i kind step : Nat) (norms : Option Norms) (s : State) : State :=
  match tabGet? s.octxs octx with
  | none => s
  | some o =>
    match o.d.peers[i]? with
    | none => s
    | some p =>
      let l := lowestLanding s
      let s := ((norms.map (normPayloads o step)).getD []).foldl (fun s b => originatePeer l 0 (groupPacket s o p.1 0x49 false b) none s) s
      let b := beaconPayload o kind step
      originatePeer l 0 (groupPacket s o p.1 0x48 true (if norms.isSome then b else b.take 4 ++ zeros 2 ++ b.drop 6)) none s

/-- READY for the open step to every peer (R110). -/
def sendReady (octx : Nat) (s : State) : State :=
  match tabGet? s.octxs octx with
  | none => s
  | some o =>
    match o.own with
    | none => s
    | some (t, n) =>
      let s := modOctx octx (fun o => { o with sentReady := true }) s
      (List.range o.d.peers.length).foldl (fun s i => sendBeacon octx i 0 t (some n) s) s

/-! ### Sealing (R64, R109) -/

/-- The step is sealed once every chunk of every segment has been written: the period closes and its tallies are kept. -/
def sealIfWritten (octx : Nat) (s : State) : State :=
  match tabGet? s.octxs octx with
  | none => s
  | some o =>
    match tabGet? s.rctxs o.d.rctx with
    | none => s
    | some r =>
      if o.sealedStep || !(localChunks r o).all (fun c => (getChunk o c.1 c.2).written) then s
      else
        let s := modOctx octx (fun x => { x with sealedStep := true, own := some (o.s + 1, ownNorms r o) }) s
        let snap : Snapshot := { stepPeriod := true, period := o.s + 1, dots := r.dots }
        modRctx o.d.rctx (fun r =>
          { r with period := none, dots := [], snapshots := if r.d.norm then (snap :: r.snapshots).take 2 else r.snapshots }) s

/-! ### Held chunks (R89, R94, R114) -/

/-- Positions of the linked context whose chunk waits for, or is in, its update and is not yet visible. -/
def unfinishedPositions (r : Rctx) (all : Bool) : List Nat :=
  (r.positions.filter (fun p => p.2.state == .complete &&
    (p.2.held || (all && (p.2.queued || (p.2.emitBegun && p.2.emitLeft == 0)))))).map Prod.fst

/-- Held chunks, and with `all` those queued or in their sweep, are discarded and their positions released. -/
def discardHeld (ctx : Nat) (all : Bool) (s : State) : State :=
  match tabGet? s.rctxs ctx with
  | none => s
  | some r =>
    let qs := unfinishedPositions r all
    let keep (e : ReadySweep) : Bool := match e.sweep with
      | .update c q => !(c == ctx && qs.contains q)
      | _ => true
    let deck := { s.deck with queue := s.deck.queue.filter keep }
    let hbm := { s.hbm with writes := s.hbm.writes.filter (fun w => !(w.rctx == ctx && qs.contains w.pos)) }
    let s := { s with deck := deck, hbm := hbm }
    qs.foldl (fun s q => releasePosition ctx q s) s

/-! ### Records of steps (R150, R151) -/

/-- A record of an optimizer context: kind 0 or 2, with the constants its fields carry. -/
def stepRecord (r : Rctx) (o : Octx) (kind step chunks : Nat) (c : Consts) (leaves : List Leaf) (noise : List Byte)
    (reshard abandoned : Bool) : RecordIn :=
  { kind := kind, cond := orConds (leaves.map (fun l => l.cond)), reshard := reshard, abandoned := abandoned, step := step,
    job := o.d.job, rule := o.d.rule, octx := o.d.octx, rctx := o.d.rctx, cfg := o.d.digest, leaves := leaves, noise := noise,
    cf := c.cf, lr := c.lr, k1 := c.k1, k2 := c.k2, p1 := c.p1, p2 := c.p2, slots := r.d.slots, reforms := r.reforms,
    layers := if o.d.rule = 2 then c.r else [], chunks := chunks, acct := o.acct, map := r.enabled }

/-- What every record of the context starts anew. -/
def restartAccount (octx ctx : Nat) (s : State) : State :=
  let a := Account.start s
  modRctx ctx (fun r => { r with reforms := [] }) (modOctx octx (fun o => { o with acct := a, leaves := [] }) s)

/-! ### Moves of a fence (R123, log entry 26) -/

/-- The segment and record of a context's record index, counted over its segments in order. -/
def locateRecord : List Segment → Nat → Nat → Option (Nat × Nat)
  | [], _, _ => none
  | g :: gs, i, k => if k < g.records then some (i, k) else locateRecord gs (i + 1) (k - g.records)

/-- Records before a segment. -/
def recordsBefore (gs : List Segment) (i : Nat) : Nat := ((gs.take i).map (fun g => g.records)).sum

/-- A chunk table entry as it travels: step, digest, word, flags with whether its image travels too. -/
def entryBytes (e : ChunkEntry) (imaged : Bool) : List Byte :=
  fit 32 (le 8 e.step ++ fit 4 e.digest32 ++ le 2 e.cond.toNat ++ le 1 (b2n e.valid + 2 * b2n e.visible + 4 * b2n imaged))

def parseEntry (b : List Byte) : ChunkEntry :=
  { valid := bit (field b 14 1) 0, visible := bit (field b 14 1) 1, step := field b 0 8, digest32 := bytesAt b 8 4,
    cond := BitVec.ofNat 16 (field b 12 2) }

/-- Bytes that one bank's image of a chunk takes in the image part of a move: element bytes, then scale bytes. -/
def imageSlotSize (r : Rctx) (d : ODesc) : Nat :=
  let gs := elemBytes d.gatherFmt
  roundUp (r.d.elems * gs) 64 + (if isScaled d.gatherFmt then roundUp (max 1 (r.d.elems / 2 ^ d.gatherRowLog2)) 64 else 0)

/-- The parts of a move entry: part code, first byte offset at the destination, bytes. -/
def moveParts (s : State) (r : Rctx) (o : Octx) (m : Move) : List (Nat × Nat × List Byte) :=
  let g := segAt o.d m.seg
  let size := recordSize o.d
  let e := r.d.elems
  let j0 := m.first / e
  let js := (List.range (ceilDiv m.records e)).map (· + j0)
  let bank (b : Nat) : List Byte := readBytes s (recordAddr o.d g m.first b) (m.records * size)
  let gs := elemBytes o.d.gatherFmt
  let sent (j b : Nat) : Option Image := (findImage s o.d.octx m.seg j b).filter (fun im => im.complete)
  let image (j b : Nat) : List Byte :=
    match sent j b with
    | some im => fit (roundUp (e * gs) 64) im.bytes ++ fit (imageSlotSize r o.d - roundUp (e * gs) 64) im.scales
    | none => zeros (imageSlotSize r o.d)
  let digests (j : Nat) : List Byte :=
    let c := getChunk o m.seg j
    entryBytes c.bank0 (sent j 0).isSome ++ entryBytes c.bank1 (sent j 1).isSome
  [(0, m.dest * size, bank 0), (1, m.dest * size, bank 1),
   (2, m.dest / e * (2 * imageSlotSize r o.d), (js.map (fun j => image j 0 ++ image j 1)).flatten),
   (3, m.dest / e * 64, (js.map digests).flatten)]

/-- Bytes at an offset of one bank part written to the records they name, byte by byte. -/
def writeBankPart (d : ODesc) (gs : List Segment) (b off : Nat) (bs : List Byte) (s : State) : State :=
  bs.zipIdx.foldl (fun s x =>
    match locateRecord gs 0 ((off + x.2) / recordSize d) with
    | some (i, k) => writeBytes (recordAddr d (gs.getD i { opNum := 0, records := 0, base := 0 }) k b + (off + x.2) % recordSize d) [x.1] s
    | none => s) s

/-- Chunk table entries of a move, from an offset of the digest part: the chunk each is of, by key, with its 64 bytes. -/
def digestEntries (e : Nat) (gs : List Segment) (off : Nat) (bs : List Byte) : List (Nat × List Byte) :=
  (chunksOf (bs.length / 64 + 1) 64 bs).zipIdx.filterMap (fun x =>
    (locateRecord gs 0 ((off / 64 + x.2) * e)).map (fun g => (chunkKey g.1 (g.2 / e), x.1)))

/-- The entries that they bring, and the chunks with a bank whose images travel too. -/
def takeEntries (es : List (Nat × List Byte)) (t : Tab ChunkState) : Tab ChunkState :=
  es.foldl (fun t x => tabPut t x.1 { bank0 := parseEntry x.2, bank1 := parseEntry (x.2.drop 32), written := false }) t

def imagedEntries (es : List (Nat × List Byte)) : List (Nat × Nat) :=
  (es.map (fun x => (if bit (field x.2 14 1) 2 then [(x.1, 0)] else []) ++ (if bit (field x.2 46 1) 2 then [(x.1, 1)] else []))).flatten

/-- The tables a move writes under: those of the fence, or the context's own. -/
def moveTables (o : Octx) : List Segment := (o.fence.map (fun f => f.segments)).getD o.d.segments

/-- A move part arrives (R123). A context with no fence of its own takes records and entries at once; images are formed again there on
request (log entry 26). -/
def applyMove (octx part off : Nat) (bs : List Byte) (s : State) : State :=
  match tabGet? s.octxs octx with
  | none => s
  | some o =>
    match tabGet? s.rctxs o.d.rctx with
    | none => s
    | some r =>
      match part with
      | 0 => writeBankPart o.d (moveTables o) 0 off bs s
      | 1 => writeBankPart o.d (moveTables o) 1 off bs s
      | 2 => modOctx octx (fun x => { x with fence := x.fence.map (fun f => { f with images := tabPut f.images off bs }) }) s
      | _ =>
        let es := digestEntries r.d.elems (moveTables o) off bs
        match o.fence with
        | some f =>
          modOctx octx (fun x => { x with fence := some { f with chunks := takeEntries es f.chunks, imaged := f.imaged ++ imagedEntries es } }) s
        | none => modOctx octx (fun x => { x with chunks := takeEntries es x.chunks }) s

/-- The MOVE packets of one move entry, LAST on the final one (R182); a destination on this F384 is written at once. -/
def sendMove (octx : Nat) (m : Move) (s : State) : State :=
  match tabGet? s.octxs octx with
  | none => s
  | some o =>
    match tabGet? s.rctxs o.d.rctx with
    | none => s
    | some r =>
      let pieces := ((moveParts s r o m).map (fun p =>
        (chunksOf (p.2.2.length + 1) 4096 p.2.2).zipIdx.map (fun b => (p.1, p.2.1 + 4096 * b.2, b.1)))).flatten
      if m.destAddr = ownAddr s then pieces.foldl (fun s p => applyMove m.destOctx p.1 p.2.1 p.2.2 s) s
      else pieces.zipIdx.foldl (fun s p =>
        let n := p.1.2.2.length
        let hdr := { ownHeader s (classesOf s o.d.job).reduce o.d.job m.destAddr with last := p.2 + 1 == pieces.length }
        originatePeer (lowestLanding s) 0
          (mkPacket hdr (.long 0x4A { LongHdr.zero with units := ceilDiv n 64, tail := n - 64 * (ceilDiv n 64 - 1), ctx := m.destOctx,
                                                        part := p.1.1, addr := p.1.2.1 } (fit (roundUp n 64) p.1.2.2))) none s) s

/-! ### Commit and confirmation (R110 to R112) -/

/-- Whether the last commit is confirmed (R112). -/
def confirmsAll (o : Octx) : Bool :=
  (List.range o.d.peers.length).all (fun i =>
    let p := getPeer o i
    ((p.committed.map (fun c => c.1 == o.s)).getD false) || ((p.ready.map (fun c => c.1 == o.s + 1)).getD false))

/-- The commit of S is confirmed: its norm packets go, and chunks held for it are queued (R94). -/
def confirmIfHeld (octx : Nat) (s : State) : State :=
  match tabGet? s.octxs octx with
  | none => s
  | some o =>
    if !o.confirmed && confirmsAll o then
      let keep := if (o.own.map (fun x => x.1 == o.s)).getD false then none else o.own
      recheckHeld o.d.rctx (modOctx octx (fun o => { o with confirmed := true, own := keep }) s)
    else s

/-- The constants of step t + 1 from the group's sums (R105, R107, R111, R115, R116). -/
def nextConsts (o : Octx) (sum : Norms) : Consts :=
  let p (x b : F32) : F32 := if o.d.rule = 0 then 0 else (mulF false x b).1
  let cf := clipFactor o.d sum.sumSq
  let rs := if o.d.rule = 2 then (sum.layerW.zip sum.layerU).map (fun x => trustRatio o.d x.1 x.2) else []
  stepConsts o.d (o.s + 2) (p o.cur.p1 o.d.beta1) (p o.cur.p2 o.d.beta2) cf rs

/-- The step's noise block (R128). -/
def commitNoise (o : Octx) (sum : Norms) : Option Noise := if o.d.noise then some (noiseStats o.d sum.memberSq sum.sumSq) else none

/-- The fence takes effect at the commit (R123 steps 2 and 3). -/
def fenceNow (octx : Nat) (s : State) : State :=
  match tabGet? s.octxs octx with
  | none => s
  | some o =>
    match o.fence with
    | none => s
    | some f =>
      let held := ((tabGet? s.rctxs o.d.rctx).map (fun r => unfinishedPositions r false)).getD []
      let s := held.foldl (fun s _ => countJob o.d.job 15 s) s
      let s := discardHeld o.d.rctx false (modOctx octx (fun o => { o with state := .fenced }) s)
      f.moves.foldl (fun s m => sendMove octx m s) s

/-- The leaf of a chunk in the open step takes the word that its row's conversion completes, while its tally is held. -/
def reviseLeaf (r : Rctx) (op : Operation) (chunk : Nat) (cond : BitVec 16) (l : Leaf) : Leaf :=
  if l.opNum = op.num && l.chunk = chunk then
    match r.positions.find? (fun p => p.2.op == op.num && p.2.chunk == chunk && p.2.emitBegun) with
    | some p =>
      { l with cond := cond, result := sha3 ((p.2.berths.map (fun b => le 4 (berthG0 b).1.toNat)).flatten ++ le 2 cond.toNat) }
    | none => l
  else l

/-- The leaves of a sealed step as its record covers them: where a gather row is longer than a chunk, the word of a chunk whose row has
not been converted yet is completed from the step's records, all of which have been written (R119, R130, R156). -/
def sealedLeaves (s : State) (r : Rctx) (o : Octx) : List Leaf :=
  if !rowGather r o then o.leaves
  else (localChunks r o).foldl (fun ls c =>
    let e := (getChunk o c.1 c.2).bank (o.s + 1)
    match knownOp r (segAt o.d c.1).opNum with
    | none => ls
    | some op =>
      if e.visible || e.step != o.s + 1 then ls
      else
        let cond := e.cond ||| (formImage s r o op c.1 c.2 (o.s + 1)).2.2.word s.deck.trunc
        ls.map (reviseLeaf r op (chunkOfLocal r.d op.f c.2) cond)) o.leaves

/-- The F384 commits the open step t (R111). -/
def commitStep (octx : Nat) (s : State) : State :=
  match tabGet? s.octxs octx with
  | none => s
  | some o =>
    match tabGet? s.rctxs o.d.rctx with
    | none => s
    | some r =>
      let t := o.s + 1
      let own := (o.own.map Prod.snd).getD (Norms.zero (trustLayers o.d))
      let sum := (List.range o.d.peers.length).foldl (fun a i =>
        a.add (Norms.ofTab (trustLayers o.d) (tabGet (getPeer o i).keptNorms t []))) own
      let nz := commitNoise o sum
      let c := nextConsts o sum
      let leaves := sealedLeaves s r o
      let rec_ := stepRecord r o 0 t leaves.length o.cur leaves ((nz.map Noise.bytes).getD []) o.fence.isSome false
      let alone := o.d.peers.isEmpty
      let s := modOctx octx (fun x =>
        { x with s := t, prev := x.cur, cur := c, confirmed := alone, sealedStep := false, sentReady := false, noise := nz,
                 layerW := [], layerU := [], state := .opened, command := none,
                 own := if alone then none else some (t, own),
                 chunks := x.chunks.map (fun k => (k.1, { k.2 with written := false })),
                 covered := coverStep { step := t, leaves := leaves } x.covered }) s
      let s := queueRecord rec_ s
      let s := restartAccount octx o.d.rctx s
      let s := raiseEvent 0x0070 (some o.d.job)
        (le 2 octx ++ le 1 ((nz.map (fun n => b2n n.valid)).getD 0) ++ zeros 1 ++ le 4 ((nz.map (fun n => n.suggest)).getD 0) ++
          le 8 t ++ le 4 c.cf.toNat) s
      let s := match o.command with
        | some run => complete run stOk t 0 [] s
        | none => s
      let s := (List.range o.d.peers.length).foldl (fun s i => sendBeacon octx i 1 t (some own) s) s
      let s := fenceNow octx s
      confirmIfHeld octx (if alone then recheckHeld o.d.rctx s else s)

/-- A sealed step under STEP_COMMIT commits once every peer agrees (R110). -/
def tryCommit (octx : Nat) (s : State) : State :=
  match tabGet? s.octxs octx with
  | none => s
  | some o =>
    if o.state == .committing && o.sealedStep && (List.range o.d.peers.length).all (peerAgrees o (o.s + 1)) then commitStep octx s else s

/-- A commit fails into SPLIT (R113). -/
def splitStep (octx peer reason peerStep status r0 r1 : Nat) (s : State) : State :=
  match tabGet? s.octxs octx with
  | none => s
  | some o =>
    let s := modOctx octx (fun o => { o with state := .split, command := none, sentReady := false }) s
    let s := raiseEvent 0x0072 (some o.d.job)
      (le 2 octx ++ le 2 peer ++ le 1 reason ++ zeros 3 ++ le 8 (o.s + 1) ++ le 8 peerStep) s
    let s := raiseFault 6 0 octx (peer % 2 ^ 16 + 2 ^ 16 * reason) 2 s
    match o.command with
    | some run => complete run status r0 r1 [] s
    | none => s

/-- The records of a chunk have been written in the open step: the step may be sealed, and then committed. -/
def afterWrite (octx : Nat) (s : State) : State :=
  let s := sealIfWritten octx s
  match tabGet? s.octxs octx with
  | none => s
  | some o =>
    if o.state == .committing && o.sealedStep && !o.sentReady then tryCommit octx (sendReady octx s) else s

/-! ### Beacons received -/

/-- The context and peer index that a group packet of a job comes from. -/
def groupPeer (s : State) (job src octx : Nat) : Option (Nat × Octx × Nat) :=
  s.octxs.findSome? (fun o =>
    if o.2.d.job = job then (o.2.d.peers.findIdx? (· == (src, octx))).map (fun i => (o.1, o.2, i)) else none)

/-- NORM (R108): tallies of a step are gathered until the beacon they precede. -/
def takeNorm (p : Packet) (s : State) : State :=
  let b := payloadOf p
  match groupPeer s p.hdr.job p.hdr.src (field b 4040 2) with
  | none => s
  | some (n, o, i) =>
    let ps := getPeer o i
    let step := field b 4032 8
    let old := if ps.normStep = step then ps.norms else []
    let new := (List.range (min (field b 4042 1) 48)).foldl (fun t k =>
      let e := bytesAt b (84 * k) 84
      tabPut t (field e 82 1 * 65536 + field e 80 2) (Tally.ofBytes 640 (e.take 80) (field e 83 1))) old
    putPeer n i { ps with normStep := step, norms := new } s

/-- BEACON (R110, R112, R113). A HALTED context acts on none (R117). -/
def takeBeacon (p : Packet) (s : State) : State :=
  let b := payloadOf p
  match groupPeer s p.hdr.job p.hdr.src (field b 2 2) with
  | none => s
  | some (n, o, i) =>
    if o.state = .halted then s
    else
      let kind := field b 0 1
      let step := field b 8 8
      let dig := bytesAt b 16 48
      let ps := getPeer o i
      let kept := if ps.normStep = step then tabPut (ps.keptNorms.filter (fun x => o.s ≤ x.1)) step ps.norms else ps.keptNorms
      if kind = 2 then
        if o.state == .committing && o.sentReady then
          if step != o.s + 1 then splitStep n p.hdr.src 0 step stStep (o.s + 1) step s
          else if dig != cfg48 o then splitStep n p.hdr.src 1 step stState 0 0 s
          else s
        else s
      else if kind = 1 then
        confirmIfHeld n (tryCommit n (putPeer n i { ps with committed := some (step, dig), keptNorms := kept } s))
      else if kind = 0 then
        let s := putPeer n i { ps with ready := some (step, dig), keptNorms := kept } s
        if dig != cfg48 o || (step != o.s + 1 && step != o.s) then sendBeacon n i 2 (o.s + 1) none s
        else if step = o.s then
          match o.own with
          | some (t, norms) => if t = o.s then sendBeacon n i 1 t (some norms) s else sendBeacon n i 2 (o.s + 1) none s
          | none => sendBeacon n i 2 (o.s + 1) none s
        else confirmIfHeld n (tryCommit n s)
      else s

/-- MOVE (R123). -/
def takeMove (p : Packet) (s : State) : State :=
  let h := longHdr p
  match tabGet? s.octxs h.ctx with
  | some o => if o.d.job = p.hdr.job then applyMove h.ctx h.part h.addr (validPayload p) s else s
  | none => s

/-! ### Gathers received (R118, R121, R122, R124) -/

/-- GATHER from a parent: once per node of local members, and on (R118). -/
def takeGather (p : Packet) (s : State) : State :=
  let h := longHdr p
  match tabGet? s.rctxs h.ctx with
  | none => s
  | some r =>
    match (if r.d.job = p.hdr.job then knownOp r h.opNum else none) with
    | some op =>
      if chunkIn r.d op h.chunk then
        sendGather r { op := op, chunk := h.chunk, pkt := h.pkt, off := h.addr, cond := h.cond, fmt := h.fmt, fan := h.nodeFan, step := h.step,
                       aux := h.aux, tail := h.tail, payload := payloadOf p, last := p.hdr.last } (some { rctx := h.ctx, pos := none }) s
      else s
    | none => s

/-- The bank that answers a request for a version, or the status that refuses it (R121). -/
def serveVersion (s : State) (r : Rctx) (o : Octx) (seg j v : Nat) : Except Nat Nat :=
  let c := getChunk o seg j
  let ok (b : Nat) : Bool := (c.bank b).visible && chunkAlive s r o seg j b
  let held := (List.range 2).filter ok
  let newest := held.foldl (fun m b => max m (c.bank b).step) 0
  if v = 0xFFFFFFFFFFFFFFFF then
    match held.find? (fun b => (c.bank b).step == newest) with
    | some b => .ok b
    | none => .error stGone
  else
    match held.find? (fun b => (c.bank b).step == v) with
    | some b => .ok b
    | none => if v < (if held.isEmpty then o.s + 1 else newest) then .error stGone else .error stRange

/-- The member who asks, and how it named the context: as it came, or by the phase map for a request from another F384. -/
def requesterNaming (s : State) (who : Sender) (p : Packet) : Naming :=
  match who with
  | .member _ n => n
  | .peer =>
    let ctx := (pktNames p).1
    let j := tabGet? s.jobs p.hdr.job
    let i := (j.bind (fun x => tabGet? x.phaseMaps p.hdr.phase)).bind (fun m => m.contexts.findIdx? (· == (ownAddr s, ctx)))
    { lctx := i.getD ctx, phase := p.hdr.phase }

/-- STATUS in answer to a request, to the member that asked (R169). -/
def answerRequest (who : Sender) (p : Packet) (status : Nat) (s : State) : State :=
  let n := requesterNaming s who p
  originateTo ((pktNames p).2.2 % 8) (statusPacket s p n.lctx n.phase status 0 0) none s

/-- A gather sweep is queued unless one of the same chunk and bank is (R122); the deck and the stacks it reads wake (R322). -/
def queueGather (octx seg j b : Nat) (s : State) : State :=
  let sw : Sweep := .gather octx seg j (b % 2)
  if s.deck.queue.any (fun e => e.sweep == sw) then s
  else
    let s := sweepInputs s sw |>.foldl (fun s x => touchRange x s) s
    deckReason { s with deck := { s.deck with queue := s.deck.queue ++ [{ at_ := now s, sweep := sw }] } }

/-- GATHER_REQ at the holding F384 (R121, R122, R124). -/
def takeGatherReq (who : Sender) (p : Packet) (s : State) : State :=
  match p.body with
  | .gatherReq ctx num chunk addr v =>
    let no (st : Nat) (s : State) : State := answerRequest who p st s
    match (tabGet? s.rctxs ctx).bind (fun r => if r.d.job = p.hdr.job then some r else none) with
    | none => no stState s
    | some r =>
      match r.octx.bind (fun i => (tabGet? s.octxs i).map (fun o => (i, o))) with
      | some (i, o) =>
        match epochVerdict o p.hdr.epoch false with
        | .stale => noteStale i ctx p s
        | .refused => no stEpoch s
        | .accepted =>
          match (knownOp r num).bind (fun op => (segmentOf r o op chunk).map (fun g => (op, g.1, g.2))) with
          | none => no stRange s
          | some (op, seg, j) =>
            if !(chunkIn r.d op chunk && isRootOf r.d chunk) then no stRange s
            else match serveVersion s r o seg j v with
              | .error st => no st s
              | .ok b =>
                let w : GatherWait := { octx := i, seg := seg, chunk := j, bank := b, requester := p.hdr.src, resultAddr := addr,
                                        tag := p.hdr.tag, naming := requesterNaming s who p }
                match findImage s i seg j b with
                | some im =>
                  if im.complete then replyGather r o op chunk w im s
                  else { s with hbm := { s.hbm with waits := s.hbm.waits ++ [w] } }
                | none => queueGather i seg j b { s with hbm := { s.hbm with waits := s.hbm.waits ++ [w] } }
      | none => no stState s
  | _ => s

/-- DRAW_REQ (R139, R168, R182): one WRITE of the drawn blocks. -/
def takeDrawReq (hawser : Nat) (p : Packet) (s : State) : State :=
  match p.body with
  | .drawReq stream n index step addr =>
    if n = 0 || 64 < n then statusToMember hawser p 0 p.hdr.phase stRange 0 0 s
    else
      let seed := jobSeed s p.hdr.job
      let data := ((List.range n).map (drawBlock seed p.hdr.job stream step index)).flatten
      let hdr := { ownHeader s (classesOf s p.hdr.job).request p.hdr.job p.hdr.src with last := true, notifyDst := true, tag := p.hdr.tag }
      let w := longPacket hdr 0x40 { LongHdr.zero with addr := addr, step := 64 * n, aux := addr } data
      let landing := mkPacket { hdr with last := false, notifyDst := false } (.landing 0 0xFFFF 0 addr (64 * n) 0)
      originateReps (lowestLanding s) w [{ dest := .hawser hawser, pkt := w, follow := some landing }] none s
  | _ => s

end Sys2Proof.Machine
end

