-- ==== Sys2Proof/Machine/OptimizerCommands.lean ====
section
/-!
DEFINITION. The Optimizer commands (Table 12.11): OCTX_CREATE, OCTX_DESTROY, OCTX_QUERY, STEP_COMMIT, STEP_ROLLBACK and
RESHARD_FENCE.
-/
namespace Sys2Proof.Machine

/-! ### Descriptors (Tables 04.1 to 04.3) -/

/-- Segment entries from an offset. -/
def parseSegments (b : List Byte) (off n : Nat) : List Segment :=
  (List.range n).map (fun i =>
    { opNum := field b (off + 32 * i) 2, records := field b (off + 32 * i + 8) 8, base := field b (off + 32 * i + 16) 8 })

/-- Layer entries from an offset. -/
def parseLayers (b : List Byte) (off n : Nat) : List LayerEntry :=
  (List.range n).map (fun i =>
    { seg := field b (off + 16 * i) 2, layer := field b (off + 16 * i + 2) 2, rInit := BitVec.ofNat 32 (field b (off + 16 * i + 4) 4),
      first := field b (off + 16 * i + 8) 8 })

/-- The length an optimizer context descriptor implies. -/
def odescLen (b : List Byte) : Nat := 176 + 32 * field b 134 2 + 16 * field b 136 2 + 4 * (field b 62 2 - 1)

/-- An optimizer context descriptor; BEACON_TIMEOUT 0 selects 1,000. -/
def parseODesc (b : List Byte) : ODesc :=
  let f (o : Nat) : F32 := BitVec.ofNat 32 (field b o 4)
  let segs := field b 134 2
  let les := field b 136 2
  let peersAt := 176 + 32 * segs + 16 * les
  { rule := field b 0 1, gatherFmt := field b 1 1 % 16, gatherRowLog2 := field b 2 1, clip := bit (field b 3 1) 0,
    noise := bit (field b 3 1) 1, lr := f 4, beta1 := f 8, beta2 := f 12, c1 := f 16, c2 := f 20, eps := f 24, wd := f 28,
    alpha := f 32, clipNorm := f 36, trustMax := f 40, lrMinFrac := f 44, warmup := field b 48 4, cycle := field b 52 4,
    tMult := field b 56 4, decay := field b 60 1, restart := field b 61 1, groupSize := field b 62 2, jobParams := field b 64 8,
    membersTotal := field b 72 4, bMember := field b 76 4, batchMin := field b 80 4, batchMax := field b 84 4,
    batchQuant := field b 88 4, layers := field b 92 2, nodeFan := field b 94 1, octx := field b 128 2, job := field b 130 1,
    rctx := field b 132 2, beaconTimeout := if field b 140 4 = 0 then 1000 else field b 140 4, step := field b 144 8, p1 := f 152,
    p2 := f 156, cfInit := f 160, epoch := field b 164 1 % 16, segments := parseSegments b 176 segs,
    layerEntries := parseLayers b (176 + 32 * segs) les,
    peers := (List.range (field b 62 2 - 1)).map (fun i => (field b (peersAt + 4 * i) 2, field b (peersAt + 4 * i + 2) 2)),
    digest := sha3 (b.take 128) }

/-! ### Checks of segments and layers (R87) -/

/-- Two ranges of the state area overlap. -/
def rangesMeet (a b : Nat × Nat) : Bool := a.2 != 0 && b.2 != 0 && a.1 < b.1 + b.2 && b.1 < a.1 + a.2

/-- Bank 0 range of a segment: base and length. -/
def segRange (size : Nat) (g : Segment) : Nat × Nat := (g.base, g.records * size)

/-- Bank ranges of every optimizer context but one. -/
def otherRanges (s : State) (but : Option Nat) : List (Nat × Nat) :=
  (s.octxs.map (fun o => if some o.1 = but then [] else o.2.d.segments.map (segRange (recordSize o.2.d)))).flatten

/-- Whether some pair of a list meets. -/
def anyMeet : List (Nat × Nat) → Bool
  | [] => false
  | a :: l => l.any (rangesMeet a) || anyMeet l

/-- Whether segment entries break R87. `at_`: the entries' bytes, for their RSVD fields. -/
def segmentsBad (s : State) (but : Option Nat) (size : Nat) (b : List Byte) (at_ : Nat) (gs : List Segment) : Bool :=
  let rs := gs.map (segRange size)
  let ops := gs.map (fun g => g.opNum)
  (List.range gs.length).any (fun i => !zeroAt b (at_ + 32 * i + 2) 6 || !zeroAt b (at_ + 32 * i + 24) 8) ||
    gs.any (fun g => g.base % 64 != 0 || bankSpan < g.base + g.records * size) || ops.eraseDups.length != ops.length ||
    anyMeet rs || rs.any (fun r => (otherRanges s but).any (rangesMeet r))

/-- Whether entries ascend in (SEG, FIRST_RECORD), each segment's first at record 0. -/
def layersOrdered : Option LayerEntry → List LayerEntry → Bool
  | _, [] => true
  | prev, e :: es =>
    (match prev with
     | some p => if p.seg = e.seg then decide (p.first < e.first) else decide (p.seg < e.seg) && e.first == 0
     | none => e.first == 0) && layersOrdered (some e) es

/-- Whether layer entries break R87. -/
def layersBad (layers : Nat) (es : List LayerEntry) : Bool :=
  !layersOrdered none es || es.any (fun e => !finite32 e.rInit || es.any (fun f => f.layer == e.layer && f.rInit != e.rInit)) ||
    (List.range layers).any (fun l => !es.any (fun e => e.layer == l))

/-- A layer entry names a segment or a layer outside its range. -/
def layersRange (segs layers : Nat) (es : List LayerEntry) : Bool := es.any (fun e => segs ≤ e.seg || layers ≤ e.layer)

/-- A bank range lies, in either bank, on a lost stack. -/
def segmentsLost (s : State) (size : Nat) (gs : List Segment) : Bool :=
  gs.any (fun g => !rangeAlive s g.base (g.records * size) || !rangeAlive s (g.base + bankSpan) (g.records * size))

/-- How many of n chunks of c bytes from a base start below a bound. -/
def chunksBelow (base c n bound : Nat) : Nat := if bound ≤ base || c = 0 then 0 else min n (ceilDiv (bound - base) c)

/-- Chunk table entries that segments need in the pool of a stack (R122): each chunk's in the stack where it begins, per bank. -/
def entriesOn (stack size elems : Nat) (gs : List Segment) : Nat :=
  let gib := 60 * 2 ^ 30
  (gs.map (fun g =>
    let n := ceilDiv g.records elems
    let in_ (base : Nat) : Nat := chunksBelow base (elems * size) n ((stack + 1) * gib) - chunksBelow base (elems * size) n (stack * gib)
    in_ g.base + in_ (g.base + bankSpan))).sum

/-- Entries in use on a stack by every context but one. -/
def entriesUsed (s : State) (but : Option Nat) (stack : Nat) : Nat :=
  (s.octxs.map (fun o =>
    if some o.1 = but then 0
    else match tabGet? s.rctxs o.2.d.rctx with
      | some r => entriesOn stack (recordSize o.2.d) r.d.elems o.2.d.segments
      | none => 0)).sum

/-- Some stack's chunk table pool of 256 MiB has no room. -/
def entriesShort (s : State) (but : Option Nat) (size elems : Nat) (gs : List Segment) : Bool :=
  (List.range 8).any (fun k =>
    let n := entriesOn k size elems gs
    n != 0 && 8388608 < entriesUsed s but k + n)

/-! ### OCTX_CREATE (R85 to R87) -/

/-- A numeric field outside its range. -/
def odescRange (b : List Byte) (d : ODesc) : Bool :=
  let minus := gt32 0 d.lrMinFrac
  let fracBad := finite32 d.lrMinFrac && (minus || gt32 d.lrMinFrac one32)
  let tmo := field b 140 4
  (isScaled d.gatherFmt && (d.gatherRowLog2 < 4 || 16 < d.gatherRowLog2)) || fracBad || (d.decay != 0 && d.cycle == 0) ||
    (d.restart == 1 && (d.tMult < 1 || 16 < d.tMult)) || d.groupSize < 1 || 256 < d.groupSize || d.membersTotal < 1 ||
    65536 < d.membersTotal || (d.noise && (d.bMember < 1 || d.batchQuant < 1)) || (d.rule == 2 && (d.layers < 1 || 1024 < d.layers)) ||
    d.nodeFan < 1 || 64 < d.nodeFan || 4095 < d.octx || field b 134 2 < 1 || 256 < field b 134 2 || 1024 < field b 136 2 ||
    field b 136 2 < d.layers || (tmo != 0 && (tmo < 10 || 10000000 < tmo)) || layersRange d.segments.length d.layers d.layerEntries

/-- A value other than the one another field fixes. -/
def odescFixed (d : ODesc) : Bool :=
  (d.rule == 0 && (d.beta2 != 0 || d.c1 != 0 || d.c2 != 0 || d.eps != 0 || d.p1 != 0 || d.p2 != 0)) ||
    (!d.clip && (d.clipNorm != 0 || d.cfInit != one32)) || (d.rule != 2 && (d.trustMax != 0 || d.layers != 0)) ||
    (d.restart == 0 && d.tMult != 0) || (!isScaled d.gatherFmt && d.gatherRowLog2 != 0)

/-- The rules of R87 on the floating-point fields. -/
def odescValues (d : ODesc) : Bool :=
  let ge0 (x : F32) : Bool := !gt32 0 x
  let beta (x : F32) : Bool := ge0 x && gt32 one32 x
  let c (x : F32) : Bool := gt32 x 0 && !gt32 x one32
  [d.lr, d.alpha, d.beta1, d.beta2, d.c1, d.c2, d.eps, d.wd, d.clipNorm, d.trustMax, d.lrMinFrac, d.p1, d.p2, d.cfInit].all finite32 &&
    !isZero32 d.alpha &&
    (d.rule == 0 || (beta d.beta1 && beta d.beta2 && c d.c1 && c d.c2 && gt32 d.eps 0)) &&
    (!d.clip || gt32 d.clipNorm 0) && (d.rule != 2 || gt32 d.trustMax 0)

/-- The rules of R87 on the reduction context. -/
def odescRctx (d : ODesc) (r : Rctx) : Bool :=
  2 ≤ r.d.role && r.d.op == 0 && isFloat r.d.fmt && (r.d.norm || !(d.clip || d.noise)) && (!d.noise || r.d.m != 0) &&
    (!((1 < r.d.t) || r.d.role == 4) || d.gatherRowLog2 ≤ log2 r.d.elems)

/-- What R87 refuses with BAD_PARAM, R9's fields among them. -/
def odescBad (s : State) (job : Nat) (b : List Byte) (d : ODesc) (r : Option Rctx) : Bool :=
  d.job != job || 3 ≤ d.rule || 3 ≤ d.decay || 2 ≤ d.restart || 16 ≤ field b 1 1 || 4 ≤ field b 3 1 || !zeroAt b 95 33 ||
    !zeroAt b 131 1 || !zeroAt b 138 2 || 16 ≤ field b 164 1 || !zeroAt b 165 11 || !isFloat d.gatherFmt || odescFixed d ||
    !odescValues d || (d.noise && (d.membersTotal < 2 || d.batchMin % d.batchQuant != 0 || d.batchMax % d.batchQuant != 0 ||
      d.batchMax < d.batchMin)) ||
    segmentsBad s none (recordSize d) b 176 d.segments || layersBad d.layers d.layerEntries || !((r.map (odescRctx d)).getD true)

/-- Ratios by layer number. -/
def initRatios (d : ODesc) : List F32 :=
  if d.rule = 2 then (List.range d.layers).map (fun l => ((d.layerEntries.find? (fun e => e.layer == l)).map (fun e => e.rInit)).getD one32)
  else []

/-- A context as created (R87, R92, R105): version S committed and confirmed, the constants of step S + 1 and those of step S, for
which the descriptor gives no other products and factors. -/
def Octx.created (s : State) (d : ODesc) : Octx :=
  let c (t : Nat) : Consts := stepConsts d t d.p1 d.p2 d.cfInit (initRatios d)
  { d := d, state := .opened, s := d.step, cur := c (d.step + 1), prev := c d.step, confirmed := true, sealedStep := false, chunks := [], layerW := [],
    layerU := [], own := none, sentReady := false, peers := [], command := none, deadline := 0, noise := none, epoch := d.epoch,
    fence := none, fenceActive := false, staleRaised := false, leaves := [], covered := [], acct := Account.start s }

/-- The row of OCTX_CREATE in its group table. -/
def rowOctxCreate (x : Exec) (s : State) : Row :=
  let b := desc x
  let d := parseODesc b
  let r := jobRctx s x d.rctx
  { Row.job 0x0700 (onlyFields x.cmd.params []) with
    descLen := if x.desc.isSome then odescLen b else x.cmd.descLen,
    own := fails (odescRange b d) stRange ++ fails (odescBad s x.cmd.job b d r) stBadParam ++
      fails (tabHas s.octxs d.octx || !((r.map (fun r => r.state == .idle && r.octx.isNone)).getD false) ||
        segmentsLost s (recordSize d) d.segments) stState ++
      fails ((r.map (fun r => entriesShort s none (recordSize d) r.d.elems d.segments)).getD false) stNoResource ++
      fails (d.rule == 2 && exceeds { reserved s with dots := (reserved s).dots + 2 * d.layers }) stNoBerths }

/-- OCTX_CREATE. -/
def execOctxCreate (x : Exec) (s : State) : Result :=
  let b := desc x
  let d := parseODesc b
  runCmd x s (rowOctxCreate x)
    (fun s =>
      let s := { s with octxs := tabPut s.octxs d.octx (Octx.created s d) }
      Effect.ok (modRctx d.rctx (fun r => { r with octx := some d.octx, reforms := [], period := none, dots := [] }) s))

/-! ### OCTX_DESTROY, OCTX_QUERY -/

/-- A job's optimizer context by number (R306). -/
def jobOctx (s : State) (x : Exec) (n : Nat) : Option Octx :=
  (tabGet? s.octxs n).bind (fun o => if o.d.job = x.cmd.job then some o else none)

/-- Record writes of a context on their way reach HBM now. -/
def flushWrites (octx : Nat) (s : State) : State :=
  let s' := (s.hbm.writes.filter (fun w => w.octx == octx)).foldl (fun s w => writeBytes w.addr w.bytes s) s
  { s' with hbm := { s'.hbm with writes := s'.hbm.writes.filter (fun w => w.octx != octx) } }

/-- The row of OCTX_DESTROY in its group table. -/
def rowOctxDestroy (x : Exec) (s : State) : Row :=
  let n := param x 0 2
  { Row.job 0x0701 (onlyFields x.cmd.params [(0, 2)]) with
    own := match jobOctx s x n with
      | none => fails true stState
      | some o => fails (o.state == .committing || o.state == .fenced) stBusy }

/-- OCTX_DESTROY (R89). -/
def execOctxDestroy (x : Exec) (s : State) : Result :=
  let n := param x 0 2
  runCmd x s (rowOctxDestroy x)
    (fun s =>
      match tabGet? s.octxs n with
      | none => Effect.ok s
      | some o =>
        let s := discardHeld o.d.rctx true (flushWrites n s)
        let s := mapImages (fun im => if im.octx = n then none else some im) s
        let s := modRctx o.d.rctx (fun r => { r with octx := none, period := none, dots := [] }) s
        Effect.ok { s with octxs := tabDel s.octxs n })

def ostateCode : OState → Nat
  | .opened => 0
  | .committing => 1
  | .split => 2
  | .fenced => 3
  | .halted => 4

/-- Local chunks whose committed version was lost, while HALTED (R117). -/
def lostChunks (s : State) (o : Octx) : List (Nat × Nat) :=
  match tabGet? s.rctxs o.d.rctx with
  | none => []
  | some r => if o.state = .halted then (localChunks r o).filter (fun c => !holdsVersion s r o c.1 c.2 o.s) else []

/-- The row of OCTX_QUERY in its group table. -/
def rowOctxQuery (x : Exec) (s : State) : Row :=
  let n := param x 0 2
  let o := jobOctx s x n
  { Row.job 0x0702 (onlyFields x.cmd.params [(0, 2)]) with
    returns := true, need := (o.map (fun o => 256 + 8 * (lostChunks s o).length)).getD 0, own := fails o.isNone stState }

/-- OCTX_QUERY (Table 12.11). -/
def execOctxQuery (x : Exec) (s : State) : Result :=
  let n := param x 0 2
  runCmd x s (rowOctxQuery x)
    (fun s =>
      match tabGet? s.octxs n with
      | none => Effect.ok s
      | some o =>
        let lost := lostChunks s o
        let r := tabGet? s.rctxs o.d.rctx
        let held := (r.map (fun r => (r.positions.filter (fun p => p.2.held)).length)).getD 0
        let c := o.cur
        let head := le 2 n ++ le 1 (ostateCode o.state) ++ le 1 o.epoch ++ le 2 o.d.rctx ++ le 1 (b2n o.confirmed) ++ zeros 1 ++ le 8 o.s ++
          le 4 c.lr.toNat ++ le 4 c.k1.toNat ++ le 4 c.k2.toNat ++ le 4 c.cf.toNat ++ le 4 c.p1.toNat ++ le 4 c.p2.toNat ++
          le 4 ((r.map (fun r => chunksWritten r o)).getD 0) ++ le 4 held ++ le 4 lost.length
        { Effect.ok s with
          data := fit 64 head ++ fit 192 ((o.noise.map Noise.bytes).getD []) ++
            (lost.map (fun l => le 2 l.1 ++ zeros 2 ++ le 4 l.2)).flatten })

/-! ### STEP_COMMIT (R110, R113, R353) -/

/-- The row of STEP_COMMIT in its group table. -/
def rowStepCommit (x : Exec) (s : State) : Row :=
  let n := param x 0 2
  let t := param x 8 8
  { Row.job 0x0703 (onlyFields x.cmd.params [(0, 2), (8, 8)]) with
    own := fails (t == 2 ^ 64 - 1) stRange ++
      match jobOctx s x n with
      | none => fails true stState
      | some o =>
        fails (o.state == .fenced || o.state == .halted) stState ++ failsWith (t != o.s + 1) stStep t (o.s + 1) ++
          fails (o.state == .committing || auditFull s) stBusy }

/-- STEP_COMMIT: it waits in the context until the step commits or fails. -/
def execStepCommit (x : Exec) (s : State) : Result :=
  let n := param x 0 2
  runLater x s (rowStepCommit x)
    (fun r s =>
      afterWrite n (modOctx n (fun o =>
        { o with state := .committing, command := some r, deadline := now s + BitVec.ofNat 64 (1000 * o.d.beaconTimeout) }) s))

/-! ### STEP_ROLLBACK (R114) -/

/-- A chunk's entries without the versions above a step. -/
def ChunkState.upTo (v : Nat) (c : ChunkState) : ChunkState :=
  let cut (e : ChunkEntry) : ChunkEntry := if v < e.step then ChunkEntry.none else e
  { bank0 := cut c.bank0, bank1 := cut c.bank1, written := false }

/-- A peer's beacons and norms as they stand after a rollback to step S: those of S, READY for S + 1 having confirmed S. -/
def PeerState.upTo (v : Nat) (p : PeerState) : PeerState :=
  let told := (p.ready.bind (fun r => if r.1 = v + 1 then some (v, r.2) else none)).orElse
    (fun _ => p.committed.bind (fun c => if c.1 = v then some c else none))
  { PeerState.fresh with committed := told, keptNorms := p.keptNorms.filter (fun k => k.1 ≤ v) }

/-- The context after a rollback; `back`: the target is S - 1. -/
def Octx.rolledBack (back : Bool) (o : Octx) : Octx :=
  let v := if back then o.s - 1 else o.s
  { o with
    s := v, cur := if back then o.prev else o.cur, confirmed := back || o.confirmed, sealedStep := false, sentReady := false,
    chunks := o.chunks.map (fun k => (k.1, k.2.upTo v)), layerW := [], layerU := [],
    own := if back then none else o.own.bind (fun w => if w.1 = o.s then some w else none),
    peers := if back then [] else o.peers.map (fun p => (p.1, p.2.upTo v)),
    state := if o.state = .halted then .halted else .opened }

/-- The row of STEP_ROLLBACK in its group table. -/
def rowStepRollback (x : Exec) (s : State) : Row :=
  let n := param x 0 2
  let v := param x 8 8
  { Row.job 0x0704 (onlyFields x.cmd.params [(0, 2), (8, 8)]) with
    own := match jobOctx s x n with
      | none => fails true stState
      | some o =>
        let whole := ((tabGet? s.rctxs o.d.rctx).map (fun r =>
          versionWhole s r o v && (v == o.s || chunksWritten r o == 0))).getD false
        fails (o.state == .fenced || !(v == o.s || v + 1 == o.s) || !whole) stState ++
          fails (o.state == .committing || auditFull s) stBusy }

/-- STEP_ROLLBACK. -/
def execStepRollback (x : Exec) (s : State) : Result :=
  let n := param x 0 2
  let v := param x 8 8
  runCmd x s (rowStepRollback x)
    (fun s =>
      match tabGet? s.octxs n with
      | none => Effect.ok s
      | some o =>
        let back := v != o.s
        let s := discardHeld o.d.rctx true (flushWrites n s)
        let s := mapImages (fun im => if im.octx = n && v < im.version then none else some im) s
        let s := modOctx n (Octx.rolledBack back) s
        let s := modRctx o.d.rctx (fun r => { r with period := none, dots := [] }) s
        let s := match tabGet? s.octxs n, tabGet? s.rctxs o.d.rctx with
          | some o', some r => queueRecord (stepRecord r o' 2 v o.s o'.cur [] [] false (!back)) s
          | _, _ => s
        let s := restartAccount n o.d.rctx s
        { Effect.ok (raiseEvent 0x0071 (some o.d.job) (le 2 n ++ le 1 (b2n back) ++ zeros 5 ++ le 8 v ++ le 8 o.s) s) with r0 := v })

/-! ### RESHARD_FENCE (R123) -/

/-- Move entries from an offset. -/
def parseMoves (b : List Byte) (off n : Nat) : List Move :=
  (List.range n).map (fun i =>
    let a := off + 32 * i
    { seg := field b a 2, destAddr := field b (a + 2) 2, destOctx := field b (a + 4) 2, first := field b (a + 8) 8,
      records := field b (a + 16) 8, dest := field b (a + 24) 8 })

/-- Whether a move names whole chunks of a segment. -/
def moveWhole (r : Rctx) (o : Octx) (m : Move) : Bool :=
  let g := segAt o.d m.seg
  let stop := m.first + m.records
  m.first % r.d.elems == 0 && stop ≤ g.records && (m.records % r.d.elems == 0 || stop == g.records)

/-- The row of RESHARD_FENCE in its group table. -/
def rowReshardFence (x : Exec) (s : State) : Row :=
  let n := param x 0 2
  let epoch := param x 2 1
  let segs := param x 4 2
  let les := param x 6 2
  let moves := param x 8 4
  let b := desc x
  let gs := parseSegments b 0 segs
  let es := parseLayers b (32 * segs) les
  let at_ := 32 * segs + 16 * les
  let ms := parseMoves b at_ moves
  { Row.job 0x0705 (onlyFields x.cmd.params [(0, 3), (4, 8)]) with
    descLen := at_ + 32 * moves,
    own := fails (segs < 1 || 256 < segs || 1024 < les || 4096 < moves) stRange ++
      match jobOctx s x n with
      | none => fails true stState
      | some o =>
        let size := recordSize o.d
        let r := tabGet? s.rctxs o.d.rctx
        fails (layersRange segs o.d.layers es || ms.any (fun m => o.d.segments.length ≤ m.seg)) stRange ++
          fails (segmentsLost s size gs || segmentsBad s (some n) size b 0 gs || layersBad o.d.layers es ||
            (List.range moves).any (fun i => !zeroAt b (at_ + 32 * i + 6) 2) ||
            !((r.map (fun r => ms.all (moveWhole r o))).getD true)) stBadParam ++
          failsWith (epoch != (o.epoch + 1) % 16) stEpoch o.epoch 0 ++
          fails (o.state != .opened) stState ++
          fails ((r.map (fun r => entriesShort s (some n) size r.d.elems gs)).getD false) stNoResource }

/-- RESHARD_FENCE: it takes effect at the next commit. -/
def execReshardFence (x : Exec) (s : State) : Result :=
  let n := param x 0 2
  let epoch := param x 2 1
  let segs := param x 4 2
  let les := param x 6 2
  let moves := param x 8 4
  let b := desc x
  let gs := parseSegments b 0 segs
  let es := parseLayers b (32 * segs) les
  let at_ := 32 * segs + 16 * les
  let ms := parseMoves b at_ moves
  runCmd x s (rowReshardFence x)
    (fun s => Effect.ok (modOctx n (fun o =>
      { o with fence := some { epoch := epoch, segments := gs, layers := es, moves := ms, chunks := [], images := [], imaged := [] } }) s))

end Sys2Proof.Machine
end

