-- ==== Sys2Proof/Machine/OptimizerRows.lean ====
section
/-!
DEFINITION. What the deck, HBM and timers of an optimizer context do: update sweeps (R96 to R104), gather sweeps (R119, R122),
record writes (R109), image digests (R96), the commit timeout (R113) and the installation of a fence (R123).
-/
namespace Sys2Proof.Machine

/-! ### The update sweep -/

/-- The layer of a record: of its segment's last entry at or before it (Table 04.3, R403). -/
def layerOf (d : ODesc) (seg k : Nat) : Option Nat :=
  ((d.layerEntries.filter (fun e => e.seg == seg && e.first ≤ k)).getLast?).map (fun e => e.layer)

/-- The rule's constants for a record (R99, R102, R105). -/
def ruleIn (d : ODesc) (c : Consts) (trunc : Bool) (layer : Option Nat) : RuleIn :=
  { rule := d.rule, clip := d.clip, trunc := trunc, alpha := d.alpha, cf := c.cf, beta1 := d.beta1, beta2 := d.beta2, c1 := d.c1,
    c2 := d.c2, eps := d.eps, wd := d.wd, lr := c.lr,
    lrr := match d.rule, layer with
      | 2, some l => (mulF false c.lr (c.r.getD l one32)).1
      | _, _ => c.lr,
    k1 := c.k1, k2 := c.k2 }

/-- One element of a sweep: g0 with its conditions, its layer, and what its rule gives. -/
structure Swept where
  g0 : F32
  gCond : Cond
  layer : Option Nat
  res : RuleOut

/-- The elements of a sweep: berths with their old records, from record k of a segment. -/
def sweepElems (d : ODesc) (c : Consts) (trunc : Bool) (seg k : Nat) (old : List Byte) (bs : List Berth) : List Swept :=
  bs.zipIdx.map (fun b =>
    let g := berthG0 b.1
    let o := recordSize d * b.2
    let f (i : Nat) : F32 := BitVec.ofNat 32 (field old (o + i) 4)
    let l := layerOf d seg (k + b.2)
    { g0 := g.1, gCond := g.2, layer := l, res := applyRule (ruleIn d c trunc l) g.1 (f 0) (f 4) (if d.rule = 0 then 0 else f 8) })

/-- A new record's bytes (R103). -/
def recordBytes (d : ODesc) (x : RuleOut) : List Byte :=
  le 4 x.w.toNat ++ le 4 x.m.toNat ++ (if d.rule = 0 then [] else le 4 x.v.toNat)

/-- The exact square of a value admitted into a layer's tally (R104). -/
def admitLayer (trunc : Bool) (t : Tab (Tally 640)) (l : Nat) (x : F32) : Tab (Tally 640) :=
  tabPut t l (admitTerm dotWindow (tabGet t l (Tally.zero 640)) (mulVal trunc (fval x) (fval x)))

/-- The layer tallies after a sweep: W then U. -/
def sweepLayers (d : ODesc) (trunc : Bool) (es : List Swept) (w u : Tab (Tally 640)) : Tab (Tally 640) × Tab (Tally 640) :=
  es.foldl (fun a e =>
    match d.rule, e.layer with
    | 2, some l => (admitLayer trunc a.1 l e.res.w, admitLayer trunc a.2 l e.res.u)
    | _, _ => a) (w, u)

/-! ### The next sweep (R60) -/

/-- A sweep that is ready: since when, and the context number and position that break ties; a gather sweep has those of its context's
reduction context and of its chunk (log entry 58). -/
structure Candidacy where
  at_ : Tide
  ctx : Nat
  pos : Nat
  sweep : Sweep

/-- The sweeps that are ready and whose inputs are present, of every kind. -/
def readySweeps (s : State) : List Candidacy :=
  (readyFolds s).map (fun f => { at_ := f.1, ctx := f.2.1, pos := f.2.2, sweep := .fold f.2.1 f.2.2 [] }) ++
    (s.deck.queue.filter (fun e => inputsPresent s e.sweep)).map (fun e =>
      match e.sweep with
      | .fold c q _ | .update c q => { at_ := e.at_, ctx := c, pos := q, sweep := e.sweep }
      | .gather n seg j _ =>
        { at_ := e.at_, ctx := ((tabGet? s.octxs n).map (fun o => o.d.rctx)).getD n, pos := chunkKey seg j, sweep := e.sweep })

/-- Whether one ready sweep goes before another: the earlier, then the lower context number, then the lower position. -/
def Candidacy.before (t : Tide) (a b : Candidacy) : Bool :=
  let x := tideSince a.at_ t
  let y := tideSince b.at_ t
  y < x || (x == y && (a.ctx < b.ctx || (a.ctx == b.ctx && a.pos < b.pos)))

/-- The sweep that the deck takes next, if it may take one. -/
def nextSweep (s : State) : Option Candidacy :=
  if !deckFree s then none
  else (readySweeps s).foldl (fun acc x =>
    match acc with
    | none => some x
    | some a => if x.before (now s) a then some x else some a) none

/-- FOLD_BATCH (R60, R61): the deck begins a fold batch, if that is its next sweep. -/
def execFoldBatch (s : State) : Result :=
  match nextSweep s with
  | some w =>
    match w.sweep with
    | .fold c q _ => finish (startFold c q s)
    | .update _ _ | .gather _ _ _ _ => finish s
  | none => finish s

/-- The queue without a sweep. -/
def unqueue (w : Sweep) (s : State) : State := { s with deck := { s.deck with queue := s.deck.queue.filter (fun e => e.sweep != w) } }

/-- The sweep of a queued chunk (R96, R97, R103, R104, R155, R156). -/
def updateChunk (ctx q : Nat) (s : State) : State :=
  match tabGet? s.rctxs ctx with
  | none => s
  | some r =>
    match tabGet? r.positions q, r.octx.bind (fun n => (tabGet? s.octxs n).map (fun o => (n, o))) with
    | some p, some (n, o) =>
      match (knownOp r p.op).bind (fun op => (segmentOf r o op p.chunk).map (fun g => (op, g))) with
      | none => s
      | some (op, seg, j) =>
        let g := segAt o.d seg
        let t := o.s + 1
        let k := j * r.d.elems
        let trunc := s.deck.trunc
        let old := readBytes s (recordAddr o.d g k o.s) (chunkElems r.d op p.chunk * recordSize o.d)
        let es := sweepElems o.d o.cur trunc seg k old p.berths
        let ws := es.map (fun e => e.res.w)
        let rec_ := (es.map (fun e => recordBytes o.d e.res)).flatten
        let conds := es.foldl (fun c e => c.or (e.gCond.or e.res.cond)) Cond.none
        let im := if rowGather r o then ([], [], Cond.none) else imageOf r o ws none
        let cond := p.cond ||| (conds.or im.2.2).word trunc
        let ls := sweepLayers o.d trunc es o.layerW o.layerU
        let leaf : Leaf := { opNum := p.op, chunk := p.chunk, step := t, cond := cond,
                             result := sha3 ((es.map (fun e => le 4 e.g0.toNat)).flatten ++ le 2 cond.toNat), state := sha3 rec_,
                             contrib := sha3 (contribDigest r p) }
        let dots := if r.d.norm then tabPut p.dots sumKey (sumSquares trunc p) else p.dots
        let p' := { p with queued := false, emitBegun := true, cond := cond, dots := dots }
        let s := modRctx ctx (fun r =>
          let r' := mergeDots p' r
          { r' with positions := tabPut r'.positions q { p' with dots := [] } }) s
        let s := modOctx n (fun o => { o with layerW := ls.1, layerU := ls.2, leaves := o.leaves ++ [leaf] }) s
        let s := modEntry n seg j t (fun _ => { valid := false, visible := false, step := t, digest32 := [], cond := cond }) s
        let w : RecordWrite := { octx := n, seg := seg, chunk := j, step := t, addr := recordAddr o.d g k t, bytes := rec_, rctx := ctx,
                                 pos := q }
        let s := touchRange (w.addr, w.bytes.length) { s with hbm := { s.hbm with writes := s.hbm.writes ++ [w] } }
        if rowGather r o then s
        else stageImage (imageStack r o seg j t)
          { octx := n, seg := seg, chunk := j, bank := t % 2, version := t, bytes := im.1, scales := im.2.1, digest := [], cond := cond,
            complete := false } s
    | _, _ => s

/-- UPDATE_SWEEP (R60, R96): the update sweep of a chunk, if that is the deck's next sweep. -/
def execUpdateSweep (s : State) : Result :=
  match nextSweep s with
  | some w =>
    match w.sweep with
    | .update c q => finish (updateChunk c q (deckWorks (unqueue w.sweep s)))
    | .fold _ _ _ | .gather _ _ _ _ => finish s
  | none => finish s

/-! ### Waiting requests (R121, R122) -/

/-- Whether a request waits for a chunk's image of a bank. -/
def waitsOn (octx seg j b : Nat) (w : GatherWait) : Bool := w.octx == octx && w.seg == seg && w.chunk == j && w.bank == b % 2

/-- Requests that wait for an image are answered with a status. -/
def failWaits (f : GatherWait → Bool) (status : Nat) (s : State) : State :=
  let ws := s.hbm.waits.filter f
  let s := { s with hbm := { s.hbm with waits := s.hbm.waits.filter (fun w => !f w) } }
  ws.foldl (fun s w =>
    match tabGet? s.octxs w.octx with
    | none => s
    | some o =>
      let num := (segAt o.d w.seg).opNum
      let chunk := (((tabGet? s.rctxs o.d.rctx).bind (fun r => (knownOp r num).map (fun op => chunkOfLocal r.d op.f w.chunk)))).getD 0
      let cls := (classesOf s o.d.job).request
      let hdr := { ownHeader s cls o.d.job w.requester with phase := w.naming.phase, ord := true, tag := w.tag }
      originateTo (chunk % 8) (mkPacket hdr (.status w.naming.lctx num chunk status 0x05 0 0)) none s) s

/-- Requests that wait for an image are served from it. -/
def serveWaits (octx seg j b : Nat) (im : Image) (s : State) : State :=
  let ws := s.hbm.waits.filter (waitsOn octx seg j b)
  let s := { s with hbm := { s.hbm with waits := s.hbm.waits.filter (fun w => !waitsOn octx seg j b w) } }
  match tabGet? s.octxs octx with
  | none => s
  | some o =>
    match (tabGet? s.rctxs o.d.rctx).bind (fun r => (knownOp r (segAt o.d seg).opNum).map (fun op => (r, op))) with
    | none => s
    | some (r, op) => ws.foldl (fun s w => replyGather r o op (chunkOfLocal r.d op.f j) w im s) s

/-! ### The gather sweep (R119, R122) -/

/-- One chunk of a row that its update sweeps have written is converted: its image is staged and its word completed. -/
def gatherNew (octx seg j b : Nat) (r : Rctx) (o : Octx) (op : Operation) (s : State) : State :=
  let x := formImage s r o op seg j b
  let e := (getChunk o seg j).bank b
  let cond := e.cond ||| x.2.2.word s.deck.trunc
  let s := modEntry octx seg j b (fun e => { e with cond := cond }) s
  let s := modOctx octx (fun o => { o with leaves := o.leaves.map (reviseLeaf r op (chunkOfLocal r.d op.f j) cond) }) s
  stageImage (imageStack r o seg j b)
    { octx := octx, seg := seg, chunk := j, bank := b % 2, version := e.step, bytes := x.1, scales := x.2.1, digest := [], cond := cond,
      complete := false } s

/-- An image formed again for a request; where the version's digest is not known yet (R92) it waits for it. -/
def gatherAgain (octx seg j b : Nat) (r : Rctx) (o : Octx) (op : Operation) (s : State) : State :=
  let x := formImage s r o op seg j b
  let e := (getChunk o seg j).bank b
  let known := !e.digest32.isEmpty
  let cond := if known then e.cond else e.cond ||| x.2.2.word s.deck.trunc
  let im : Image := { octx := octx, seg := seg, chunk := j, bank := b % 2, version := e.step, bytes := x.1, scales := x.2.1,
                      digest := e.digest32, cond := cond, complete := known }
  let s := modEntry octx seg j b (fun e => { e with cond := cond }) s
  let s := stageImage (imageStack r o seg j b) im s
  if known then serveWaits octx seg j b im s else s

/-- A gather sweep of a chunk and bank. -/
def gatherChunk (octx seg j b : Nat) (s : State) : State :=
  match (tabGet? s.octxs octx).bind (fun o => (tabGet? s.rctxs o.d.rctx).map (fun r => (o, r))) with
  | none => failWaits (waitsOn octx seg j b) stState s
  | some (o, r) =>
    match knownOp r (segAt o.d seg).opNum with
    | none => failWaits (waitsOn octx seg j b) stState s
    | some op =>
      let e := (getChunk o seg j).bank b
      if !chunkAlive s r o seg j b then failWaits (waitsOn octx seg j b) stGone s
      else if e.visible then gatherAgain octx seg j b r o op s
      else if e.valid then (rowChunks r o op (segAt o.d seg) j).foldl (fun s i => gatherNew octx seg i b r o op s) s
      else failWaits (waitsOn octx seg j b) stGone s

/-- GATHER_SWEEP (R60, R119, R122): the gather sweep of a chunk or row, if that is the deck's next sweep. -/
def execGatherSweep (s : State) : Result :=
  match nextSweep s with
  | some w =>
    match w.sweep with
    | .gather o g j b => finish (gatherChunk o g j b (deckWorks (unqueue w.sweep s)))
    | .fold _ _ _ | .update _ _ => finish s
  | none => finish s

/-! ### Record writes (R96, R109) -/

/-- The chunks of a row have all been written in a step: a gather sweep is queued over the row (R119). -/
def queueRow (octx seg j t : Nat) (s : State) : State :=
  match (tabGet? s.octxs octx).bind (fun o => (tabGet? s.rctxs o.d.rctx).map (fun r => (o, r))) with
  | none => s
  | some (o, r) =>
    match knownOp r (segAt o.d seg).opNum with
    | none => s
    | some op =>
      let js := rowChunks r o op (segAt o.d seg) j
      let done := js.all (fun i => let e := (getChunk o seg i).bank t; e.valid && e.step == t)
      if rowGather r o && done then queueGather octx seg (js.headD j) t s else s

/-- RECORD_WRITE_DONE (R96, R109): the chunk counts towards the seal. -/
def execRecordWriteDone (octx seg chunk : Nat) (s : State) : Result :=
  match s.hbm.writes.find? (fun w => w.octx == octx && w.seg == seg && w.chunk == chunk) with
  | none => finish s
  | some w =>
    let s := { s with hbm := { s.hbm with writes := s.hbm.writes.erase w } }
    let s := writeBytes w.addr w.bytes s
    let s := modEntry octx seg chunk w.step (fun e => { e with valid := true }) s
    let s := modChunk octx seg chunk (fun c => { c with written := true }) s
    finish (afterWrite octx (queueRow octx seg chunk w.step s))

/-! ### Image digests (R96, R118, R119) -/

/-- The position whose chunk is a local chunk of the context. -/
def positionFor (r : Rctx) (o : Octx) (seg j : Nat) : Option Nat :=
  (r.positions.find? (fun p => p.2.emitBegun && p.2.state == .complete && p.2.emitLeft == 0 &&
    ((knownOp r p.2.op).bind (fun op => segmentOf r o op p.2.chunk)) == some (seg, j))).map Prod.fst

/-- A new version becomes visible: its entry takes the image's digest, and its push begins (R96, R118). -/
def showVersion (octx : Nat) (im : Image) (s : State) : State :=
  let s := modEntry octx im.seg im.chunk im.bank (fun e => { e with visible := true, digest32 := im.digest.take 4 }) s
  match (tabGet? s.octxs octx).bind (fun o => (tabGet? s.rctxs o.d.rctx).bind (fun r => positionFor r o im.seg im.chunk)) with
  | some q => pushImage octx q im s
  | none => s

/-- The complete images of a row's version, if all are there. -/
def rowImages (s : State) (octx seg : Nat) (js : List Nat) (b v : Nat) : Option (List Image) :=
  js.mapM (fun i => (findImage s octx seg i b).bind (fun im => if im.complete && im.version == v then some im else none))

/-- IMAGE_DIGEST_DONE (R96, R119, R122). -/
def execImageDigestDone (octx seg chunk : Nat) (s : State) : Result :=
  match (stagedImages s).find? (fun y => y.octx == octx && y.seg == seg && y.chunk == chunk && !y.complete) with
  | none => finish s
  | some im0 =>
    let im := { im0 with digest := sha3 (im0.bytes ++ im0.scales), complete := true }
    let s := mapImages (fun y => if y = im0 then some im else some y) s
    match (tabGet? s.octxs octx).bind (fun o => (tabGet? s.rctxs o.d.rctx).map (fun r => (o, r))) with
    | none => finish s
    | some (o, r) =>
      let e := (getChunk o seg chunk).bank im.bank
      if e.visible then
        finish (serveWaits octx seg chunk im.bank im (modEntry octx seg chunk im.bank (fun e => { e with digest32 := im.digest.take 4 }) s))
      else if rowGather r o then
        match (knownOp r (segAt o.d seg).opNum).bind (fun op =>
            rowImages s octx seg (rowChunks r o op (segAt o.d seg) chunk) im.bank im.version) with
        | some ims => finish (ims.foldl (fun s i => showVersion octx i s) s)
        | none => finish s
      else finish (showVersion octx im s)

/-! ### The commit timeout (R113) -/

/-- The step a peer last told of, 0 if none. -/
def peerStep (p : PeerState) : Nat := max ((p.ready.map Prod.fst).getD 0) ((p.committed.map Prod.fst).getD 0)

/-- BEACON_TIMEOUT. -/
def execBeaconTimeout (octx : Nat) (s : State) : Result :=
  match tabGet? s.octxs octx with
  | none => finish s
  | some o =>
    if o.state != .committing || !tideReached o.deadline (now s) then finish s
    else if o.sealedStep then
      match (List.range o.d.peers.length).find? (fun i => !peerAgrees o (o.s + 1) i) with
      | some i => finish (splitStep octx (o.d.peers.getD i (0xFFFF, 0)).1 2 (peerStep (getPeer o i)) stTimeout 0 0 s)
      | none => finish s
    else
      let s := modOctx octx (fun o => { o with state := .opened, command := none }) s
      match o.command with
      | some run => finish (complete run stTimeout 0 0 [] s)
      | none => finish s

/-! ### The fence (R123) -/

/-- Whether a packet is a MOVE of a fence. -/
def isMoveOf (s : State) (f : Fence) (p : Packet) : Bool :=
  pktKind p == 0x4A && p.hdr.src == ownAddr s && f.moves.any (fun m => m.destAddr == p.hdr.dst && m.destOctx == (longHdr p).ctx)

/-- Whether some outgoing move has not been acknowledged. -/
def movesOut (s : State) (f : Fence) : Bool :=
  s.lands.any (fun l => l.2.sources.any (fun q => isMoveOf s f q.pkt) || l.2.voq.any (fun q => isMoveOf s f q.pkt)) ||
    s.xings.any (fun x => x.lanes.any (fun l => l.copies.any (fun c => isMoveOf s f c.pkt)))

/-- Entries of the segments that stay where they are, under their new numbers, then those that moves brought (log entry 26). -/
def carriedChunks (o : Octx) (f : Fence) : Tab ChunkState :=
  let kept := f.segments.zipIdx.foldl (fun (t : Tab ChunkState) g =>
    match o.d.segments.findIdx? (fun h => h.opNum == g.1.opNum && h.base == g.1.base) with
    | some i =>
      (o.chunks.filter (fun c => c.1 / 2 ^ 40 == i)).foldl (fun t c => tabPut t (chunkKey g.2 (c.1 % 2 ^ 40)) c.2) t
    | none => t) []
  f.chunks.foldl (fun t c => tabPut t c.1 c.2) kept

/-- Whether some move that a peer's fence names has not landed: a chunk of the new tables has neither stayed nor come. A group of one
has no peers (R123, log entry 26). -/
def movesIn (r : Rctx) (o : Octx) (f : Fence) : Bool :=
  !o.d.peers.isEmpty && f.segments.zipIdx.any (fun g =>
    (List.range (segChunks r g.1)).any (fun j =>
      !tabHas f.chunks (chunkKey g.2 j) &&
        !o.d.segments.any (fun h => h.opNum == g.1.opNum && h.base == g.1.base && j < segChunks r h)))

/-- The bytes of the image part that have come, from an offset. -/
def imageBytes (f : Fence) (off len : Nat) : List Byte :=
  (List.range len).map (fun i =>
    (f.images.findSome? (fun x => if x.1 ≤ off + i && off + i < x.1 + x.2.length then some (x.2.getD (off + i - x.1) 0) else none)).getD 0)

/-- An image that a move brought, staged under the new tables. -/
def installImage (octx : Nat) (r : Rctx) (o : Octx) (f : Fence) (key b : Nat) (s : State) : State :=
  let seg := key / 2 ^ 40
  let j := key % 2 ^ 40
  let e := (tabGet f.chunks key ChunkState.zero).bank b
  let g := segAt { o.d with segments := f.segments } seg
  let n := localLen r g j
  let gs := elemBytes o.d.gatherFmt
  let slot := imageSlotSize r o.d
  let at_ := ((recordsBefore f.segments seg + j * r.d.elems) / r.d.elems * 2 + b) * slot
  let scales := if !isScaled o.d.gatherFmt then 0 else if rowGather r o then 1 else ceilDiv n (2 ^ o.d.gatherRowLog2)
  if !e.visible then s
  else stageImage (stackOf (recordAddr o.d g (j * r.d.elems) b))
    { octx := octx, seg := seg, chunk := j, bank := b, version := e.step, bytes := imageBytes f at_ (n * gs),
      scales := imageBytes f (at_ + roundUp (r.d.elems * gs) 64) scales, digest := e.digest32, cond := e.cond, complete := true } s

/-- RESHARD_INSTALL: the new tables and epoch, RESHARD_DONE, and OPEN. -/
def execReshardInstall (octx : Nat) (s : State) : Result :=
  match (tabGet? s.octxs octx).bind (fun o => o.fence.bind (fun f => (tabGet? s.rctxs o.d.rctx).map (fun r => (o, f, r)))) with
  | none => finish s
  | some (o, f, r) =>
    if o.state != .fenced || movesOut s f || movesIn r o f then finish s
    else
      let s := failWaits (fun w => w.octx == octx) stEpoch s
      let keep (e : ReadySweep) : Bool := match e.sweep with
        | .gather n _ _ _ => n != octx
        | _ => true
      let s := { s with deck := { s.deck with queue := s.deck.queue.filter keep } }
      let s := mapImages (fun im => if im.octx = octx then none else some im) s
      let s := modOctx octx (fun o =>
        { o with d := { o.d with segments := f.segments, layerEntries := f.layers, step := o.s }, chunks := carriedChunks o f,
                 epoch := f.epoch, fence := none, fenceActive := true, staleRaised := false, state := .opened }) s
      let s := f.imaged.foldl (fun s x => installImage octx r o f x.1 x.2 s) s
      let s := raiseEvent 0x0073 (some o.d.job) (le 2 octx ++ le 1 f.epoch) s
      finish (recheckHeld o.d.rctx s)

end Sys2Proof.Machine
end

