-- ==== Sys2Proof/Machine/Routing.lean ====
section
/-!
DEFINITION. Routing: attributes of hawsers (Table 07.2), usable candidates (R190), the pick of a sprayed or pinned packet (R191,
R192), and packets that find no candidate (R208).
-/
namespace Sys2Proof.Machine

/-- The attribute byte of a hawser in a bank; 0x03 where not set (R188). -/
def hawserAttr (k : Bank) (h : Nat) : Nat := (tabGet k.attrs h 0x03#8).toNat

/-- Whether a bank marks a hawser as leading to a peer F384. -/
def leadsToPeer (s : State) (rte h : Nat) : Bool := bit (hawserAttr (getBank s rte) h) 2

/-- The torus axis of a hawser; none: it is not a ring hawser. -/
def axisOf (k : Bank) (h : Nat) : Option Nat := let a := hawserAttr k h % 4; if a = 3 then none else some a

/-- Slips of a hawser in service at the start of the tick: by these routes are chosen (R190). -/
def slipsAtStart (s : State) (h : Nat) : List Nat := (getHawser s h).slips.filter (fun n => (getSlip s n).startState == .inService)

/-- Conditions 1 to 3 of R190, with the slips' states as `st` gives them: weight, service, PEER. -/
def candidateUp (s : State) (st : Nat → SlipState) (k : Bank) (c : Candidate16) : Bool :=
  let ns := (getHawser s c.hawser).slips
  c.weight != 0 && ns.any (fun n => st n == .inService) && !ns.any (fun n => st n == .quarantine) && bit (hawserAttr k c.hawser) 2

/-- R190 for a packet of a job that arrived on a hawser, or none for a packet that first leaves here: slips count as they stood at the
start of the tick. -/
def candidateUsable (s : State) (k : Bank) (job : Nat) (arrived : Option Nat) (c : Candidate16) : Bool :=
  candidateUp s (fun n => (getSlip s n).startState) k c && arrived != some c.hawser &&
    ((tabGet? s.jobs job).map (fun j => !j.closed || j.sliceMask.testBit c.hawser)).getD true &&
    (match arrived.bind (axisOf k), axisOf k c.hawser with
     | some a, some b => decide (a ≤ b)
     | _, _ => true)

/-- Units waiting in a landing's queue of a class towards a hawser (R217). -/
def voqUnits (s : State) (l cls h : Nat) : Nat :=
  ((getLanding s l).voq.map (fun q =>
    if q.pkt.hdr.cls = cls && q.reps.any (fun r => r.dest == .hawser h) then pktUnits q.pkt else 0)).sum

/-- Q of R192: 0 in replay mode. -/
def congestion (s : State) (l cls job h : Nat) : Nat :=
  if ((tabGet? s.jobs job).map (fun j => j.replay)).getD false then 0
  else min 3 (4 * voqUnits s l cls h / tabGet s.sw.cong cls 8192)

/-- The hawser a packet takes from a landing (R191, R192, R194), under the bank its RTE names; none where R208 applies. -/
def pickRoute (s : State) (l : Nat) (p : Packet) (arrived : Option Nat) : Option Nat :=
  let k := getBank s p.hdr.rte
  let job := p.hdr.job
  let usable := (tabGet k.routes p.hdr.egress []).filter (candidateUsable s k job arrived)
  let primary := usable.filter (fun c => !c.fallback)
  let offer := if primary.isEmpty then usable else primary
  if p.hdr.xing then
    let ws := offer.map (fun c => c.weight * (slipsAtStart s c.hawser).length * (4 - congestion s l p.hdr.cls job c.hawser))
    let y := routeDraw p.hdr.seq p.hdr.lane p.hdr.xmit job p.hdr.hops p.hdr.ingress p.hdr.egress p.hdr.dst (jobSeed s job)
    (offer[weightedChoice ws y]?).map (fun c => c.hawser)
  else (offer.head?).map (fun c => c.hawser)

/-- A packet towards a peer enters the queue of a hawser. -/
def queueTo (l : Nat) (p : Packet) (h : Nat) (slip : Option Nat) (originated : Bool) (emit : Option EmitTag) (s : State) : State :=
  pushVoq l p [{ dest := .hawser h, pkt := p, follow := none }] slip originated emit s

/-- A crossing packet that counts for an emission and was not sent: its source copy counts for it from now on (R66, R208). -/
def returnTag (p : Packet) (emit : Option EmitTag) (s : State) : State :=
  match emit with
  | none => s
  | some e =>
    match findXing s p.hdr.xland p.hdr.egress p.hdr.egressLanding with
    | some x =>
      if (getLane x p.hdr.lane).copies.any (fun c => c.seq == p.hdr.seq) then
        modXing p.hdr.xland p.hdr.egress p.hdr.egressLanding (fun x =>
          let l := getLane x p.hdr.lane
          setLane x p.hdr.lane { l with copies := l.copies.map (fun c => if c.seq = p.hdr.seq then { c with emit := some e } else c) }) s
      else emissionsLeft emit 1 s
    | none => emissionsLeft emit 1 s

/-- A routed packet finds no usable candidate: discarded and counted (R208). -/
def dropUnrouted (l : Nat) (p : Packet) (emit : Option EmitTag) (s : State) : State := returnTag p emit (countLanding l 4 s)

/-- A packet is routed by its own bank and queued, or discarded and counted: its bank is IDLE (R196), or no candidate is usable
(R208). -/
def routeOrDrop (l : Nat) (p : Packet) (slip : Option Nat) (originated : Bool) (emit : Option EmitTag) (s : State) : State :=
  if (getBank s p.hdr.rte).state = .idle then returnTag p emit (countLanding l 3 s)
  else match pickRoute s l p (slip.map (hawserOf s)) with
    | some h => queueTo l p h slip originated emit s
    | none => dropUnrouted l p emit s

/-- A transit packet (R189, R200): routed by its own bank, discarded where the bank is IDLE. -/
def transit (a : Arrival) (s : State) : State := routeOrDrop (homeLanding a.hawser) a.pkt (some a.slip) false none s

/-- Whether a queued packet was routed to a hawser (R195): one for another F384. -/
def stranded (s : State) (h : Nat) (q : Queued) : Bool :=
  q.reps.any (fun r => r.dest == .hawser h) && q.pkt.hdr.egress != ownAddr s

/-- REROUTE (R195): in the tick after a hawser has left service, every packet queued for it is routed again. -/
def execReroute (hawser : Nat) (s : State) : Result :=
  if !(slipsAtStart s hawser).isEmpty then finish s
  else
    let go (s : State) (l : Nat) : State :=
      let qs := (getLanding s l).voq.filter (stranded s hawser)
      let s := modLanding l (fun x => { x with voq := x.voq.filter (fun q => !qs.any (fun k => k.id == q.id)) }) s
      qs.foldl (fun s q => routeOrDrop l q.pkt q.chargedSlip q.originated q.emit s) s
    finish ((s.lands.map Prod.fst).foldl go s)

/-! ### Partitions (R207) -/

/-- The reachable bit of an address (R207): some candidate meets conditions 1 to 3 of R190. -/
def reachable (s : State) (k : Bank) (addr : Nat) : Bool := (tabGet k.routes addr []).any (candidateUp s (fun n => (getSlip s n).state) k)

/-- PARTITION_EVALUATION: changes of the reachable bits of the ACTIVE bank are raised, by rising address. -/
def execPartitionEvaluation (s : State) : Result :=
  if !s.net.serviceChanged then finish s
  else
    let k := getBank s (activeBank s)
    let addrs := (k.routes.map Prod.fst).filter (hasRoute k)
    let old := s.net.reach
    let new := addrs.map (fun a => (a, reachable s k a))
    let s := { s with net := { s.net with reach := new, serviceChanged := false } }
    finish (new.foldl (fun s e =>
      let was := tabGet old e.1 true
      if was && !e.2 then raiseFault 3 0 e.1 0 2 (raiseEvent 0x0041 none (le 2 e.1) s)
      else if !was && e.2 then raiseEvent 0x0042 none (le 2 e.1) s
      else s) s)

end Sys2Proof.Machine
end

