-- ==== Sys2Proof/Machine/Queues.lean ====
section
/-!
DEFINITION. The order in which a landing's received packets enter their queues (R216) and are taken from them (R219, R224).
-/
namespace Sys2Proof.Machine

/-! ### Class service (R224) -/

/-- The state of the weighted procedure: cur, granted, deficits, and the class picked. -/
structure Picking where
  cur : Nat
  granted : Bool
  deficit : Tab Nat
  picked : Option Nat

/-- One visit of `pick_weighted`: `head c` is the size of the packet the slip would take in class c, if any, and whether it is eligible. -/
def pickVisit (quantum : Nat → Nat) (head : Nat → Option (Nat × Bool)) (x : Picking) : Picking :=
  if x.picked.isSome then x
  else
    let c := x.cur
    let onward (x : Picking) : Picking := { x with cur := 2 + (c - 1) % 6, granted := false }
    match head c with
    | none => onward { x with deficit := tabPut x.deficit c 0 }
    | some (_, false) => onward x
    | some (u, true) =>
      let d := tabGet x.deficit c 0 + (if x.granted then 0 else quantum c)
      let x := { x with granted := true, deficit := tabPut x.deficit c d }
      if u ≤ d then { x with deficit := tabPut x.deficit c (d - u), picked := some c } else onward x

/-- `pick_weighted` of R224. -/
def pickWeighted (quantum : Nat → Nat) (head : Nat → Option (Nat × Bool)) (cur : Nat) (granted : Bool) (deficit : Tab Nat) : Picking :=
  (List.range 12).foldl (fun x _ => pickVisit quantum head x) { cur := cur, granted := granted, deficit := deficit, picked := none }

/-! ### Packets handed up (R216, R243) -/

/-- A packet among those of its tick, newest first: by slip number, but never before an earlier packet of its own hawser (R159, R243). -/
def insertBySlip (a : Arrival) : List Arrival → List Arrival
  | [] => [a]
  | x :: xs => if a.slip < x.slip && x.hawser != a.hawser then x :: insertBySlip a xs else a :: x :: xs

/-- A hawser's packet reaches its home landing. -/
def handUp (a : Arrival) (s : State) : State :=
  modLanding (homeLanding a.hawser) (fun l =>
    let n := l.rx.length - l.rxFresh
    { l with rx := l.rx.take n ++ (insertBySlip a (l.rx.drop n).reverse).reverse, rxFresh := l.rxFresh + 1 }) s

/-- A packet leaves the packets handed up to its landing. -/
def dropArrival (a : Arrival) (s : State) : State :=
  modLanding (homeLanding a.hawser) (fun l =>
    { l with rx := l.rx.erase a, rxFresh := if l.rx.length - l.rxFresh ≤ l.rx.idxOf a then l.rxFresh - 1 else l.rxFresh }) s

/-! ### Takers (R219) -/

/-- What takes a received packet from its landing: the queues of hawsers and crossings, which it enters in the order of arrival, the
pontoon, the consumers of short packets, or the receive halves of a landing. -/
inductive Taker where
  | onward | pontoon | consumers | receiveHalf (l : Nat)
  deriving DecidableEq, Repr

def Taker.key (t : Taker) : Nat :=
  match t with
  | .onward => 0
  | .pontoon => 1
  | .consumers => 2
  | .receiveHalf l => 3 + l

/-- The packet that a taker takes next from those waiting for it with their classes, and its class service after: class 0, then class 1,
then the pick of R224 with the default quantum (log entry 49). -/
def pickArrival (waiting : List (Nat × Arrival)) (v : Serve) : Option Arrival × Serve :=
  let head (c : Nat) : Option Arrival := (waiting.find? (fun w => w.1 == c)).map Prod.snd
  match head 0, head 1 with
  | some a, _ => (some a, v)
  | none, some a => (some a, v)
  | none, none =>
    let x := pickWeighted (fun _ => 130) (fun c => (head c).map (fun a => (pktUnits a.pkt, true))) v.cur v.granted v.deficit
    (x.picked.bind head, { cur := x.cur, granted := x.granted, deficit := x.deficit })

end Sys2Proof.Machine
end

