-- ==== Sys2Proof/Machine/Transport.lean ====
section
/-!
DEFINITION. What happens to a packet that arrives: the ingress of a member's packet (R167 to R170), the receive half of a crossing
(R175, R176, R179, R180), delivery (R183 to R187) and the consumers of each kind.
-/
namespace Sys2Proof.Machine

/-! ### Delivery (R183 to R187) -/

/-- The request of a local member that a gather reply answers. -/
def Asked.answeredBy (h : Nat) (p : Packet) (a : Asked) : Bool :=
  a.hawser == h && a.job == p.hdr.job && a.tag == p.hdr.tag && a.opNum == (longHdr p).opNum && a.chunk == (longHdr p).chunk

def askedFor (s : State) (h : Nat) (p : Packet) : Option Asked := s.net.asked.find? (Asked.answeredBy h p)

/-- Whether a gather packet is the chunk's scale packet: the last of a block-scaled image (R118). -/
def scalePacket (p : Packet) : Bool := isScaled (longHdr p).fmt && p.hdr.last

/-- The address of a chunk's first element, from that of one of its element packets (R118). -/
def firstAddress (p : Packet) : Nat := ((longHdr p).addr + 2 ^ 64 - 4096 * (longHdr p).pkt) % 2 ^ 64

/-- A delivered packet of a gather reply: where its elements lie is kept for the chunk's LANDING (R185). -/
def noteReply (h : Nat) (p : Packet) (s : State) : State :=
  if scalePacket p then s
  else
    { s with net := { s.net with asked := s.net.asked.map (fun a =>
        if a.answeredBy h p then { a with base := some (firstAddress p),
                                          extent := max a.extent (4096 * (longHdr p).pkt + 64 * (longHdr p).units) } else a) } }

/-- The chunk's element bytes by an operation of that number that this F384 knows: the chunk may be short (R52). -/
def knownBytes (s : State) (p : Packet) : Option Nat :=
  let h := longHdr p
  s.rctxs.findSome? (fun r =>
    if r.2.d.job = p.hdr.job then
      (knownOp r.2 h.opNum).bind (fun o =>
        if firstChunk r.2.d o.f ≤ h.chunk && h.chunk < firstChunk r.2.d o.f + chunkCount r.2.d o.k
        then some (chunkElems r.2.d o h.chunk * elemBytes h.fmt) else none)
    else none)

/-- The element bytes of a chunk whose element packets reach so far: those of the operation, or, where this F384 knows none, a free
value of elements within the last unit (log entry 3). -/
def elementBytes (s : State) (p : Packet) (extent : Nat) : Nat × State :=
  let size := elemBytes (longHdr p).fmt
  match (knownBytes s p).filter (fun n => n ≤ extent && extent < n + 64) with
  | some n => (n, s)
  | none => let f := fresh 6 s; (extent - f.1.toNat / size * size, f.2)

/-- The element range that LANDING reports for a gather reply's chunk at a remote egress (R185): from the reply's element packets.
Where no request is on record and the last packet is of scales, free values stand for it (log entry 3). -/
def elementRange (h : Nat) (p : Packet) (s : State) : Nat × Nat × State :=
  match (askedFor s h p).bind (fun a => a.base.map (fun b => (b, a.extent))) with
  | some (b, extent) => let n := elementBytes s p extent; (b, n.1, n.2)
  | none =>
    if scalePacket p then
      let a := fresh 64 s
      let b := fresh 64 a.2
      (a.1.toNat, b.1.toNat, b.2)
    else let n := elementBytes s p (4096 * (longHdr p).pkt + 64 * (longHdr p).units); (firstAddress p, n.1, n.2)

/-- The LANDING that follows a LAST packet with NOTIFY_DST to a member (R185, R404). -/
def landingAfter (h : Nat) (p : Packet) (s : State) : Option Packet × State :=
  if !(p.hdr.last && p.hdr.notifyDst) then (none, s)
  else
    let k := longHdr p
    let hdr := { ownHeader s p.hdr.cls p.hdr.job p.hdr.dst with
                 phase := p.hdr.phase, lane := p.hdr.lane, srcRank := p.hdr.srcRank, tag := p.hdr.tag }
    match pktKind p with
    | 0x40 => (some (mkPacket hdr (.landing 0 0xFFFF 0 k.aux k.step 0)), s)
    | 0x46 | 0x47 =>
      let r := elementRange h p s
      (some (mkPacket hdr (.landing 0 k.ctx k.chunk r.1 r.2.1 k.opNum)), r.2.2)
    | _ => (none, s)

/-- WRITE_DONE for a delivered message: to a member of this F384, or on the same lane of the reverse crossing (R186). -/
def sendDone (status : Nat) (p : Packet) (s : State) : State :=
  if !wantsDone p then s
  else if p.hdr.xing then
    let w := writeDonePacket s status p
    originate p.hdr.egressLanding { w with hdr := { w.hdr with egress := p.hdr.ingress } }
      (.crossing p.hdr.ingress p.hdr.xland p.hdr.lane) none s
  else localWriteDone status p s

/-- A gather reply to a member of this F384 takes the name under which the member asked (R404). -/
def nameReply (h : Nat) (p : Packet) (s : State) : Packet :=
  match askedFor s h p with
  | some a => withCtx a.naming.lctx { p with hdr := { p.hdr with phase := a.naming.phase } }
  | none => p

/-- A request is answered once the LAST packet of its reply is delivered. -/
def closeReply (h : Nat) (p : Packet) (s : State) : State :=
  if p.hdr.last then { s with net := { s.net with asked := s.net.asked.filter (fun a => !a.answeredBy h p) } } else s

/-- A packet is delivered to a member hawser (R183 to R187): into its queue at its home landing, or discarded where no slip of the
hawser is in service. -/
def deliverMember (h : Nat) (p0 : Packet) (s : State) : State :=
  let home := homeLanding h
  let reply := pktKind p0 == 0x47
  let p := if reply then nameReply h p0 s else p0
  if (slipsUp s h).isEmpty then sendDone stFaulted p (countLanding home 9 (if reply then closeReply h p s else s))
  else
    let s := if reply then noteReply h p s else s
    let f := landingAfter h p s
    let s := if reply then closeReply h p f.2 else f.2
    sendDone stOk p (pushVoq home p [{ dest := .hawser h, pkt := p, follow := f.1 }] none false none s)

/-- A packet of a peer addressed to this F384 reaches the consumer of its kind. -/
def consume (p : Packet) (s : State) : State :=
  match pktKind p with
  | 0x02 => takeCredit p s
  | 0x03 => takeResend p s
  | 0x04 => takeStatus p s
  | 0x05 => takeGatherReq .peer p s
  | 0x0A => takeRingStop p s
  | 0x43 | 0x44 | 0x45 => takeContribution .peer p s
  | 0x46 => takeResult p s
  | 0x47 => takeGather p s
  | 0x48 => takeBeacon p s
  | 0x49 => takeNorm p s
  | 0x4A => takeMove p s
  | _ => s

/-- Delivery of a packet from a crossing (R179). -/
def deliver (p : Packet) (s : State) : State :=
  match localHawser s p.hdr.dst with
  | some h => deliverMember h p s
  | none => consume p s

/-! ### The receive half of a lane (R175, R176, R179, R180, R213) -/

/-- The XACK of a lane, on its way to the sending landing; the lane's count and timer start again. -/
def sendXack (x : Crossing) (lane : Nat) (s : State) : State :=
  let l := getLane x lane
  let sack := maskOf ((List.range 256).filter (fun i => l.got.contains (l.cum + 1 + BitVec.ofNat 24 i)))
  let s := modXing x.landing x.peer x.peerLanding (fun y =>
    setLane y lane { getLane y lane with sinceAck := 0, ackFrom := none }) s
  let hdr := { ownHeader s 0 0 x.peer with lane := lane, xland := x.landing, egress := x.peer, egressLanding := x.peerLanding,
                                           inc := getInc s x.landing x.peer x.peerLanding }
  originate x.landing (mkPacket hdr (.xack l.cum (BitVec.ofNat 256 sack))) (.crossing x.peer x.peerLanding lane) none s

/-- Packets and units a landing's resequencer holds. -/
def resequencer (s : State) (l : Nat) : Nat × Nat :=
  let held := ((s.xings.filter (fun x => x.landing == l)).map (fun x => (x.lanes.map (fun k => k.held)).flatten)).flatten
  (held.length, (held.map (fun h => pktUnits h.2.pkt)).sum)

/-- CUM past every number received. -/
def advanceCum : Nat → Seq → List Seq → Seq × List Seq
  | 0, c, got => (c, got)
  | n + 1, c, got => if got.contains c then advanceCum n (c + 1) (got.filter (· != c)) else (c, got)

/-- A lane with a sequence number marked received. -/
def XLane.mark (l : XLane) (q : Seq) (t : Tide) : XLane :=
  let r := if q = l.cum then advanceCum (l.got.length + 1) (l.cum + 1) l.got else (l.cum, l.got ++ [q])
  { l with cum := r.1, got := r.2, sinceAck := l.sinceAck + 1, ackFrom := some (l.ackFrom.getD t) }

/-- A crossing packet at its receive half. -/
def receiveXing (x : Crossing) (a : Arrival) (s : State) : State :=
  let p := a.pkt
  let i := p.hdr.lane
  let l := getLane x i
  let q := p.hdr.seq
  let d := (q - l.cum).toNat
  let el := x.landing
  let u := pktUnits p
  let hold := (p.hdr.ord || p.hdr.last) && d != 0
  let full := resequencer s el
  if seqBefore q l.cum || l.got.contains q then sendXack x i (countLanding el 11 s)
  else if 8192 ≤ d then countLanding el 6 s
  else if hold && (8192 ≤ full.1 || (getLanding s el).buf.reseqLimit < full.2 + u) then countLanding el 5 s
  else
    let l1 := l.mark q (now s)
    let out := sortBy (fun a b => decide ((a.1 - l.cum).toNat ≤ (b.1 - l.cum).toNat)) (l1.held.filter (fun h => seqBefore h.1 l1.cum))
    let l2 := { l1 with held := if hold then l1.held ++ [(q, a)] else l1.held.filter (fun h => !seqBefore h.1 l1.cum) }
    let s := modXing el x.peer x.peerLanding (fun y => setLane y i l2) s
    let s := if 64 ≤ l2.sinceAck then sendXack (setLane x i l2) i s else s
    if hold then s else (p :: out.map (fun h => h.2.pkt)).foldl (fun s k => deliver k s) s

/-- The crossing a packet arrived on, seen from its egress landing. -/
def xingOf (s : State) (p : Packet) : Option Crossing := findXing s p.hdr.egressLanding p.hdr.ingress p.hdr.xland

/-- Whether a packet or XACK may be acted on (R172): its crossing is OPEN and of its incarnation; otherwise it is counted. -/
def xingAccepts (p : Packet) (s : State) : Except State Crossing :=
  match xingOf s p with
  | some x =>
    if x.state != .opened then .error (countLanding p.hdr.egressLanding 8 s)
    else if p.hdr.inc != getInc s x.landing x.peer x.peerLanding then .error (countLanding p.hdr.egressLanding 7 s)
    else .ok x
  | none => .error (countLanding p.hdr.egressLanding 8 s)

/-! ### XSYNC and XACK (R172, R175) -/

/-- An XSYNC of a crossing, in its present incarnation. -/
def sendXsync (x : Crossing) (isOpen : Bool) (s : State) : State :=
  let inc := getInc s x.landing x.peer x.peerLanding
  let hdr := { ownHeader s 0 0 x.peer with xland := x.landing, egress := x.peer, egressLanding := x.peerLanding, inc := inc }
  originate x.landing (mkPacket hdr (.xsync inc isOpen)) (.crossing x.peer x.peerLanding 0) none s

/-- XSYNC at its egress (R172): another incarnation resets the crossing, also out of DOWN; its own opens one that is SYNCING, and at one
that is DOWN it is counted (Table 06.8). -/
def takeXsync (p : Packet) (s : State) : State :=
  match p.body, xingOf s p with
  | .xsync inc _, some x =>
    if inc != getInc s x.landing x.peer x.peerLanding then xingReset x inc 1 s
    else match x.state with
      | .syncing => sendXsync x true (modXing x.landing x.peer x.peerLanding (fun y => { y with state := .opened }) s)
      | .opened => s
      | .down => countLanding x.landing 8 s
  | _, _ => s

/-- Whether an XACK acknowledges a sequence number: before CUM, or marked in SACK. -/
def acked (cum : Seq) (sack : BitVec 256) (q : Seq) : Bool :=
  let d := (q - cum).toNat
  seqBefore q cum || (1 ≤ d && d ≤ 256 && sack.getLsbD (d - 1))

/-- XACK at its egress: the copies it acknowledges are released. -/
def takeXack (p : Packet) (s : State) : State :=
  match p.body with
  | .xack cum sack =>
    match xingAccepts p s with
    | .error s => s
    | .ok x =>
      modXing x.landing x.peer x.peerLanding (fun y =>
        let l := getLane y p.hdr.lane
        setLane y p.hdr.lane { l with copies := l.copies.filter (fun c => !acked cum sack c.seq) }) s
  | _ => s

/-- A packet from a peer whose EGRESS is this F384 (R189). -/
def peerEgress (a : Arrival) (s : State) : State :=
  match pktKind a.pkt, a.pkt.hdr.xing with
  | 0x0C, _ => takeXack a.pkt s
  | 0x0D, _ => takeXsync a.pkt s
  | _, false => deliver a.pkt s
  | _, true =>
    match xingAccepts a.pkt s with
    | .ok x => receiveXing x a s
    | .error s => s

/-! ### Ingress from members (R167 to R170, Table 06.7) -/

/-- The kinds of Table 06.4, and those a member may send. -/
def knownKind (k : Nat) : Bool := (1 ≤ k && k ≤ 0x0D) || (0x40 ≤ k && k ≤ 0x4A)
def memberKind (k : Nat) : Bool := [0x01, 0x05, 0x06, 0x40, 0x41, 0x42, 0x43].contains k

/-- The class a member's packet takes (R170). -/
def memberClass (m : ClassMap) (p : Packet) : Nat :=
  match pktKind p with
  | 0x40 => if m.mask.testBit p.hdr.cls then p.hdr.cls else m.write
  | 0x05 | 0x06 => m.request
  | _ => m.reduce

/-- The lowest address that names a local member hawser. -/
def addressOfHawser (s : State) (h : Nat) : Nat :=
  ((s.net.endpoints.find? (fun e => localHawser s e.1 == some h)).map Prod.fst).getD 0xFFFF

/-- The destination of a member's packet (R168, Table 06.7): its address and context, or the status that refuses it. -/
def resolveMember (s : State) (j : Job) (p : Packet) : Except Nat (Nat × Nat) :=
  let served (a c : Nat) : Except Nat (Nat × Nat) := if epValid (endpoint s a) then .ok (a, c) else .error stState
  if pktKind p = 0x40 then
    if 2 ≤ p.hdr.dstForm then .error stBadParam
    else
      let rank := if p.hdr.dstForm = 0 then some p.hdr.dst else stageRank j p.hdr.phase p.hdr.dst
      match rank with
      | none => .error stRange
      | some r =>
        if j.rankCount ≤ r then .error stRange
        else match rankAddr s p.hdr.job r with
          | some a => served a (longHdr p).ctx
          | none => .error stState
  else if p.hdr.dstForm != 2 then .error stBadParam
  else match (tabGet? j.phaseMaps p.hdr.phase).bind (fun m => m.contexts[(pktNames p).1]?) with
    | none => .error stRange
    | some t =>
      match served t.1 t.2 with
      | .error e => .error e
      | .ok x => if pktKind p != 0x05 && epOwner (endpoint s t.1) != ownAddr s then .error stState else .ok x

/-- A member's resolved packet at its own F384: placed at its member, or consumed. -/
def localPacket (hawser : Nat) (n : Naming) (p : Packet) (s : State) : State :=
  match pktKind p with
  | 0x40 =>
    match localHawser s p.hdr.dst with
    | some h => deliverMember h p s
    | none => s
  | 0x01 => takeContribute hawser n p s
  | 0x05 => takeGatherReq (.member hawser n) p s
  | 0x41 | 0x42 | 0x43 => takeContribution (.member hawser n) p s
  | _ => s

/-- A member's request that goes to a peer is kept until it is answered. -/
def noteAsked (h : Nat) (n : Naming) (p : Packet) (s : State) : State :=
  match p.body with
  | .gatherReq _ op chunk _ _ =>
    let a : Asked := { hawser := h, job := p.hdr.job, tag := p.hdr.tag, opNum := op, chunk := chunk, naming := n, base := none, extent := 0 }
    let same (b : Asked) : Bool := b.hawser == h && b.job == a.job && b.tag == a.tag && b.opNum == op && b.chunk == chunk
    { s with net := { s.net with asked := s.net.asked.filter (fun b => !same b) ++ [a] } }
  | _ => s

/-- A member's resolved packet: kept here, or queued for its crossing, which must be OPEN. `p0` is the packet before resolution. -/
def forwardMember (a : Arrival) (p0 p : Packet) (s : State) : State :=
  let l := homeLanding a.hawser
  let e := endpoint s p.hdr.dst
  let el := if epSelf e then l else homeLanding (epHawser e)
  let n : Naming := { lctx := (pktNames p0).1, phase := p0.hdr.phase }
  if epOwner e = ownAddr s then localPacket a.hawser n { p with hdr := { p.hdr with egress := ownAddr s } } s
  else match findXing s l (epOwner e) el with
    | some x =>
      if x.state = .opened then
        let q := { p with hdr := { p.hdr with egress := epOwner e, egressLanding := el } }
        pushNamed l q [{ dest := .crossing (epOwner e) el p.hdr.lane, pkt := q, follow := none }] (some a.slip) false none (some n)
          (noteAsked a.hawser n p s)
      else refuseMember l a.hawser p0 stState s
    | none => refuseMember l a.hawser p0 stState s

/-- A packet from a member: the checks of Table 06.7 in order, then its way on. -/
def memberIngress (a : Arrival) (s : State) : State :=
  let l := homeLanding a.hawser
  let k := pktKind a.pkt
  if !knownKind k then countLanding l 0 s
  else if !memberKind k || !a.pkt.lengthOk then countLanding l 1 s
  else
    let h := a.pkt.hdr
    let rank := ((hawserJobs s a.hawser).find? (fun x => x.1 == h.job)).map Prod.snd
    let src := (rank.bind (rankAddr s h.job)).getD (addressOfHawser s a.hawser)
    let hdr := { h with src := src, srcRank := rank.getD 0xFFFF, hops := 0, seq := 0, xmit := 0, xland := l, xing := false,
                        ingress := ownAddr s, egress := ownAddr s, egressLanding := 0, inc := 0,
                        cls := memberClass (classesOf s h.job) a.pkt }
    let p := { a.pkt with hdr := hdr }
    match rank, tabGet? s.jobs h.job with
    | some _, some j =>
      if j.launch != .launched || now s == j.l then refuseMember l a.hawser p stState (countJob h.job 12 s)
      else if a.pkt.rsvd then refuseMember l a.hawser p stBadParam s
      else if k = 0x06 then takeDrawReq a.hawser { p with hdr := { hdr with dst := ownAddr s, dstForm := 3 } } s
      else match resolveMember s j p with
        | .error st => refuseMember l a.hawser p st s
        | .ok (addr, ctx) => forwardMember a p (withCtx ctx { p with hdr := { hdr with dst := addr, dstForm := 3 } }) s
    | _, _ => refuseMember l a.hawser p stState s

/-! ### Arrival -/

/-- Whether a slip's neighbour is a peer F384: by its accepted IDENT, or by the hawser's attribute where it has none. -/
def fromPeer (s : State) (a : Arrival) : Bool :=
  match (getSlip s a.slip).ex.accepted with
  | some m => m.role == 0
  | none => leadsToPeer s (activeBank s) a.hawser

/-- The class in which a received packet waits (R170). -/
def queueClass (s : State) (a : Arrival) : Nat :=
  if fromPeer s a then a.pkt.hdr.cls else memberClass (classesOf s a.pkt.hdr.job) a.pkt

/-- Whether a member's request is served by this F384. -/
def servedHere (s : State) (p : Packet) : Bool :=
  match tabGet? s.jobs p.hdr.job with
  | some j =>
    (match resolveMember s j p with
     | .ok x => epOwner (endpoint s x.1) == ownAddr s
     | .error _ => false)
  | none => false

/-- What takes a received packet (R216, R219). -/
def takerOf (s : State) (a : Arrival) : Taker :=
  let k := pktKind a.pkt
  let folds := 0x41 ≤ k && k ≤ 0x45
  if fromPeer s a then
    if k = 0x0B then .consumers
    else if a.pkt.hdr.egress != ownAddr s then .onward
    else if a.pkt.hdr.xing then .receiveHalf (a.pkt.hdr.egressLanding % 8)
    else if folds then .pontoon else .consumers
  else if folds then .pontoon
  else if k = 0x01 || k = 0x06 || (k = 0x05 && servedHere s a.pkt) then .consumers
  else .onward

/-- The landings that work on a received packet: the one it has reached, and that of its crossing. -/
def landingsOf (s : State) (a : Arrival) : List Nat :=
  let k := pktKind a.pkt
  homeLanding a.hawser ::
    (if fromPeer s a && a.pkt.hdr.egress == ownAddr s && (a.pkt.hdr.xing || k == 0x0C || k == 0x0D)
     then [a.pkt.hdr.egressLanding % 8] else [])

/-- A received packet is taken from its landing, where its taker takes it next (R216, R219) and the landings that work on it are awake
(R321); a switch of the banks in this tick comes first (R198). -/
def takeNext (a : Arrival) (s : State) : Option State :=
  let l := homeLanding a.hawser
  let x := getLanding s l
  let waiting := x.rx.filter (fun b => takerOf s b == takerOf s a)
  if switchDue s || !(landingsOf s a).all (landingAwake s) then none
  else match takerOf s a with
    | .onward => if waiting.head? == some a then some (dropArrival a s) else none
    | t =>
      let r := pickArrival (waiting.map (fun b => (queueClass s b, b))) (tabGet x.serve t.key Serve.reset)
      if r.1 == some a then some (modLanding l (fun y => { y with serve := tabPut y.serve t.key r.2 }) (dropArrival a s)) else none

/-- A packet handed up by the link layer, or that the command hands up now (log entry 16), is acted on where it is next; otherwise it
waits, and the landings it waits for wake (R322). -/
def receive (a : Arrival) (act : State → State) (s : State) : State :=
  let s := if (getLanding s (homeLanding a.hawser)).rx.contains a then s else handUp a s
  match takeNext a s with
  | some s => act s
  | none => (landingsOf s a).foldl (fun s l => if landingAwake s l then s else modLanding l (fun y => y) s) s

/-- A received packet is acted on by where it came from and where it is bound (R164, R168, R189, R193); a tide message is never routed
(R191). -/
def actOn (a : Arrival) (s : State) : State :=
  if !knownKind (pktKind a.pkt) then countLanding (homeLanding a.hawser) 0 s
  else if !fromPeer s a then memberIngress a s
  else if 2048 ≤ a.pkt.hdr.hops then countLanding (homeLanding a.hawser) 2 s
  else if pktKind a.pkt = 0x0B then s
  else if a.pkt.hdr.egress != ownAddr s then transit a s
  else peerEgress a s

/-- A packet of the kinds a row names; one of another kind has no effect (log entry 16). -/
def arrival (kinds : List Nat) (a : Arrival) (s : State) : State :=
  if kinds.contains (pktKind a.pkt) then receive a (actOn a) s else s

end Sys2Proof.Machine
end

