-- ==== Sys2Proof/Machine/LinkLayer.lean ====
section
/-!
DEFINITION. The link layer of a slip: frames received (R233 to R240), packets in hawser order (R242, R243), replay (R238), and the
neighbour exchange (R246 to R250). The rows NAK_REPLAY, REPLAY_TIMEOUT, IDENT_TIMER, IDENT, IDENT_ACK and IDENT_TIMEOUT.
-/
namespace Sys2Proof.Machine

/-! ### The neighbour exchange -/

/-- IDENT_TIMER (R246): until the neighbour's IDENT has come, and again while the widths last reported disagree. -/
def execIdentTimer (slip : Nat) (s : State) : Result :=
  let p := getSlip s slip
  let due := match p.ex.held with
    | none => true
    | some m => p.ex.accepted.isSome && !widthsAgree p m
  if p.state == .identify && due then finish (tryService slip (sendIdent slip s)) else finish s

/-- An IDENT received on a slip (R246 to R248). -/
def takeIdent (slip : Nat) (m : Ident) (s : State) : State :=
  let p := getSlip s slip
  if p.state = .down then s
  else if m.rsvd then countLink slip 10 1 s
  else if p.state = .inService then
    (if p.ex.accepted == some m then s else moveSlip slip .down 3 s)
  else judgeIdent slip m s

/-- IDENT. -/
def execIdent (slip : Nat) (m : Ident) (s : State) : Result := finish (takeIdent slip m s)

/-- An IDENT_ACK received on a slip (R246, R248). -/
def takeIdentAck (slip : Nat) (m : IdentAck) (s : State) : State :=
  let p := getSlip s slip
  if p.state = .down then s
  else if m.rsvd then countLink slip 10 1 s
  else if p.state = .inService then s
  else
    let s := modSlip slip (fun p => { p with ex := { p.ex with gotAck := some m.result } }) s
    if m.result = 0 then tryService slip s
    else if p.state = .identify then moveSlip slip .quarantine 8 s
    else s

/-- IDENT_ACK. -/
def execIdentAck (slip : Nat) (m : IdentAck) (s : State) : Result := finish (takeIdentAck slip m s)

/-- IDENT_TIMEOUT (R246): no IDENT within 1 ms of entry to IDENTIFY. -/
def execIdentTimeout (slip : Nat) (s : State) : Result :=
  let p := getSlip s slip
  if p.state == .identify && p.ex.held.isNone && 1000000 ≤ tideSince p.ex.since (now s) then
    finish (moveSlip slip .down 3 (countLink slip 11 1 s))
  else finish s

/-- An IDENT read from its 128 bytes (Table 09.4). -/
def parseIdent (b : List Byte) : Ident :=
  { role := field b 1 1, protoMax := field b 2 1, protoMin := field b 3 1, arev := field b 4 1, widthUp := field b 5 1,
    slip := field b 6 2, serial := field b 8 8, hawser := field b 16 2, width := field b 18 1, fabricAddr := field b 20 2,
    fwMeasurement := bytesAt b 64 64, rsvd := !(zeroAt b 19 1 && zeroAt b 22 42) }

/-- A link message by its MSG; another is discarded and counted (R246). -/
def takeMessage (slip : Nat) (units : List (List Byte)) (s : State) : State :=
  let b := units.flatten
  if field b 0 1 = 1 && units.length == 2 then takeIdent slip (parseIdent b) s
  else if field b 0 1 = 2 && units.length == 1 then
    takeIdentAck slip { proto := field b 1 1, result := field b 2 1, rsvd := !zeroAt b 3 61 } s
  else countLink slip 10 1 s

/-! ### Packets received (R239, R243) -/

/-- The packets of a hawser that are next in order, handed up. -/
def drainHawser (h : Nat) : Nat → State → State
  | 0, s => s
  | n + 1, s =>
    let x := getHawser s h
    match x.waiting.find? (fun w => w.1 == x.rxSeq) with
    | some w =>
      drainHawser h n (handUp { slip := w.2.1, hawser := h, pkt := w.2.2 }
        (modHawser h (fun x => { x with rxSeq := x.rxSeq + 1, waiting := x.waiting.filter (fun v => v.1 != w.1) }) s))
    | none => s

/-- A packet received whole on a slip. -/
def takePacket (slip : Nat) (q : Seq) (p : Packet) (s : State) : State :=
  if (getSlip s slip).state != .inService then countLink slip 9 1 s
  else
    let c := p.hdr.cls
    let u := pktUnits p
    let s := modSlip slip (fun p => { p with lrx := { p.lrx with received := tabPut p.lrx.received c (tabGet p.lrx.received c 0 + u) } })
      (countSlip slip 1 u (countSlip slip 0 1 s))
    let h := hawserOf s slip
    let x := getHawser s h
    if seqBefore q x.rxSeq || x.waiting.any (fun w => w.1 == q) then countLink slip 8 1 s
    else drainHawser h (x.waiting.length + 1) (modHawser h (fun x => { x with waiting := x.waiting ++ [(q, slip, p)] }) s)

/-! ### Frames received (R233 to R237, R240) -/

/-- The link protocol version in use (R249). -/
def linkVersion (p : Slip) : Nat := if p.state = .identify then 1 else max 1 p.ex.proto

/-- NAK set in the trailers sent, at version 2 (R237). -/
def setNak (slip : Nat) (s : State) : State :=
  let p := getSlip s slip
  if 2 ≤ linkVersion p && !p.lrx.nak then
    modSlip slip (fun p => { p with lrx := { p.lrx with nak := true } }) (countLink slip 3 1 s)
  else s

/-- A bad frame: counted under BAD_FRAMES (0) or UNIT_ERRORS (2). -/
def badFrame (slip k : Nat) (s : State) : State := setNak slip (countLink slip k 1 s)

/-- The trailer of a good frame (R238, R240): ACK releases held frames, NAK asks for a replay, CREDIT raises the limits. -/
def takeTrailer (b : List Byte) (t : Tide) (v : Nat) (x : LinkTx) : LinkTx :=
  let w := field b 578 2
  let a : FSeq := BitVec.ofNat 12 w
  let x := if fseqBefore (x.acked.getD 0xFFF) a then
      { x with acked := some a, held := x.held.filter (fun f => fseqBefore a f.fseq), replayRun := 0, replayFrom := none,
               nakActedOn := none, ackChanged := t }
    else x
  let x := if 2 ≤ v && bit w 12 && x.nakActedOn != some (x.acked.getD 0xFFF) then { x with nakPending := true } else x
  (List.range 8).foldl (fun (x : LinkTx) c =>
    let l : Seq := BitVec.ofNat 24 (field b (610 + 3 * c) 3)
    if seqBefore (tabGet x.limit c 0) l then { x with limit := tabPut x.limit c l } else x) x

/-- Length in units of the packet that a START unit begins (R235). -/
def unitsOfStart (u : List Byte) : Nat := if 0x40 ≤ field u 0 1 then field u 24 1 + 1 else 1

/-- Units laid into packets as a unit map says (R235): those completed with the HSEQ of their START, and what is in
progress; none where the map contradicts the rules. -/
def layUnits (b : List Byte) (map : Nat) (hold : List (List Byte) × Seq) :
    Option (List (Seq × List (List Byte)) × List (List Byte) × Seq) :=
  (List.range 9).foldl (fun acc i =>
    match acc with
    | none => none
    | some (out, part, q) =>
      let u := bytesAt b (64 * i) 64
      let close (part : List (List Byte)) (q : Seq) : Option (List (Seq × List (List Byte)) × List (List Byte) × Seq) :=
        if unitsOfStart (part.headD []) ≤ part.length then some (out ++ [(q, part)], [], 0) else some (out, part, q)
      match bits map (2 * i + 1) (2 * i), part.isEmpty with
      | 0, true => some (out, part, q)
      | 1, true => close [u] (BitVec.ofNat 24 (field b (583 + 3 * i) 3))
      | 2, false => close (part ++ [u]) q
      | _, _ => none) (some ([], hold.1, hold.2))

/-- Length in units of a link message; none for an unknown MSG, which runs as far as its CONT units. -/
def messageLen (u : List Byte) : Option Nat :=
  match field u 0 1 with
  | 1 => some 2
  | 2 => some 1
  | _ => none

/-- Units of a LINK frame laid into messages as its unit map says (R235, R246): those to act on, an unknown one by its first unit, and the
one in progress, which may go on in the next LINK frame; none where the map contradicts the rules. -/
def layMessages (b : List Byte) (map : Nat) (hold : List (List Byte)) : Option (List (List (List Byte)) × List (List Byte)) :=
  (List.range 9).foldl (fun acc i =>
    match acc with
    | none => none
    | some (out, part) =>
      let u := bytesAt b (64 * i) 64
      let due := (part.head?.map (fun h => (messageLen h).isSome)).getD false
      match bits map (2 * i + 1) (2 * i), due with
      | 0, false => some (out, [])
      | 1, false => if (messageLen u).getD 1 ≤ 1 then some (out ++ [[u]], if (messageLen u).isNone then [u] else []) else some (out, [u])
      | 2, true => if (messageLen (part.headD [])).getD 0 ≤ part.length + 1 then some (out ++ [part ++ [u]], []) else some (out, part ++ [u])
      | 2, false => if part.isEmpty then none else some (out, part)
      | _, _ => none) (some ([], hold))

/-- A frame accepted in sequence. -/
def acceptFrame (slip : Nat) (f : FSeq) (s : State) : State :=
  modSlip slip (fun p => { p with lrx := { p.lrx with ack := some f, nak := false }, lastWork := now s }) s

/-- A decoded frame at the receiver of a slip in data mode: `good` is whether FEC corrected its codeword. -/
def receiveFrame (slip : Nat) (good : Bool) (b : List Byte) (s : State) : State :=
  if !good || field b 636 4 != crc32 (b.take 636) then badFrame slip 0 s
  else
    let v := linkVersion (getSlip s slip)
    let s := modSlip slip (fun p => { p with ltx := takeTrailer b (now s) v p.ltx }) s
    let p := getSlip s slip
    let w := field b 576 2
    let ftype := bits w 13 12
    let f : FSeq := BitVec.ofNat 12 w
    let due : FSeq := (p.lrx.ack.getD 0xFFF) + 1
    let map := field b 580 3
    if ftype = 1 then (if map % 2 ^ 18 = 0 then s else badFrame slip 2 s)
    else if ftype = 3 then badFrame slip 2 s
    else if f != due then
      let s := countLink slip 1 1 s
      if fseqBefore due f then setNak slip s else s
    else if ftype = 0 then
      match layUnits b map (p.lrx.partialUnits, p.lrx.partialHseq) with
      | none => badFrame slip 2 s
      | some (out, part, q) =>
        let s := modSlip slip (fun p => { p with lrx := { p.lrx with partialUnits := part, partialHseq := q } }) (acceptFrame slip f s)
        out.foldl (fun s k => takePacket slip k.1 (parsePacket k.2) s) s
    else
      match layMessages b map p.lrx.message with
      | none => badFrame slip 2 s
      | some (out, part) =>
        let s := modSlip slip (fun p => { p with lrx := { p.lrx with message := part } }) (acceptFrame slip f s)
        out.foldl (fun s k => takeMessage slip k s) s

/-! ### Replay (R238) -/

/-- An IDLE frame (R235, R236): it carries the FSEQ of the next frame and no units, and is counted (Table 14.8). -/
def sendIdle (slip : Nat) (s : State) : State :=
  countSlip slip 4 1 (transmit slip 1 (getSlip s slip).ltx.nextFseq (List.replicate 9 0) [] [] s)

/-- A replay event: every held frame goes again with its trailer current; the eighth in a row from one FSEQ takes the slip down. The 8 us
of the replay timer run from the last advance of ACK, or from its own last resend. -/
def replay (slip : Nat) (byTimer : Bool) (s : State) : State :=
  match (if (getSlip s slip).state = .down then [] else (getSlip s slip).ltx.held) with
  | [] => s
  | f :: fs =>
    let s := countLink slip 6 (fs.length + 1) (countLink slip 4 1 (countNoted 0x0009 s))
    let s := if byTimer then countLink slip 5 1 s else s
    let s := (f :: fs).foldl (fun s k => transmit slip k.ftype k.fseq k.unitMap k.units k.hseqs s) s
    let run := if (getSlip s slip).ltx.replayFrom = some f.fseq then (getSlip s slip).ltx.replayRun + 1 else 1
    let s := modSlip slip (fun p =>
      { p with ltx := { p.ltx with replayRun := run, replayFrom := some f.fseq, nakPending := false,
                                   ackChanged := if byTimer then now s else p.ltx.ackChanged } }) s
    if 8 ≤ run then moveSlip slip .down 2 s else s

/-- NAK_REPLAY: once for each ACK value. -/
def execNakReplay (slip : Nat) (s : State) : Result :=
  let x := (getSlip s slip).ltx
  if x.nakPending then
    let s := replay slip false s
    finish (modSlip slip (fun p => { p with ltx := { p.ltx with nakPending := false, nakActedOn := some (x.acked.getD 0xFFF) } }) s)
  else finish s

/-- REPLAY_TIMEOUT: ACK has not advanced for 8 us while frames are held. -/
def execReplayTimeout (slip : Nat) (s : State) : Result :=
  let x := (getSlip s slip).ltx
  if !x.held.isEmpty && 8000 ≤ tideSince x.ackChanged (now s) then finish (replay slip true s) else finish s

end Sys2Proof.Machine
end

