-- ==== Sys2Proof/Machine/Lanes.lean ====
section
/-!
DEFINITION. The lanes of a slip: bring-up (R263 to R266), data mode (R255 to R261, R267), loopback patterns (R270) and optics
(R274, R275).
-/
namespace Sys2Proof.Machine

def modRx (slip : Nat) (f : LaneRx → LaneRx) (s : State) : State := modSlip slip (fun p => { p with rx := f p.rx }) s
def modTx (slip : Nat) (f : LaneTx → LaneTx) (s : State) : State := modSlip slip (fun p => { p with tx := f p.tx }) s

/-- Loss of the lanes in data mode (R267): counted, and out of service with reason LANE. -/
def loseLanes (slip : Nat) (s : State) : State := moveSlip slip .down 1 (countLane slip 21 1 s)

/-- A lane's levels with an inverted polarity undone (R261). -/
def uninvert (inv : Bool) (l : List Nat) : List Nat := if inv then l.map (fun v => 3 - v) else l

/-! ### Training (R263, R264, R266) -/

def training (p : Slip) (pos : Nat) : Training := if pos = 0 then p.train0 else p.train1

def setTraining (slip pos : Nat) (f : Training → Training) (s : State) : State :=
  modSlip slip (fun p => if pos = 0 then { p with train0 := f p.train0 } else { p with train1 := f p.train1 }) s

/-- Precoding of this end's transmit lane position (R266). -/
def txPrecode (t : LaneTx) (pos : Nat) : Bool := if pos = 0 then t.precode0 else t.precode1

/-- Countdown of a transmit lane position. -/
def txCountdown (t : LaneTx) (pos : Nat) : Nat := if pos = 0 then t.countdown0 else t.countdown1

/-- One transmit tap and its STS after a request (Table 10.4): held; or raised or lowered, by a free amount, to a free limit at which it
stops (log entry 28). -/
def moveTap (req : Nat) (old : Int) (free : Nat) : Int × Nat :=
  let v := free % 256
  let up := (127 - old).toNat
  let down := (old + 128).toNat
  match req with
  | 1 => if bit free 8 || up = 0 then (old + (v % (up + 1) : Nat), 3) else (old + 1 + (v % up : Nat), 1)
  | 2 => if bit free 8 || down = 0 then (old - (v % (down + 1) : Nat), 2) else (old - 1 - (v % down : Nat), 1)
  | _ => (old, 0)

/-- The taps of a lane position and STS after the requests of a control field. -/
def moveTaps (req pos free : Nat) (taps : List Int) : List Int × Nat :=
  (List.range 3).foldl (fun (t : List Int × Nat) i =>
    let m := moveTap (bits req (2 * i + 1) (2 * i)) (t.1.getD (3 * pos + i) 0) (free / 512 ^ i % 512)
    (t.1.set (3 * pos + i) m.1, t.2 + 4 ^ i * m.2)) (taps, 0)

/-- The tap requests sent next: free, none of them reserved (log entry 28). -/
def freeRequests (free : Nat) : Nat := bits free 1 0 % 3 + 4 * (bits free 3 2 % 3) + 16 * (bits free 5 4 % 3)

/-- The control field sent on a lane position (Table 10.4). -/
def sentField (p : Slip) (pos : Nat) : List Byte :=
  let t := training p pos
  let body := le 1 (t.tapReq + 64 * b2n t.precodeReq + 128 * b2n t.rxReady) ++ le 1 (t.tapSts + 64 * b2n (txPrecode p.tx pos)) ++
    le 1 (if p.step = 6 then txCountdown p.tx pos else 0) ++ le 1 1 ++ zeros 10
  body ++ le 2 (crc16 body)

/-- Levels of a test pattern, and its generator after them. -/
def patternLevels (pattern : Nat) : Nat → BitVec 31 → List Nat × BitVec 31
  | 0, r => ([], r)
  | n + 1, r =>
    let a := patternLevel pattern r
    let t := patternLevels pattern n a.2
    (a.1 :: t.1, t.2)

/-- The 1,024 levels of a training frame on a lane position: pattern, control field, then PRBS13Q from the frame before (R263). -/
def trainingLevels (pos : Nat) (field : List Byte) (prbs : List Nat) : List Nat :=
  (bitsLow 48 (markerPattern pos) ++ bytesToBits field).map (fun b => if b then 3 else 0) ++ prbs

/-- Training frames sent on both lanes of a slip. In step 6 each counts down; after those with COUNTDOWN 1, a marker with AM_COUNT 0 is
sent and data begin at short spacing (R265). -/
def sendTraining (slip : Nat) (s : State) : State :=
  let p := getSlip s slip
  let a := patternLevels 0 848 p.tx.gen0
  let b := patternLevels 0 848 p.tx.gen1
  let s := emit (.training slip 0 (trainingLevels 0 (sentField p 0) a.1)) s
  let s := emit (.training slip 1 (trainingLevels 1 (sentField p 1) b.1)) s
  let starts := p.step == 6 && p.tx.countdown0 == 1
  let s := if starts then emit (.marker slip 0) s else s
  modTx slip (fun t =>
    let t := { t with gen0 := a.2, gen1 := b.2, countdown0 := if p.step = 6 then t.countdown0 - 1 else t.countdown0,
                      countdown1 := if p.step = 6 then t.countdown1 - 1 else t.countdown1 }
    if starts then { t with data := true, cwn := 0, amCount := 1, longSpacing := false, prbs := BitVec.allOnes 31, mem0 := 0, mem1 := 0 }
    else t) s

/-- A control field whose CRC passes, received on a lane position: it moves the taps it asks for, and says what the far end measures. -/
def takeField (slip pos : Nat) (b : List Byte) (s : State) : State :=
  let f := fresh 64 s
  let free := f.1.toNat
  let p := getSlip s slip
  let req := field b 0 1
  let sts := field b 1 1
  let m := moveTaps req pos free p.tx.taps
  let s := setTraining slip pos (fun t =>
    let ready := t.rxReady || (p.step == 5 && bit free 32)
    { t with tapReq := freeRequests (bits free 47 40), tapSts := m.2, rxReq := req, rxSts := sts, rxCountdown := field b 2 1,
             rxReady := ready, precodeRun := if p.step = 4 && bit sts 6 == t.precodeReq then t.precodeRun + 1 else 0,
             readyRun := if p.step = 5 && bit req 7 && ready then t.readyRun + 1 else 0 }) f.2
  modTx slip (fun t =>
    let t := { t with taps := m.1 }
    if p.step = 6 || t.data then t else if pos = 0 then { t with precode0 := bit req 6 } else { t with precode1 := bit req 6 }) s

/-- TRAINING_FRAME (R263): its pattern fixes polarity and lane order in step 3, and its control field, if its CRC passes, is acted on. -/
def execTrainingFrame (slip : Nat) (rx : TrainRx) (s : State) : Result :=
  let p := getSlip s slip
  if !(3 ≤ p.step && p.step ≤ 6) then finish s
  else
    let bs := rx.levels.map (fun l => decide (2 ≤ l))
    let mapped := if p.rx.reversed then 1 - rx.lane else rx.lane
    match readPattern (bitsToNat (bs.take 48)) with
    | none => finish (setTraining slip mapped (fun t => { t with frames := 0 }) s)
    | some (pos, inv) =>
      let s := if p.step = 3 then
          modRx slip (fun r =>
            let r := { r with reversed := pos != rx.lane }
            if rx.lane = 0 then { r with inverted0 := inv } else { r with inverted1 := inv }) s
        else s
      let s := setTraining slip pos (fun t => { t with frames := t.frames + 1 }) s
      let b := bitsToBytes (((bs.drop 48).take 128).map (fun x => xor x inv))
      finish (if field b 14 2 = crc16 (b.take 14) then takeField slip pos b s else s)

/-! ### Steps (Table 10.5) -/

/-- Limit of a step in ns; 0 for none. -/
def stepLimit (n : Nat) : Nat :=
  match n with
  | 2 => 100000
  | 3 => 100000
  | 4 => 50000
  | 5 => 100000000
  | 6 => 10000
  | 7 => 10000
  | 8 => 10000
  | 9 => 10000
  | _ => 0

/-- Whether the frames with COUNTDOWN 1 have been received on both lanes: the far end's data begin (R265). -/
def rxStarts (p : Slip) : Bool := p.train0.rxCountdown == 1 && p.train1.rxCountdown == 1

/-- Whether what the part itself sees of a step's completion holds; light and clock recovery (steps 1 and 2) are the lanes' own. -/
def stepComplete (p : Slip) : Bool :=
  match p.step with
  | 3 => 8 ≤ p.train0.frames && 8 ≤ p.train1.frames
  | 4 => 8 ≤ p.train0.precodeRun && 8 ≤ p.train1.precodeRun
  | 5 => 8 ≤ p.train0.readyRun && 8 ≤ p.train1.readyRun
  | 6 => p.tx.data && rxStarts p
  | 7 => p.rx.am0.isSome && p.rx.am1.isSome
  | 8 => p.rx.am0 == p.rx.am1 && p.tele.skew.natAbs ≤ 2048
  | 9 => p.rx.fecLock
  | _ => true

/-- PRECODE_REQ of step 4 (R266, R268): always, never, or, in AUTO, as the channel estimate says, a free value. -/
def precodeRequest (mode : Nat) (free : Bool) : Bool :=
  match mode with
  | 1 => true
  | 2 => false
  | _ => free

/-- The next step begins, with what its predecessor decided. -/
def nextStep (slip : Nat) (s : State) : State :=
  let p := getSlip s slip
  let s := match p.step with
    | 3 =>
      let f := fresh 2 s
      modSlip slip (fun p => { p with train0 := { p.train0 with precodeReq := precodeRequest p.precodeNow (f.1.getLsbD 0) },
                                      train1 := { p.train1 with precodeReq := precodeRequest p.precodeNow (f.1.getLsbD 1) } }) f.2
    | 4 => modRx slip (fun r => { r with precode0 := p.train0.precodeReq, precode1 := p.train1.precodeReq }) s
    | 5 => modTx slip (fun t => { t with countdown0 := 15, countdown1 := 15 }) s
    | _ => s
  if p.step = 9 then moveSlip slip .identify 0 s
  else modLane slip (fun p => { p with step := p.step + 1, stepStart := now s }) s

/-- BRINGUP_STEP_DONE (R265). The SerDes loop of the engine must have locked (R317). -/
def execBringupStepDone (slip : Nat) (s : State) : Result :=
  let p := getSlip s slip
  if 1 ≤ p.step && p.step ≤ 9 && stepComplete p && tabGet? s.clk.serdes (slip / 8) == some .locked then finish (nextStep slip s)
  else finish s

/-- BRINGUP_STEP_TIMEOUT (R265). -/
def execBringupStepTimeout (slip : Nat) (s : State) : Result :=
  let p := getSlip s slip
  if 2 ≤ p.step && p.step ≤ 9 && stepLimit p.step < tideSince p.stepStart (now s) then
    finish (restartBringup slip (countLane slip 22 1 s))
  else finish s

/-- LIGHT_LOSS (R265, R267): bring-up starts again without counting, or data mode ends; in NAP and SLEEP it is ignored (R278). -/
def execLightLoss (slip : Nat) (s : State) : Result :=
  let p := getSlip s slip
  if 2 ≤ p.step && p.step ≤ 9 then finish (restartBringup slip s)
  else if p.step = 10 && p.power ≤ 1 then finish (loseLanes slip s)
  else finish s

/-! ### Markers (R261) -/

/-- Whether a slip's test sends a pattern: modes 1, 2 and 4. -/
def patternMode (p : Slip) : Bool := p.loopback == 1 || p.loopback == 2 || p.loopback == 4

/-- Whether the receive lanes carry markers and codewords: from the beginning of the far end's data on (R265), awake or waking, or in a
test of framed codewords. -/
def laneListens (p : Slip) : Bool :=
  (((p.step == 6 && rxStarts p) || (7 ≤ p.step && p.step ≤ 10)) && (p.power ≤ 1 || p.waking)) ||
    (patternMode p && p.pattern == 2)

/-- The start of a run of codewords, after a marker (R254, R256, R260). -/
def LaneRx.afterMarker (r : LaneRx) : LaneRx :=
  { r with cwn := 0, prbs := BitVec.allOnes 31, mem0 := 0, mem1 := 0, amExpected := false }

/-- AM_ERRORS of a lane position, raised where its marker was missing or invalid, with the run of them. -/
def markAm (slip pos : Nat) (bad : Bool) (s : State) : State :=
  let s := if bad then countLane slip (19 + pos) 1 s else s
  modRx slip (fun r =>
    if pos = 0 then { r with amBad0 := if bad then r.amBad0 + 1 else 0 } else { r with amBad1 := if bad then r.amBad1 + 1 else 0 }) s

/-- Three AM errors in a row on a lane are a loss of marker lock. -/
def judgeMarkers (slip : Nat) (s : State) : State :=
  let r := (getSlip s slip).rx
  if r.fecLock && (3 ≤ r.amBad0 || 3 ≤ r.amBad1) && (getSlip s slip).step = 10 then loseLanes slip s else s

/-- ALIGNMENT_MARKER: the markers of both lanes with the skew of the upper against the lower. -/
def execAlignmentMarker (slip : Nat) (lower upper : List Nat) (skew : Int) (s : State) : Result :=
  let p := getSlip s slip
  if !laneListens p then finish s
  else
    let m0 := readMarker lower
    let m1 := readMarker upper
    let rev := match m0, m1 with
      | some a, some b => if a.1 = b.1 then p.rx.reversed else a.1 == 1
      | some a, none => a.1 == 1
      | none, some b => b.1 == 0
      | none, none => p.rx.reversed
    let at0 := if rev then m1 else m0
    let at1 := if rev then m0 else m1
    let ok0 := (at0.map (fun m => m.1 == 0)).getD false
    let ok1 := (at1.map (fun m => m.1 == 1)).getD false
    let due := p.rx.amExpected && p.rx.fecLock
    let s := modRx slip (fun r =>
      { r with reversed := rev, inverted0 := (m0.map (fun m => m.2.1)).getD r.inverted0,
               inverted1 := (m1.map (fun m => m.2.1)).getD r.inverted1,
               am0 := if ok0 then at0.map (fun m => m.2.2) else r.am0, am1 := if ok1 then at1.map (fun m => m.2.2) else r.am1 }) s
    let s := if ok0 && ok1 then modSlip slip (fun p => { p with tele := { p.tele with skew := skew } }) s else s
    let s := if due then markAm slip 1 (!ok1) (markAm slip 0 (!ok0) s) else s
    let s := if p.rx.amExpected || ok0 || ok1 then modRx slip LaneRx.afterMarker s else s
    finish (judgeMarkers slip s)

/-! ### Codewords (R255 to R258, R267) -/

/-- The counters of a decoded codeword (Table 10.8): corrected symbols by lane position, and the histogram. -/
def countCodeword (slip : Nat) (fixed : List Nat) (s : State) : State :=
  let n := fixed.length
  let s := modSlip slip (fun p =>
    let w := p.tele.words + 1
    let es := if n = 0 then p.tele.errs else (w, n) :: p.tele.errs
    { p with tele := { p.tele with words := w, errs := es.filter (fun e => w < e.1 + 2 ^ 24) } }) s
  if n = 0 then s
  else
    let even := (fixed.filter (fun k => k % 2 == 0)).length
    countLane slip (n + 3) 1 (countLane slip 3 (n - even) (countLane slip 2 even (countLane slip 0 1 s)))

/-- The received word of 544 symbols: polarity, lane order and precoding undone; and the last levels of both positions. -/
def receivedWord (r : LaneRx) (lower upper : List Nat) : List Nat × Nat × Nat :=
  let a := uninvert r.inverted0 lower
  let b := uninvert r.inverted1 upper
  let g0 := if r.reversed then b else a
  let g1 := if r.reversed then a else b
  let d0 := if r.precode0 then deprecode r.mem0 g0 else (g0, 0)
  let d1 := if r.precode1 then deprecode r.mem1 g1 else (g1, 0)
  (interleave (laneSymbols d0.1) (laneSymbols d1.1), d0.2, d1.2)

/-- The receiver after a codeword: `cb` is its control field, if it could be decoded (R256, R260, R267, R278, R279). -/
def LaneRx.after (r : LaneRx) (prbs : BitVec 31) (mem0 mem1 : Nat) (cb : Option Nat) : LaneRx :=
  let r := { r with prbs := prbs, mem0 := mem0, mem1 := mem1 }
  match cb with
  | none => { r with cwn := r.cwn + 1, badRun := r.badRun + 1, goodRun := 0, powerRun := 0 }
  | some c =>
    let inSeq := bits c 13 0 == r.cwn
    let req := bits c 15 14
    { r with cwn := r.cwn + 1, badRun := 0, seqRun := if inSeq then 0 else r.seqRun + 1, goodRun := if inSeq then r.goodRun + 1 else 0,
             fecLock := r.fecLock || (inSeq && decide (64 ≤ r.goodRun + 1)), sawLocked := r.sawLocked || bit c 16,
             amExpected := bit c 17, powerReq := req, powerRun := if req = 0 then 0 else r.powerRun + 1 }

/-- A codeword received by lanes that listen for one. -/
def takeCodeword (slip : Nat) (lower upper : List Nat) (s : State) : State :=
  let p := getSlip s slip
  let missed := p.rx.amExpected
  let s := if missed then
      let s := if p.rx.fecLock then markAm slip 1 true (markAm slip 0 true s) else s
      modRx slip LaneRx.afterMarker s
    else s
  let r := (getSlip s slip).rx
  let w := receivedWord r lower upper
  let d := rsDecode w.1
  let m := scramble r.prbs (messageBits ((d.map Prod.fst).getD w.1))
  let cb := bitsToNat (m.1.take 20)
  let s := match d with
    | some x => countCodeword slip x.2 s
    | none => countLane slip 1 1 (modSlip slip (fun p => { p with tele := { p.tele with words := p.tele.words + 1 } }) s)
  let s := modRx slip (fun r => r.after m.2 w.2.1 w.2.2 (d.map (fun _ => cb))) s
  let r := (getSlip s slip).rx
  if p.step != 10 || !p.rx.fecLock then s
  else if 8 ≤ r.badRun then loseLanes slip (badFrame slip 0 s)
  else if 4 ≤ r.seqRun then loseLanes slip s
  else
    let s := if d.isSome && p.power = 1 && r.powerReq = 0 then wakeSlip slip s else s
    judgeMarkers slip (receiveFrame slip d.isSome (bitsToBytes (m.1.drop 20)) s)

/-- CODEWORD_RECEIVE (R257): once the lanes' markers have been aligned (R265), and in a test of framed codewords. -/
def execCodewordReceive (slip : Nat) (lower upper : List Nat) (s : State) : Result :=
  let p := getSlip s slip
  let locked : Bool := p.step == 0 || 9 ≤ p.step || (p.rx.am0.isSome && p.rx.am0 == p.rx.am1)
  if laneListens p && locked then finish (takeCodeword slip lower upper s) else finish s

/-! ### Loopbacks and test patterns (R269, R270) -/

/-- Levels of a test put out on both lanes of a slip: on the fibre in mode 4, inside the part with the lasers at standby in modes 1 and 2
(Table 10.6). -/
def putOut (slip : Nat) (lower upper : List Nat) (s : State) : State :=
  let fibre := (getSlip s slip).loopback == 4
  emit (.symbols slip 1 fibre upper) (emit (.symbols slip 0 fibre lower) s)

/-- The pattern of one tide tick, 64 symbols on each lane (R253, R269). -/
def sendPattern (slip : Nat) (s : State) : State :=
  let p := getSlip s slip
  let a := patternLevels p.pattern 64 p.tx.gen0
  let b := patternLevels p.pattern 64 p.tx.gen1
  modTx slip (fun t => { t with gen0 := a.2, gen1 := b.2 }) (putOut slip a.1 b.1 s)

/-- A framed IDLE codeword of a test, with the marker that follows it, kept until it is compared (R269, R270). -/
def sendTestWord (slip : Nat) (s : State) : State :=
  let p := getSlip s slip
  let w := p.tx.word p.rx.fecLock false (frameBytes s slip 1 p.ltx.nextFseq (List.replicate 9 0) [] [])
  let lower := w.lower ++ (if w.last then markerLevels 0 p.tx.amCount else [])
  let upper := w.upper ++ (if w.last then markerLevels 1 p.tx.amCount else [])
  modSlip slip (fun p => { p with tx := w.after, await0 := p.await0 ++ lower, await1 := p.await1 ++ upper }) (putOut slip lower upper s)

/-- What the lanes of a slip send in one tide tick but for frames of the link layer: a training frame every 16 ns until data begin (R263,
R265), or a test's pattern (R269); a codeword takes 21.25 ns (R258), a marker 1 ns (R262). The engine's SerDes loop must run (R317). -/
def lanesTick (slip : Nat) (s : State) : State :=
  let p := getSlip s slip
  let trains := 1 ≤ p.step && p.step ≤ 6 && !p.tx.data
  let tests := p.step == 0 && p.power == 0 && patternMode p
  if tabGet? s.clk.serdes (slip / 8) != some .locked || !(trains || tests) then s
  else if tests && p.pattern != 2 then sendPattern slip s
  else
    let period := if trains then 64 else 85 + 4 * b2n (p.tx.cwn == 0 && p.tx.amCount != 0)
    let due := period ≤ p.tx.age + 4
    let s := modTx slip (fun t => { t with age := if due then t.age + 4 - period else t.age + 4 }) s
    if !due then s else if trains then sendTraining slip s else sendTestWord slip s

/-- Symbols that differ from those sent and awaited, and what is still awaited; symbols beyond those sent are not compared. -/
def compareAwaited : List Nat → List Nat → Nat × List Nat
  | [], ws => (0, ws)
  | _, [] => (0, [])
  | l :: ls, w :: ws =>
    let t := compareAwaited ls ws
    (t.1 + (if l = w then 0 else 1), t.2)

/-- Received symbols of a lane position against the test's pattern: mismatches are counted in PATTERN_ERR (R270). -/
def checkPattern (slip pos : Nat) (l : List Nat) (s : State) : State :=
  let p := getSlip s slip
  if p.pattern = 2 then
    let e := compareAwaited l (if pos = 0 then p.await0 else p.await1)
    countLane slip (24 + pos) e.1 (modSlip slip (fun p => if pos = 0 then { p with await0 := e.2 } else { p with await1 := e.2 }) s)
  else
    let e := patternErrors p.pattern (if pos = 0 then p.pattern0 else p.pattern1) l
    countLane slip (24 + pos) e.1 (modSlip slip (fun p => if pos = 0 then { p with pattern0 := e.2 } else { p with pattern1 := e.2 }) s)

/-- PATTERN_SYMBOL_RECEIVE: compared, after polarity and lane order are corrected (R261); in far-end mode sent back as they are. -/
def execPatternSymbolReceive (slip lane : Nat) (levels : List Nat) (s : State) : Result :=
  let p := getSlip s slip
  if p.loopback == 3 then finish (if p.power = 0 then emit (.symbols slip lane true levels) s else s)
  else if patternMode p then
    finish (checkPattern slip (if p.rx.reversed then 1 - lane else lane)
      (uninvert (if lane = 0 then p.rx.inverted0 else p.rx.inverted1) levels) s)
  else finish s

/-! ### Optics (R274) -/

/-- The bit of an alarm in ALARMS (Table 10.10). -/
def alarmBit (lane : Nat) (power : Bool) : Nat := if power then 16 + lane else lane

/-- OPTICS_ALARM: the bit is set and the event raised, unless it is set already; a receive lane's slip must be in service. -/
def execOpticsAlarm (engine lane : Nat) (power : Bool) (s : State) : Result :=
  let e := getEngine s engine
  let b := alarmBit lane power
  let slipUp := (getSlip s (8 * engine + lane / 2)).state == .inService
  if e.alarms.getLsbD b || e.state == 2 || (power && !slipUp) then finish s
  else
    let s := modEngine engine (fun e => { e with alarms := e.alarms ||| BitVec.ofNat 32 (2 ^ b) }) s
    finish (raiseEvent 0x0022 none (le 1 engine ++ le 1 lane ++ le 1 (b2n power)) s)

/-- OPTICS_ALARM_CLEAR. -/
def execOpticsAlarmClear (engine lane : Nat) (power : Bool) (s : State) : Result :=
  finish (modEngine engine (fun e => { e with alarms := e.alarms &&& ~~~(BitVec.ofNat 32 (2 ^ alarmBit lane power)) }) s)

end Sys2Proof.Machine
end

