-- ==== Sys2Proof/Machine/TransportRows.lean ====
section
/-!
DEFINITION. The commands of transport: packets that arrive, by kind (Table 06.4); XSYNC, XACK and the timers of crossings (R171 to R178);
packets sent on a crossing (R174) or out of their sources (R214); and the residue timer of multicasts (R221, R222).
-/
namespace Sys2Proof.Machine

/-! ### Packets that arrive -/

/-- TRANSIT_PACKET (R189, R193): a packet from a peer whose EGRESS is another F384. -/
def execTransitPacket (a : Arrival) (s : State) : Result :=
  if fromPeer s a && a.pkt.hdr.egress != ownAddr s && knownKind (pktKind a.pkt) && pktKind a.pkt != 0x0B then
    finish (receive a (actOn a) s)
  else finish s

/-- Whether a packet is a tide message that one of the tide rows takes: from a peer, of a kind of Table 05.4. -/
def tideRow (s : State) (a : Arrival) : Bool :=
  fromPeer s a && (match a.pkt.body with
    | .tide m => decide (m.kind < 3)
    | _ => false)

/-- UNKNOWN_PACKET (R164): discarded and counted. The kinds that have no row of their own come here; from a member they are counted
by R169, and a tide message of a reserved kind is discarded. -/
def execUnknownPacket (a : Arrival) (s : State) : Result :=
  let k := pktKind a.pkt
  if (!knownKind k || k = 0x07 || k = 0x08 || k = 0x0B) && !tideRow s a then finish (receive a (actOn a) s) else finish s

/-- WRITE (R168, R183): from a member, or arriving at its egress. -/
def execWrite (a : Arrival) (s : State) : Result := finish (arrival [0x40] a s)
/-- CONTRIBUTE (R52). -/
def execContribute (a : Arrival) (s : State) : Result := finish (arrival [0x01] a s)
/-- CONTRIB (R72). -/
def execContrib (a : Arrival) (s : State) : Result := finish (arrival [0x41] a s)
/-- SCALE (R51). -/
def execScale (a : Arrival) (s : State) : Result := finish (arrival [0x42] a s)
/-- TRAILER (R155). -/
def execTrailer (a : Arrival) (s : State) : Result := finish (arrival [0x43] a s)
/-- PDESC (R70). -/
def execPdesc (a : Arrival) (s : State) : Result := finish (arrival [0x44] a s)
/-- PDATA (R70). -/
def execPdata (a : Arrival) (s : State) : Result := finish (arrival [0x45] a s)
/-- CREDIT (R55, R402). -/
def execCredit (a : Arrival) (s : State) : Result := finish (arrival [0x02] a s)
/-- RESEND (R78). -/
def execResend (a : Arrival) (s : State) : Result := finish (arrival [0x03] a s)
/-- STATUS (R73, R56). -/
def execStatus (a : Arrival) (s : State) : Result := finish (arrival [0x04] a s)
/-- RING_STOP (R82). -/
def execRingStop (a : Arrival) (s : State) : Result := finish (arrival [0x0A] a s)
/-- RESULT (R71). -/
def execResult (a : Arrival) (s : State) : Result := finish (arrival [0x46] a s)
/-- GATHER (R118). -/
def execGather (a : Arrival) (s : State) : Result := finish (arrival [0x47] a s)
/-- GATHER_REQ (R121). -/
def execGatherReq (a : Arrival) (s : State) : Result := finish (arrival [0x05] a s)
/-- DRAW_REQ (R139). -/
def execDrawReq (a : Arrival) (s : State) : Result := finish (arrival [0x06] a s)
/-- BEACON (R110). -/
def execBeacon (a : Arrival) (s : State) : Result := finish (arrival [0x48] a s)
/-- NORM (R108). -/
def execNorm (a : Arrival) (s : State) : Result := finish (arrival [0x49] a s)
/-- MOVE (R123). -/
def execMove (a : Arrival) (s : State) : Result := finish (arrival [0x4A] a s)
/-- WRITE_DONE_ARRIVAL (R186). -/
def execWriteDoneArrival (a : Arrival) (s : State) : Result := finish (arrival [0x09] a s)

/-! ### XSYNC and XACK (R172, R175) -/

/-- XSYNC. -/
def execXsync (a : Arrival) (s : State) : Result := finish (arrival [0x0D] a s)

/-- XSYNC_TIMER (Table 06.8): a SYNCING crossing sends XSYNC. -/
def execXsyncTimer (landing peer peerLanding : Nat) (s : State) : Result :=
  match findXing s landing peer peerLanding with
  | some x => if x.state = .syncing then finish (sendXsync x false s) else finish s
  | none => finish s

/-- XACK. -/
def execXack (a : Arrival) (s : State) : Result := finish (arrival [0x0C] a s)

/-- XACK_TIMER (R175): 500 ns after the earliest packet that no XACK covers, after the arrivals of the tick. -/
def execXackTimer (landing peer peerLanding lane : Nat) (s : State) : Result :=
  match findXing s landing peer peerLanding with
  | some x => if xackDue s x (getLane x lane) && !arrivalsDue s then finish (sendXack x lane s) else finish s
  | none => finish s

/-! ### Sending on a crossing (R174, R199, R208) -/

/-- The oldest queued packet with a replica for a lane of a crossing. -/
def nextForXing (s : State) (l peer pl lane : Nat) : Option (Queued × Replica) :=
  (getLanding s l).voq.findSome? (fun q => (q.reps.find? (fun r => r.dest == .crossing peer pl lane)).map (fun r => (q, r)))

/-- Units of the source copies a landing holds. -/
def copyUnits (s : State) (l : Nat) : Nat :=
  ((s.xings.filter (fun x => x.landing == l)).map (fun x => (x.lanes.map (fun k => (k.copies.map (fun c => pktUnits c.pkt)).sum)).sum)).sum

/-- Whether the window of a lane admits its next sequence number after `n` more. -/
def windowOpen (x : Crossing) (l : XLane) (n : Nat) : Bool := l.copies.all (fun c => (l.nextSeq - c.seq).toNat + n < x.window) && n < x.window

/-- Whether a landing's copies region has room for so many units more. -/
def copyRoom (s : State) (l u : Nat) : Bool := copyUnits s l + u ≤ (getLanding s l).buf.copyLimit

/-- A queued packet without one of its replicas, gone with the last; a multicast's residue timer starts with the first. -/
def takeReplica (l : Nat) (q : Queued) (r : Replica) (s : State) : State :=
  let rest := q.reps.erase r
  let due := if q.multicast then some (q.residueAt.getD (now s + BitVec.ofNat 64 (1000 * s.sw.residue))) else none
  modLanding l (fun x =>
    { x with voq := if rest.isEmpty then x.voq.filter (fun k => k.id != q.id)
                    else x.voq.map (fun k => if k.id = q.id then { q with reps := rest, residueAt := due } else k) }) s

/-- CROSSING_SEND: the oldest waiting packet of a lane is stamped, copied and routed. A member's packet without a route is refused
before it is copied; any other is discarded and its copy stays. -/
def execCrossingSend (landing peer peerLanding lane : Nat) (s : State) : Result :=
  match findXing s landing peer peerLanding, nextForXing s landing peer peerLanding lane with
  | some x, some (q, r) =>
    let l := getLane x lane
    let u := pktUnits r.pkt
    if x.state != .opened || switchDue s || !landingAwake s landing || !windowOpen x l 0 || !copyRoom s landing u then finish s
    else
      let hdr := { r.pkt.hdr with
                   seq := l.nextSeq, xmit := 0, xland := landing, xing := true, inc := getInc s landing peer peerLanding, hops := 0,
                   rte := activeBank s, ingress := ownAddr s, egress := peer, egressLanding := peerLanding, lane := lane }
      let p := { r.pkt with hdr := hdr }
      let route := pickRoute s landing p (q.chargedSlip.map (hawserOf s))
      let s := takeReplica landing q r s
      match route, q.originated, localHawser s r.pkt.hdr.src with
      | none, false, some h => finish (answerRefused h (asNamed q.named r.pkt) stPartition (countLanding landing 4 s))
      | _, _, _ =>
        let copy : Copy := { seq := l.nextSeq, pkt := p, sentAt := now s, retries := 0, emit := if route.isNone then q.emit else none }
        let s := modXing landing peer peerLanding (fun y =>
          setLane y lane { getLane y lane with nextSeq := l.nextSeq + 1, copies := (getLane y lane).copies ++ [copy] }) s
        match route with
        | some h => finish (queueTo landing p h none false q.emit s)
        | none => finish (countLanding landing 4 s)
  | _, _ => finish s

/-- RETRANSMIT_TIMEOUT (R177), after the arrivals of its tick: the first copy of a lane past its time goes again, or the crossing goes
DOWN. -/
def execRetransmitTimeout (landing peer peerLanding lane : Nat) (s : State) : Result :=
  match findXing s landing peer peerLanding with
  | none => finish s
  | some x =>
    match (if arrivalsDue s then none else (getLane x lane).copies.find? (copyDue s x)) with
    | none => finish s
    | some c =>
      if x.retryLimit ≤ c.retries then finish (xingDown x lane s)
      else
        let k := c.retries + 1
        let p := { c.pkt with hdr := { c.pkt.hdr with xmit := min 15 k, hops := 0, rte := activeBank s } }
        let copy := { c with pkt := p, sentAt := now s, retries := k, emit := none }
        let s := modXing landing peer peerLanding (fun y =>
          let l := getLane y lane
          { setLane y lane { l with copies := l.copies.map (fun d => if d.seq = c.seq then copy else d) } with
            retransmits := y.retransmits + 1 }) (countNoted 0x000A s)
        finish (routeOrDrop landing p none false c.emit s)

/-! ### Sources (R214) -/

/-- Units of a class that a landing's origin region holds. -/
def originUnits (s : State) (l cls : Nat) : Nat :=
  ((getLanding s l).voq.map (fun q => if q.originated && q.pkt.hdr.cls = cls then pktUnits q.pkt else 0)).sum

/-- Whether a packet of the transport itself, which is pinned and takes no copy: XACK and XSYNC (R191). -/
def pinnedKind (p : Packet) : Bool := pktKind p == 0x0C || pktKind p == 0x0D

/-- The units, and on a lane the packets, that wait in a landing's queues to be sent on crossings. -/
def waitingCopies (s : State) (l : Nat) : Nat :=
  ((getLanding s l).voq.map (fun q => (q.reps.map (fun r => match r.dest with
    | .crossing _ _ _ => pktUnits r.pkt
    | _ => 0)).sum)).sum

def waitingOn (s : State) (l : Nat) (d : Dest) : Nat :=
  ((getLanding s l).voq.map (fun q => (q.reps.filter (fun r => r.dest == d)).length)).sum

/-- Whether a replica may leave its source (R174, R214): one for a crossing once the crossing is OPEN and its window and the copies
region have room for it, behind those already in the queues; or, so that it is discarded and counted, once the crossing is DOWN or
gone (R178). -/
def mayLeave (s : State) (l : Nat) (r : Replica) : Bool :=
  match r.dest with
  | .crossing p pl lane =>
    pinnedKind r.pkt ||
      (match findXing s l p pl with
       | none => true
       | some x =>
         x.state == .down ||
           (x.state == .opened && windowOpen x (getLane x lane) (waitingOn s l r.dest) && copyRoom s l (waitingCopies s l + pktUnits r.pkt)))
  | _ => true

/-- The first packet that may leave a landing's sources: its origin class has room, and some replica of it may leave. Packets of one
class wait for room in order, and so do those for one destination (log entry 49). -/
def nextSourced (s : State) (l : Nat) : List Nat → List Dest → List Sourced → Option Sourced
  | _, _, [] => none
  | classes, dests, q :: qs =>
    let c := q.pkt.hdr.cls
    if classes.contains c then nextSourced s l classes dests qs
    else if !(originUnits s l c + pktUnits q.pkt ≤ originLimit (getLanding s l).buf c) then nextSourced s l (c :: classes) dests qs
    else if q.reps.any (fun r => mayLeave s l r && !dests.contains r.dest) then some q
    else nextSourced s l classes (q.reps.map (fun r => r.dest) ++ dests) qs

/-- Whether a replica's destination takes it: its crossing is there and not DOWN, or its hawser or slip is in service. -/
def destTakes (s : State) (l : Nat) (r : Replica) : Bool :=
  match r.dest with
  | .crossing p pl _ => ((findXing s l p pl).map (fun x => x.state != .down)).getD false
  | .hawser h => !(slipsUp s h).isEmpty
  | .slip n => (getSlip s n).state == .inService

/-- A replica that its destination does not take is counted: crossing not OPEN, or hawser out of service (R178, R187); a tide message is
dropped with its slip (log entry 48). -/
def countGone (l : Nat) (r : Replica) (s : State) : State :=
  match r.dest with
  | .crossing _ _ _ => countLanding l 8 s
  | .hawser _ => countLanding l 9 s
  | .slip _ => s

/-- ORIGIN_SEND: a packet leaves its source into its queues, after the packets received (R216). XACK and XSYNC are routed here, pinned
(R191). -/
def execOriginSend (landing : Nat) (s : State) : Result :=
  let may : Bool := landingAwake s landing && !switchDue s && !arrivalsDue s
  match (if may then nextSourced s landing [] [] (getLanding s landing).sources else none) with
  | none => finish s
  | some q =>
    let s := modLanding landing (fun x => { x with sources := x.sources.erase q }) s
    let gone := q.reps.filter (fun r => !destTakes s landing r)
    let stay := q.reps.filter (destTakes s landing)
    let s := gone.foldl (fun s r => emissionsLeft q.emit 1 (countGone landing r s)) s
    match stay with
    | [] => finish s
    | r :: _ =>
      if pinnedKind q.pkt then
        finish (routeOrDrop landing { r.pkt with hdr := { r.pkt.hdr with rte := activeBank s } } none true none s)
      else finish (pushVoq landing q.pkt stay none true q.emit s)

/-! ### The residue timer (R221, R222) -/

/-- A replica that the residue timer discards is counted under its destination hawser, at that hawser's home landing (counter 10 of Table
14.8); one for a crossing at its own landing. -/
def countResidue (l : Nat) (r : Replica) (s : State) : State :=
  match r.dest with
  | .hawser h => countLanding (homeLanding h) 10 s
  | .crossing _ _ _ | .slip _ => countLanding l 10 s

/-- MCAST_RESIDUE: in the tick after the timer has run out, so that a replica that starts in that tick is sent, those that have not
started are discarded and counted, and count as having left. -/
def execMcastResidue (landing entry : Nat) (s : State) : Result :=
  match (getLanding s landing).voq.find? (fun q => q.id == entry) with
  | none => finish s
  | some q =>
    match q.residueAt with
    | none => finish s
    | some t =>
      if !tideReached (t + 1) (now s) then finish s
      else
        let n := q.reps.length
        let hs := q.reps.filterMap (fun r => match r.dest with
          | .hawser h => some h
          | .crossing _ _ _ | .slip _ => none)
        let f := fresh 9 s
        let h := (hs.min?).getD f.1.toNat
        let s := if hs.isEmpty then f.2 else s
        let ctx := (q.emit.map (fun e => e.rctx)).getD (longHdr q.pkt).ctx
        let chunk := (longHdr q.pkt).chunk
        let s := modLanding landing (fun x => { x with voq := x.voq.filter (fun k => k.id != entry) }) s
        let s := q.reps.foldl (fun s r => countResidue landing r s) s
        let s := raiseEvent 0x0050 (some q.pkt.hdr.job)
          (le 1 (pktKind q.pkt) ++ zeros 1 ++ le 2 ctx ++ le 4 chunk ++ le 2 h ++ le 2 n) s
        let s := raiseFault 4 0 h (chunk + 2 ^ 32 * ctx) 0 s
        finish (emissionsLeft q.emit n s)

end Sys2Proof.Machine
end

