-- ==== Sys2Proof/Machine/Scheduling.lean ====
section
/-!
DEFINITION. What a slip sends next: the queues it serves (R218, R219), gates, tolls, credits and ring buffers (R203, R215, R223,
R226 to R231), class service (R224), and the start of a packet (R193, R235, R242, R244).
-/
namespace Sys2Proof.Machine

/-! ### Which queues a slip serves (R218, R219) -/

/-- Slips of a hawser in service on a landing. -/
def slipsOn (s : State) (h l : Nat) : List Nat := (slipsUp s h).filter (fun n => homeLanding n == l)

/-- The landing that holds most of a hawser's slips in service, the lowest of equals. -/
def fullestLanding (s : State) (h : Nat) : Nat :=
  (List.range 8).foldl (fun b l => if (slipsOn s h b).length < (slipsOn s h l).length then l else b) 0

/-- Whether a slip's neighbour is a peer F384, by its accepted IDENT. -/
def peerSlip (p : Slip) : Bool := ((p.ex.accepted.map (fun m => m.role == 0))).getD false

/-- The slips that serve the queue of a landing towards a hawser: those on the landing, else those on the landing with most of them; a
member hawser's queues are served from its home landing. -/
def serversOf (s : State) (l h : Nat) (peer : Bool) : List Nat :=
  let l := if peer then l else homeLanding h
  if (slipsOn s h l).isEmpty then slipsOn s h (fullestLanding s h) else slipsOn s h l

/-- Whether a slip serves a replica in a landing's queues: one for its hawser where it serves that queue, or a tide message of its own. -/
def serves (s : State) (slip l : Nat) (r : Replica) : Bool :=
  match r.dest with
  | .hawser h => h == hawserOf s slip && (serversOf s l h (peerSlip (getSlip s slip))).contains slip
  | .slip n => n == slip
  | .crossing _ _ _ => false

/-- The head of a class's queue of a landing that a slip serves, with its replica. -/
def queueHead (s : State) (slip l cls : Nat) : Option (Queued × Replica) :=
  (getLanding s l).voq.findSome? (fun q =>
    if q.pkt.hdr.cls = cls then (q.reps.find? (serves s slip l)).map (fun r => (q, r)) else none)

/-- The packet a slip would take in a class: the first queue that holds one, round-robin over landings after the last served, of the
landings that are awake. -/
def classHead (s : State) (slip cls : Nat) : Option (Nat × Queued × Replica) :=
  let start := tabGet (getSlip s slip).rr cls 7 + 1
  ((List.range 8).map (fun i => (start + i) % 8)).findSome? (fun l =>
    if landingAwake s l then (queueHead s slip l cls).map (fun x => (l, x)) else none)

/-! ### Eligibility (R223) -/

/-- The gates of a slip at a tide count: of the pending table once its BASE is reached, else of the one in force (R229, R230). -/
def gatesAt (p : Slip) (t : Tide) : BitVec 8 :=
  let table := match p.pendTable with
    | some x => if tideReached x.base t then some x else p.table
    | none => p.table
  match table with
  | none => 0xFF
  | some x =>
    let ct := (x.entries.map Prod.snd).sum
    let find := x.entries.foldl (fun (acc : Nat × Option (BitVec 8)) e =>
      match acc.2 with
      | some g => (acc.1, some g)
      | none => if acc.1 < e.2 then (acc.1, some e.1) else (acc.1 - e.2, none)) (tideSince x.base t % max 1 ct, none)
    find.2.getD 0xFF

/-- Tide ticks that the transmission of u units touches: u x 21.25 / 9 ns (R223, R231). -/
def sendTicks (u : Nat) : Nat := ceilDiv (u * 2125) 900

/-- The tide count that gates follow: a step of this tick counts for them from the next (R231). -/
def gateTide (s : State) : Tide := now s - s.tide.stepped

/-- Whether a class's gate stays open until a packet's last unit. -/
def gateOpen (p : Slip) (cls u : Nat) (t : Tide) : Bool :=
  (List.range (sendTicks u)).all (fun i => (gatesAt p (t + BitVec.ofNat 64 i)).getLsbD cls)

/-- Whether a class's toll, if enabled, holds a packet's tokens (R228). -/
def tollPays (p : Slip) (cls u : Nat) : Bool :=
  let t := tabGet p.tolls cls Toll.reset
  cls == 0 || !t.enable || decide (u * 64000 ≤ t.tokens)

/-- Free ring buffers of a class at a hawser's receiver, as the credits show them (R215). -/
def ringBuffers (s : State) (h cls : Nat) : Nat :=
  ((slipsUp s h).map (fun n =>
    let p := getSlip s n
    let d := (tabGet p.ltx.limit cls 0 - tabGet p.ltx.consumed cls 0).toNat
    if d < 2 ^ 23 then d / 65 else 0)).sum

/-- R203 on a ring hawser: two free ring buffers to enter its ring, one to continue. Class 0 has no such allocation (log entry 30). -/
def ringAllows (s : State) (h : Nat) (p : Packet) (via : Option Nat) : Bool :=
  let k := getBank s p.hdr.rte
  let c := p.hdr.cls
  match axisOf k h with
  | none => true
  | some a =>
    let continues := (via.bind (fun n => axisOf k (hawserOf s n))) == some a
    c == 0 || decide ((if continues then 1 else 2) ≤ ringBuffers s h c)

/-- Whether a slip may start a packet that arrived here on a slip, or none: gate, toll, credits and ring buffers (R223). -/
def mayStart (s : State) (slip : Nat) (pkt : Packet) (via : Option Nat) : Bool :=
  let p := getSlip s slip
  let c := pkt.hdr.cls
  let u := pktUnits pkt
  gateOpen p c u (gateTide s) && tollPays p c u && creditCovers p c u && (!peerSlip p || ringAllows s (hawserOf s slip) pkt via)

/-- Whether the LANDING that follows a replica has room in the origin region of its landing (R209, R214). -/
def followFits (s : State) (l : Nat) (r : Replica) : Bool :=
  r.follow.all (fun f => decide (originUnits s l f.hdr.cls + pktUnits f ≤ originLimit (getLanding s l).buf f.hdr.cls))

/-- Whether the packet a slip would take in a class is eligible. -/
def eligible (s : State) (slip cls : Nat) : Bool :=
  match classHead s slip cls with
  | none => false
  | some (l, q, r) => mayStart s slip r.pkt q.chargedSlip && followFits s l r

/-! ### Class service (R224) -/

/-- QUANTUM of a class, 130 by default (R225). -/
def quantumOf (p : Slip) (cls : Nat) : Nat := tabGet p.quantum cls 130

/-- The class a slip sends from, and the slip with its service state. -/
def pickClass (s : State) (slip : Nat) : Option Nat × State :=
  if eligible s slip 0 then (some 0, s)
  else if eligible s slip 1 then (some 1, s)
  else
    let p := getSlip s slip
    let head (c : Nat) : Option (Nat × Bool) := (classHead s slip c).map (fun x => (pktUnits x.2.2.pkt, eligible s slip c))
    let x := pickWeighted (quantumOf p) head p.cur p.granted p.deficit
    (x.picked, modSlip slip (fun p => { p with cur := x.cur, granted := x.granted, deficit := x.deficit }) s)

/-! ### The start of a packet (R235, R239, R242) -/

/-- Frames a packet takes, nine units each. -/
def framesFor (p : Packet) : Nat := ceilDiv (pktUnits p) 9

/-- A packet's units laid into DATA frames of its own (log entry 29): START, then CONT; IDLE units fill the last frame. -/
def sendPacketFrames (slip : Nat) (q : Seq) (p : Packet) (via : Option Nat) (s : State) : State :=
  let us := packetUnits p
  (chunksOf (us.length + 1) 9 us).zipIdx.foldl (fun s f =>
    let map := (List.range 9).map (fun i => if f.1.length ≤ i then 0 else if f.2 = 0 && i = 0 then 1 else 2)
    sendFrame slip 0 map f.1 (if f.2 = 0 then [q] else []) [{ seq := q, pkt := p, via := via }] s) s

/-- Credits consumed, toll paid and packet counted as it starts on a slip (R226, R239, Table 14.8). -/
def payStart (slip cls u : Nat) (s : State) : State :=
  let s := modSlip slip (fun p =>
    let t := tabGet p.tolls cls Toll.reset
    { p with ltx := { p.ltx with consumed := tabPut p.ltx.consumed cls (tabGet p.ltx.consumed cls 0 + BitVec.ofNat 24 u) },
             tolls := if cls != 0 && t.enable then tabPut p.tolls cls { t with tokens := t.tokens - u * 64000 } else p.tolls }) s
  countSlip slip 3 u (countSlip slip 2 1 s)

/-- The first packet of a hawser's failover that a slip may start again (R244). -/
def failoverHead (s : State) (slip : Nat) : Option SentPkt :=
  (getHawser s (hawserOf s slip)).failover.find? (fun f => mayStart s slip f.pkt f.via)

/-- A packet of the failover starts again with its HSEQ. -/
def startFailover (slip : Nat) (f : SentPkt) (s : State) : State :=
  sendPacketFrames slip f.seq f.pkt f.via (payStart slip f.pkt.hdr.cls (pktUnits f.pkt)
    (modHawser (hawserOf s slip) (fun x => { x with failover := x.failover.filter (fun g => g.seq != f.seq) }) s))

/-- A LANDING that follows its write stands directly behind it (R185), as a packet the F384 originates (R209). -/
def pushFollow (l h : Nat) (f : Option Packet) (s : State) : State :=
  match f with
  | none => s
  | some p =>
    modLanding l (fun x =>
      { x with voq := { id := x.nextId, pkt := p, reps := [{ dest := .hawser h, pkt := p, follow := none }], multicast := false,
                        residueAt := none, chargedSlip := none, originated := true, emit := none, named := none } :: x.voq,
               nextId := x.nextId + 1 }) s

/-- A tide message as it starts: SYNC_REQ takes its T1 and SYNC_RESP its T3 at that moment (R141, Table 05.4). -/
def stampTide (p : Packet) (s : State) : Packet × State :=
  match p.body with
  | .tide m =>
    if m.kind = 1 then
      ({ p with body := .tide { m with t1 := now s } }, { s with tide := { s.tide with sentT1 := some (m.seq, now s) } })
    else if m.kind = 2 then ({ p with body := .tide { m with t3 := now s } }, s)
    else (p, s)
  | _ => (p, s)

/-- The packet that leaves: a hop more towards a peer, but for a tide message, which is not routed (R191, R193). -/
def leaving (s : State) (slip : Nat) (r : Replica) : Packet :=
  match r.dest with
  | .slip _ => r.pkt
  | _ => if peerSlip (getSlip s slip) then { r.pkt with hdr := { r.pkt.hdr with hops := r.pkt.hdr.hops + 1 } } else r.pkt

/-- A replica starts on a slip: it leaves its queue, takes the hawser's next HSEQ, counts a hop towards a peer, and counts for its
emission. -/
def startReplica (slip l cls : Nat) (q : Queued) (r : Replica) (s : State) : State :=
  let h := hawserOf s slip
  let x := stampTide (leaving s slip r) s
  let n := (getHawser s h).txSeq
  let s := pushFollow l h r.follow (takeReplica l q r x.2)
  let s := modHawser h (fun x => { x with txSeq := x.txSeq + 1 }) s
  let s := modSlip slip (fun p => { p with rr := tabPut p.rr cls l }) s
  emissionsLeft q.emit 1 (sendPacketFrames slip n x.1 q.chargedSlip (payStart slip cls (pktUnits x.1) s))

/-! ### Packet boundaries (R223, R224, R235, R278) -/

/-- Whether a slip has a packet it would send: one queued that it serves, or one to start again. -/
def backlogged (s : State) (slip : Nat) : Bool :=
  !(getHawser s (hawserOf s slip)).failover.isEmpty || (List.range 8).any (fun c => (classHead s slip c).isSome)

/-- The least budget of a set of jobs; the device budget where none has one (R320). -/
def minBudget (s : State) (jobs : List Nat) : Nat :=
  ((jobs.filterMap (fun j => (tabGet? s.jobs j).bind (fun x => x.budget))).min?).getD s.pwr.deviceBudget

/-- A hawser's effective budget (R320). -/
def hawserBudgetOf (s : State) (h : Nat) : Nat :=
  (tabGet? s.pwr.hawserBudget h).getD (minBudget s ((hawserJobs s h).map Prod.fst))

/-- Wake time of DOZE, NAP and SLEEP, ns (Table 13.4). -/
def laneWakeTime (st : Nat) : Nat :=
  match st with
  | 1 => 150
  | 2 => 12000
  | _ => 900000

/-- Dwell of DOZE, NAP and SLEEP, ns (Table 13.4). -/
def laneDwell (st : Nat) : Nat :=
  match st with
  | 1 => 600
  | 2 => 48000
  | _ => 3600000

/-- Whether a slip has work: packets or frames of its own, or a packet in progress from the far end. -/
def laneBusy (s : State) (slip : Nat) : Bool :=
  let p := getSlip s slip
  backlogged s slip || !p.ltx.held.isEmpty || !p.lrx.partialUnits.isEmpty

/-- The deepest lane power state a slip asks for now: its wake time fits the budget, its dwell has passed, and no slip with tide messages
goes below DOZE (R278, R321). 0: none. -/
def laneRequest (s : State) (slip : Nat) : Nat :=
  let p := getSlip s slip
  let idle := tideSince p.lastWork (now s)
  let b := hawserBudgetOf s (hawserOf s slip)
  let tide := (peerSlips s).contains slip
  if p.state != .inService || p.waking || laneBusy s slip then 0
  else ([3, 2, 1].find? (fun st => laneWakeTime st ≤ b && laneDwell st ≤ idle && (st == 1 || !tide))).getD 0

/-- Nothing starts at this boundary: lanes that carry data send an IDLE frame, whose codeword asks for the slip's lane power state (R235,
R238, R278). -/
def sendNothing (slip : Nat) (s : State) : State :=
  let p := getSlip s slip
  if p.tx.data && (p.power ≤ 1 || p.waking) then sendIdle slip (setPowerReq slip (laneRequest s slip) s) else s

/-- Whether a slip may start DATA frames: in service and ACTIVE, its landing awake (R238, R277). -/
def maySend (s : State) (slip : Nat) : Bool :=
  let p := getSlip s slip
  p.state == .inService && p.power == 0 && landingAwake s (homeLanding slip)

/-- Whether the frames of a packet fit beside those held (R235, R238). -/
def framesFit (s : State) (slip : Nat) (p : Packet) : Bool := decide ((getSlip s slip).ltx.held.length + framesFor p ≤ 256)

/-- PACKET_START (R224): a failed-over packet before any new one. Where the packet's frames find no room, it is no packet boundary. -/
def execPacketStart (slip : Nat) (s : State) : Result :=
  if !maySend s slip then finish (sendNothing slip s)
  else if !(getHawser s (hawserOf s slip)).failover.isEmpty then
    match failoverHead s slip with
    | some f => finish (if framesFit s slip f.pkt then startFailover slip f s else sendNothing slip s)
    | none => finish (sendNothing slip s)
  else
    let c := pickClass s slip
    match c.1.bind (fun k => (classHead s slip k).map (fun x => (k, x))) with
    | some (k, l, q, r) => finish (if framesFit s slip r.pkt then startReplica slip l k q r c.2 else sendNothing slip s)
    | none => finish (sendNothing slip c.2)

end Sys2Proof.Machine
end

