-- ==== Sys2Proof/Machine/RouteCommands.lean ====
section
/-!
DEFINITION. The Crossing commands (Table 12.7) and the Route commands (Table 12.8), with the switch of routing banks (R196 to
R200) and the events of its times.
-/
namespace Sys2Proof.Machine

/-! ### Crossings (R171, R172) -/

/-- The crossing contexts of four that are free, as the first number of each four. -/
def freeFour (s : State) : Option Nat :=
  ((List.range 4096).map (4 * ·)).find? (fun f => s.xings.all (fun x => x.first != f))

/-- A command's work for a landing (R322). -/
def touchLanding (l : Nat) (s : State) : State := modLanding l (fun y => y) s

/-- The crossing a command names: +0 LANDING, +1 PEER_LANDING, +2 PEER. -/
def namedXing (x : Exec) (s : State) : Option Crossing := findXing s (param x 0 1) (param x 2 2) (param x 1 1)

/-- The row of CROSSING_OPEN in its group table. -/
def rowCrossingOpen (x : Exec) (s : State) : Row :=
  let l := param x 0 1
  let pl := param x 1 1
  let peer := param x 2 2
  let rto := param x 4 4
  let win := param x 10 2
  { Row.plain 0x0300 (onlyFields x.cmd.params [(0, 9), (10, 2)]) with
    own := fails (7 < l || 7 < pl || (rto != 0 && (rto < 5000 || 10000000 < rto)) ||
        (win != 0 && (win < 64 || 8192 < win))) stRange ++
      fails (peer == 0xFFFF || s.net.ownAddr == some peer) stBadParam ++
      fails (findXing s l peer pl).isSome stState ++ fails (freeFour s).isNone stNoResource }

/-- CROSSING_OPEN. The lowest free four contexts are taken (log entry 18). -/
def execCrossingOpen (x : Exec) (s : State) : Result :=
  let l := param x 0 1
  let pl := param x 1 1
  let peer := param x 2 2
  let rto := param x 4 4
  let retry := param x 8 1
  let win := param x 10 2
  runCmd x s (rowCrossingOpen x)
    (fun s =>
      let first := (freeFour s).getD 0
      let c : Crossing :=
        { landing := l, peer := peer, peerLanding := pl, first := first, rto := if rto = 0 then 50000 else rto,
          retryLimit := if retry = 0 then 32 else retry, window := if win = 0 then 4096 else win, state := .syncing,
          retransmits := 0, lanes := List.replicate 4 XLane.fresh, downLane := 0 }
      { Effect.ok (touchLanding l (putInc l peer pl (getInc s l peer pl + 1) { s with xings := s.xings ++ [c] })) with r0 := first })

/-- The row of CROSSING_CLOSE in its group table. -/
def rowCrossingClose (x : Exec) (s : State) : Row :=
  { Row.plain 0x0301 (onlyFields x.cmd.params [(0, 4)]) with own := fails (namedXing x s).isNone stState }

/-- CROSSING_CLOSE: copies, held packets and waiting packets go as in R178, without CROSSING_DOWN. -/
def execCrossingClose (x : Exec) (s : State) : Result :=
  runCmd x s (rowCrossingClose x)
    (fun s =>
      match namedXing x s with
      | none => Effect.ok s
      | some c =>
        let s := refuseWaiting c (discardXing c s)
        Effect.ok (touchLanding c.landing { s with xings := s.xings.filter (fun y => y.first != c.first) }))

/-- The row of CROSSING_RESET in its group table. -/
def rowCrossingReset (x : Exec) (s : State) : Row :=
  { Row.plain 0x0302 (onlyFields x.cmd.params [(0, 4)]) with own := fails (namedXing x s).isNone stState }

/-- CROSSING_RESET (R172). -/
def execCrossingReset (x : Exec) (s : State) : Result :=
  runCmd x s (rowCrossingReset x)
    (fun s =>
      match namedXing x s with
      | none => Effect.ok s
      | some c => Effect.ok (touchLanding c.landing (xingReset c (getInc s c.landing c.peer c.peerLanding + 1) 0 s)))

def xstateCode : XState → Nat
  | .syncing => 0
  | .opened => 1
  | .down => 2

/-- The row of CROSSING_QUERY in its group table. -/
def rowCrossingQuery (x : Exec) (s : State) : Row :=
  { Row.plain 0x0303 (onlyFields x.cmd.params [(0, 4)]) with
    returns := true, need := 64, own := fails (namedXing x s).isNone stState }

/-- CROSSING_QUERY. -/
def execCrossingQuery (x : Exec) (s : State) : Result :=
  runCmd x s (rowCrossingQuery x)
    (fun s =>
      match namedXing x s with
      | none => Effect.ok s
      | some c =>
        let lane (i : Nat) : List Byte :=
          let l := getLane c i
          le 4 l.nextSeq.toNat ++ le 4 l.cum.toNat ++ le 2 l.copies.length ++ le 2 l.held.length
        { Effect.ok s with
          data := fit 64 (le 2 c.peer ++ le 1 c.landing ++ le 1 c.peerLanding ++ le 1 (xstateCode c.state) ++
            le 1 (getInc s c.landing c.peer c.peerLanding).toNat ++ zeros 2 ++ ((List.range 4).map lane).flatten ++
            le 4 (min c.retransmits 0xFFFFFFFF)) })

/-! ### Endpoints, routes and banks -/

/-- Entries of a table from a first index. -/
def putRun {α : Type} (t : Tab α) (first : Nat) (vs : List α) : Tab α :=
  let n := vs.length
  t.filter (fun p => p.1 < first) ++ ((List.range n).zip vs).map (fun p => (first + p.1, p.2)) ++
    t.filter (fun p => first + n ≤ p.1)

/-- Whether an endpoint entry's fields are as Table 06.1 fixes them: RSVD 0, HAWSER at most 383; with SELF 1, OWNER the address itself and
HAWSER 0 (R9). -/
def endpointOk (addr : Nat) (w : BitVec 32) : Bool :=
  epHawser w ≤ 383 && bits w.toNat 29 25 == 0 && (!epSelf w || (epOwner w == addr && epHawser w == 0))

/-- The row of ENDPOINT_SET in its group table. -/
def rowEndpointSet (x : Exec) (_s : State) : Row :=
  let first := param x 0 4
  let n := param x 4 4
  let ws := rankWords (desc x) (min n 65536)
  { Row.plain 0x0400 (onlyFields x.cmd.params [(0, 8)]) with
    descLen := 4 * n,
    own := fails (n == 0 || 65536 < n || 65536 < first + n) stRange ++
      fails (ws.zipIdx.any (fun w => !endpointOk (first + w.2) w.1)) stBadParam }

/-- ENDPOINT_SET (R158). -/
def execEndpointSet (x : Exec) (s : State) : Result :=
  let first := param x 0 4
  let n := param x 4 4
  let ws := rankWords (desc x) (min n 65536)
  runCmd x s (rowEndpointSet x)
    (fun s => Effect.ok { s with net := { s.net with endpoints := putRun s.net.endpoints first ws } })

/-- A candidate word (Table 07.1). -/
def parseCandidate (w : Nat) : Candidate16 := { hawser := bits w 8 0, weight := bits w 12 9, fallback := bit w 13 }
def candidateWord (c : Candidate16) : Nat := c.hawser % 512 + 512 * (c.weight % 16) + 8192 * b2n c.fallback

/-- The candidate words of route entry i of a descriptor, as numbers. -/
def routeWords (d : List Byte) (i : Nat) : List Nat := (List.range 16).map (fun k => field d (32 * i + 2 * k) 2)

def setBank (b : Nat) (f : Bank → Bank) (s : State) : State :=
  if b = 0 then { s with net := { s.net with bank0 := f s.net.bank0 } }
  else { s with net := { s.net with bank1 := f s.net.bank1 } }

/-- The bank that is IDLE, if any. -/
def idleBank (s : State) : Option Nat :=
  if s.net.bank0.state = .idle then some 0 else if s.net.bank1.state = .idle then some 1 else none

/-- The bank that is DRAINING, if any. -/
def drainingBank (s : State) : Option Nat :=
  if s.net.bank0.state = .draining then some 0 else if s.net.bank1.state = .draining then some 1 else none

/-- The row of ROUTE_SET in its group table. With no bank IDLE the other is PENDING, STATE, or DRAINING, BUSY (Table 07.3, log entry
59). -/
def rowRouteSet (x : Exec) (s : State) : Row :=
  let first := param x 0 4
  let n := param x 4 4
  let attrs := bit (param x 8 1) 0
  let d := desc x
  let words := (List.range (min n 65536)).map (routeWords d)
  let atBytes := bytesAt d (32 * n) 384
  { Row.plain 0x0401 (onlyFields x.cmd.params [(0, 9)] && param x 8 1 < 2) with
    descLen := 32 * n + (if attrs then 384 else 0),
    own := fails (65536 < n || 65536 < first + n) stRange ++
      fails (words.any (fun ws => ws.any (fun w => bits w 15 14 != 0 || 383 < bits w 8 0) ||
          hasRepeat ((ws.filter (fun w => bits w 12 9 != 0)).map (fun w => bits w 8 0))) ||
        (attrs && atBytes.any (fun b => 8 ≤ b.toNat))) stBadParam ++
      fails ((idleBank s).isNone && (drainingBank s).isNone) stState ++ fails (drainingBank s).isSome stBusy }

/-- ROUTE_SET (R197). -/
def execRouteSet (x : Exec) (s : State) : Result :=
  let first := param x 0 4
  let n := param x 4 4
  let attrs := bit (param x 8 1) 0
  let d := desc x
  let words := (List.range (min n 65536)).map (routeWords d)
  let atBytes := bytesAt d (32 * n) 384
  runCmd x s (rowRouteSet x)
    (fun s => Effect.ok (match idleBank s with
      | none => s
      | some b => setBank b (fun k =>
          { k with routes := putRun k.routes first (words.map (fun ws => ws.map parseCandidate)),
                   attrs := if attrs then (List.range 384).zip atBytes else k.attrs }) s))

/-- Whether a slip's neighbour is a peer; one not known counts as one. -/
def peerBehind (s : State) (slip : Nat) : Bool := ((getSlip s slip).ex.accepted.map (fun m => m.role == 0)).getD true

/-- Whether a packet's RTE names a bank: one bound for another F384, or one that came from a peer (R199). -/
def namesBank (s : State) (b : Nat) (via : Option Nat) (p : Packet) : Bool :=
  p.hdr.rte == b && (p.hdr.egress != ownAddr s || (via.map (peerBehind s)).getD false)

/-- Packets held in the landings that wait to be routed or sent, whose RTE names a bank (R200): handed up, waiting in hawser order, queued
for a hawser, or to be started again. -/
def bankInFlight (s : State) (b : Nat) : Nat :=
  let queued (q : Queued) : Bool :=
    namesBank s b q.chargedSlip q.pkt && q.reps.any (fun r => match r.dest with
      | .hawser _ => true
      | .crossing _ _ _ | .slip _ => false)
  let fromPeers (slip : Nat) (p : Packet) : Bool := peerBehind s slip && namesBank s b (some slip) p
  (s.lands.map (fun l => (l.2.voq.filter queued).length + (l.2.rx.filter (fun a => fromPeers a.slip a.pkt)).length)).sum +
    (s.hawsers.map (fun h => (h.2.waiting.filter (fun w => fromPeers w.2.1 w.2.2)).length +
      (h.2.failover.filter (fun f => namesBank s b f.via f.pkt)).length)).sum

/-- The switch of R198: the PENDING bank becomes ACTIVE, the former one DRAINING. -/
def switchBanks (s : State) : State :=
  let t := now s
  let step (other : Nat) (k : Bank) : Bank :=
    match k.state with
    | .pending => { k with state := .active }
    | .active =>
      { k with state := .draining, drainStart := t, zeroSince := if bankInFlight s (1 - other) = 0 then some t else none }
    | _ => k
  { s with net := { s.net with bank0 := step 1 s.net.bank0, bank1 := step 0 s.net.bank1, switchAt := none,
                               serviceChanged := true } }

/-- The IDLE bank becomes PENDING for tide count t. -/
def pendBank (t : Option Tide) (cmd : Option Running) (s : State) : State :=
  match idleBank s with
  | none => s
  | some b =>
    let s := setBank b (fun k => { k with state := .pending }) s
    { s with net := { s.net with switchAt := t, switchCmd := cmd } }

/-- The row of ROUTE_SWITCH in its group table. -/
def rowRouteSwitch (x : Exec) (s : State) : Row :=
  let t := param x 8 8
  let busy (k : Bank) : Bool := k.state == .draining || k.state == .pending
  let d := (BitVec.ofNat 64 t - now s).toNat
  { Row.plain 0x0402 (onlyFields x.cmd.params [(8, 8)]) with
    own := fails (t != 0 && (d < 10000 || 10000000000 < d)) stRange ++ fails (t != 0 && !lockedOrMaster s) stState ++
      fails (busy s.net.bank0 || busy s.net.bank1) stBusy }

/-- ROUTE_SWITCH (R198): with T = 0 the switch is made in this tick; otherwise the command completes at T (R311). -/
def execRouteSwitch (x : Exec) (s : State) : Result :=
  let t := param x 8 8
  runLater x s (rowRouteSwitch x)
    (fun r s =>
      if t = 0 then complete r stOk 0 0 [] (switchBanks (pendBank none none s))
      else pendBank (some (BitVec.ofNat 64 t)) (some r) s)

/-- ROUTE_SWITCH_TIME (R198): at tide count T, before any packet of that tick is routed, the switch is made and the command completes. -/
def execRouteSwitchTime (s : State) : Result :=
  if switchDue s then
    let cmd := s.net.switchCmd
    let s := switchBanks { s with net := { s.net with switchCmd := none } }
    finish (match cmd with
      | some r => complete r stOk 0 0 [] s
      | none => s)
  else finish s

/-- BANK_RETIRE (R200): after 50 us with nothing in flight, or 10 ms after the bank became DRAINING. -/
def execBankRetire (s : State) : Result :=
  match drainingBank s with
  | none => finish s
  | some b =>
    let k := getBank s b
    let left := bankInFlight s b
    let empty := left == 0 && ((k.zeroSince.map (fun z => decide (50000 ≤ tideSince z (now s)))).getD false)
    let limit := decide (10000000 ≤ tideSince k.drainStart (now s))
    if empty || limit then
      let s := setBank b (fun k => { k with state := .idle, zeroSince := none }) s
      finish (raiseEvent 0x0040 none (le 1 b ++ le 1 (b2n (!empty)) ++ zeros 2 ++ le 4 left) s)
    else finish s

def bankCode : BankState → Nat
  | .idle => 0
  | .pending => 1
  | .active => 2
  | .draining => 3

/-- The row of ROUTE_QUERY in its group table. -/
def rowRouteQuery (x : Exec) (_s : State) : Row :=
  let b := param x 2 1
  { Row.plain 0x0403 (onlyFields x.cmd.params [(0, 3)]) with returns := true, need := 40, own := fails (1 < b) stRange }

/-- ROUTE_QUERY. -/
def execRouteQuery (x : Exec) (s : State) : Result :=
  let a := param x 0 2
  let b := param x 2 1
  runCmd x s (rowRouteQuery x)
    (fun s =>
      let entry := fit 32 (((tabGet (getBank s b).routes a []).map (fun c => le 2 (candidateWord c))).flatten)
      let reach := hasRoute (getBank s (activeBank s)) a && tabGet s.net.reach a true
      let fly := ((drainingBank s).map (bankInFlight s)).getD 0
      { Effect.ok s with
        data := entry ++ le 1 (bankCode s.net.bank0.state) ++ le 1 (bankCode s.net.bank1.state) ++ le 1 (b2n reach) ++
          zeros 1 ++ le 4 fly })

/-- The row of FABRIC_ADDR_SET in its group table. -/
def rowFabricAddrSet (x : Exec) (s : State) : Row :=
  let a := param x 0 2
  { Row.plain 0x0404 (onlyFields x.cmd.params [(0, 2)]) with
    own := fails (a == 0xFFFF) stBadParam ++ fails (!s.xings.isEmpty) stState }

/-- FABRIC_ADDR_SET: the first releases the slips in the next tick (R382). -/
def execFabricAddrSet (x : Exec) (s : State) : Result :=
  let a := param x 0 2
  runCmd x s (rowFabricAddrSet x)
    (fun s =>
      let s := if s.net.ownAddr.isNone then defer .releaseSlips s else s
      Effect.ok { s with net := { s.net with ownAddr := some a } })

end Sys2Proof.Machine
end

