-- ==== Sys2Proof/Machine/SwitchCommands.lean ====
section
/-!
DEFINITION. The Switch, link and lane commands (Table 12.9).
-/
namespace Sys2Proof.Machine

/-! ### Buffers and service (R210, R225, R227, R230, Table 08.6) -/

/-- The limits of a `BUFFER_SET` descriptor (Table 08.3). -/
def parseBuffers (d : List Byte) : Buffers :=
  { copyLimit := field d 8 4, reseqLimit := field d 12 4,
    origin := (List.range 7).map (fun i => (i + 1, field d (16 + 2 * i) 2)),
    limits := ((List.range 48).map (fun j => (List.range 7).map (fun i => (j * 8 + i + 1, field d (34 + 16 * j + 2 * i) 2)))).flatten }

/-- The row of BUFFER_SET in its group table. -/
def rowBufferSet (x : Exec) (_s : State) : Row :=
  let d := desc x
  let b := parseBuffers d
  let big (v : Nat) : Bool := v < 65 || 260096 < v
  { Row.plain 0x0500 (onlyFields x.cmd.params []) with
    descLen := 800,
    own := fails (7 < field d 0 1 || big b.copyLimit || big b.reseqLimit || b.origin.any (fun p => p.2 < 65) ||
        b.limits.any (fun p => 1 ≤ p.2 && p.2 < 65)) stRange ++
      fails (!zeroAt d 1 7 || !zeroAt d 30 2 || (List.range 48).any (fun j => !zeroAt d (32 + 16 * j) 2)) stBadParam ++
      fails (260096 < b.copyLimit + b.reseqLimit + (b.origin.map Prod.snd).sum + (b.limits.map Prod.snd).sum) stNoResource }

/-- BUFFER_SET (R210, R214). -/
def execBufferSet (x : Exec) (s : State) : Result :=
  let d := desc x
  let b := parseBuffers d
  runCmd x s (rowBufferSet x)
    (fun s => Effect.ok (defer (.buffers (field d 0 1) b) s))

/-- The row of SERVICE_SET in its group table. -/
def rowServiceSet (x : Exec) (_s : State) : Row :=
  let slip := param x 0 2
  let q := (List.range 6).map (fun i => (i + 2, param x (4 + 2 * i) 2))
  { Row.plain 0x0501 (onlyFields x.cmd.params [(0, 2), (4, 12)]) with
    own := fails (383 < slip || q.any (fun p => p.2 != 0 && p.2 < 65)) stRange }

/-- SERVICE_SET (R225). -/
def execServiceSet (x : Exec) (s : State) : Result :=
  let slip := param x 0 2
  let q := (List.range 6).map (fun i => (i + 2, param x (4 + 2 * i) 2))
  runCmd x s (rowServiceSet x)
    (fun s => Effect.ok (modSlip slip (fun p => { p with quantum := q.map (fun v => (v.1, if v.2 = 0 then 130 else v.2)) }) s))

/-- The row of TOLL_SET in its group table. -/
def rowTollSet (x : Exec) (_s : State) : Row :=
  let slip := param x 0 2
  let c := param x 2 1
  let fl := param x 3 1
  let rate := param x 4 4
  let burst := param x 8 4
  { Row.plain 0x0502 (onlyFields x.cmd.params [(0, 12)] && fl < 4) with
    own := fails (383 < slip || c < 1 || 7 < c || rate < 1 || 27100 < rate || burst < 4160 || 16777216 < burst) stRange }

/-- TOLL_SET (R226, R227). -/
def execTollSet (x : Exec) (s : State) : Result :=
  let slip := param x 0 2
  let c := param x 2 1
  let fl := param x 3 1
  let rate := param x 4 4
  let burst := param x 8 4
  runCmd x s (rowTollSet x)
    (fun s => Effect.ok (defer (.toll slip c { enable := bit fl 0, rate := rate, burst := burst,
                                               tokens := if bit fl 1 then burst * 1000 else 0 }) s))

/-- The row of SWITCH_SET in its group table. -/
def rowSwitchSet (x : Exec) (_s : State) : Row :=
  let d := desc x
  let res := field d 0 4
  let cong := (List.range 7).map (fun i => (i + 1, field d (8 + 4 * i) 4))
  { Row.plain 0x0503 (onlyFields x.cmd.params []) with
    descLen := 40,
    own := fails ((res != 0 && (res < 10 || 100000 < res)) || cong.any (fun p => p.2 != 0 && (p.2 < 65 || 262144 < p.2))) stRange ++
      fails (!zeroAt d 4 4 || !zeroAt d 36 4) stBadParam }

/-- SWITCH_SET (Table 08.6). -/
def execSwitchSet (x : Exec) (s : State) : Result :=
  let d := desc x
  let res := field d 0 4
  let cong := (List.range 7).map (fun i => (i + 1, field d (8 + 4 * i) 4))
  runCmd x s (rowSwitchSet x)
    (fun s => Effect.ok (defer (.switch { residue := if res = 0 then 1000 else res,
                                          cong := cong.map (fun p => (p.1, if p.2 = 0 then 8192 else p.2)) }) s))

/-- Whether a tide count lies at least d ticks, and less than 2^63, after now (R352). -/
def aheadBy (s : State) (t d : Nat) : Bool :=
  let k := (BitVec.ofNat 64 t - now s).toNat
  decide (d ≤ k) && decide (k < 2 ^ 63)

/-- The row of TIDE_TABLE_SET in its group table. -/
def rowTideTableSet (x : Exec) (s : State) : Row :=
  let slip := param x 0 2
  let n := param x 2 1
  let base := param x 8 8
  let d := desc x
  let es := (List.range n).map (fun i => (field d (8 * i) 4, field d (8 * i + 4) 4))
  { Row.plain 0x0504 (onlyFields x.cmd.params [(0, 3), (8, 8)]) with
    descLen := 8 * n,
    own := fails (383 < slip || 64 < n || !aheadBy s base 10000 || es.any (fun e => e.2 == 0)) stRange ++
      fails (es.any (fun e => !bit e.1 0 || 256 ≤ e.1)) stBadParam ++ fails (!lockedOrMaster s) stState ++
      fails (getSlip s slip).pendTable.isSome stBusy }

/-- TIDE_TABLE_SET (R230). -/
def execTideTableSet (x : Exec) (s : State) : Result :=
  let slip := param x 0 2
  let n := param x 2 1
  let base := param x 8 8
  let d := desc x
  let es := (List.range n).map (fun i => (field d (8 * i) 4, field d (8 * i + 4) 4))
  runCmd x s (rowTideTableSet x)
    (fun s => Effect.ok (modSlip slip (fun p =>
      { p with pendTable := some { base := BitVec.ofNat 64 base, entries := es.map (fun e => (BitVec.ofNat 8 e.1, e.2)) } }) s))

/-! ### Hawsers and neighbours (R241, R247, R248) -/

/-- Whether a slip is IN_SERVICE or in QUARANTINE (R241). -/
def slipHeld (s : State) (n : Nat) : Bool := (getSlip s n).state == .inService || (getSlip s n).state == .quarantine

/-- The row of HAWSER_SET in its group table. -/
def rowHawserSet (x : Exec) (s : State) : Row :=
  let ns := ((List.range 16).map (fun i => param x (2 * i) 2)).filter (fun n => n != 0xFFFF)
  { Row.plain 0x0505 true with
    own := fails (ns.any (fun n => 383 < n)) stRange ++
      fails (ns.length < 2 || hasRepeat ns || ns.any (fun n => 1 < (getHawser s (hawserOf s n)).slips.length)) stBadParam ++
      fails (ns.any (slipHeld s)) stState }

/-- The latency budgets of hawsers formed or dissolved go, those completed in this tick too (R319). -/
def dropBudgets (ns : List Nat) (s : State) : State :=
  { s with pwr := { s.pwr with hawserBudget := s.pwr.hawserBudget.filter (fun p => !ns.contains p.1) },
           deferred := s.deferred.filter (fun d => match d with
             | .hawserBudget h _ => !ns.contains h
             | _ => true) }

/-- HAWSER_SET (R241): the latency budgets of the hawsers it forms or dissolves go (R319). -/
def execHawserSet (x : Exec) (s : State) : Result :=
  let ns := ((List.range 16).map (fun i => param x (2 * i) 2)).filter (fun n => n != 0xFFFF)
  runCmd x s (rowHawserSet x)
    (fun s =>
      let sorted := sortNat ns
      let h := sorted.headD 0
      let hs := s.hawsers.filter (fun p => !ns.contains p.1)
      let s := { s with hawsers := tabPut hs h { slips := sorted, txSeq := 0, rxSeq := 0, waiting := [], failover := [] } }
      { Effect.ok (recheckNeighbours (dropBudgets ns s)) with r0 := h })

/-- The row of HAWSER_CLEAR in its group table. -/
def rowHawserClear (x : Exec) (s : State) : Row :=
  let h := param x 0 2
  let ns := (getHawser s h).slips
  { Row.plain 0x0506 (onlyFields x.cmd.params [(0, 2)]) with
    own := fails (ns.length < 2) stBadParam ++ fails (ns.any (slipHeld s)) stState }

/-- HAWSER_CLEAR (R241). -/
def execHawserClear (x : Exec) (s : State) : Result :=
  let h := param x 0 2
  runCmd x s (rowHawserClear x)
    (fun s =>
      let ns := (getHawser s h).slips
      Effect.ok (recheckNeighbours (dropBudgets ns { s with hawsers := tabDel s.hawsers h })))

/-- An expected-neighbour entry at an offset (Table 09.6). -/
def parseExpected (d : List Byte) (o : Nat) : Expected :=
  { any := bit (field d (o + 2) 1) 0, checkSlip := bit (field d (o + 2) 1) 1, role := field d (o + 3) 1,
    remoteSlip := field d (o + 4) 2, serial := field d (o + 8) 8 }

/-- The row of NEIGHBOUR_MAP_SET in its group table. DESIGN CHOICE: an expected ROLE is any value; Table 09.6 gives it no range (log entry
15). -/
def rowNeighbourMapSet (x : Exec) (_s : State) : Row :=
  let n := param x 0 2
  let d := desc x
  let is := List.range (min n 384)
  { Row.plain 0x0507 (onlyFields x.cmd.params [(0, 2)]) with
    descLen := 16 * n,
    own := fails (n == 0 || 384 < n || is.any (fun i => 383 < field d (16 * i) 2)) stRange ++
      fails (hasRepeat (is.map (fun i => field d (16 * i) 2)) ||
        is.any (fun i => 4 ≤ field d (16 * i + 2) 1 || !zeroAt d (16 * i + 6) 2)) stBadParam }

/-- NEIGHBOUR_MAP_SET (R247, R248). -/
def execNeighbourMapSet (x : Exec) (s : State) : Result :=
  let n := param x 0 2
  let d := desc x
  let is := List.range (min n 384)
  runCmd x s (rowNeighbourMapSet x)
    (fun s =>
      let t := is.foldl (fun t i => tabPut t (field d (16 * i) 2) (parseExpected d (16 * i))) s.net.expected
      Effect.ok (recheckNeighbours { s with net := { s.net with expected := t } }))

/-- The row of NEIGHBOUR_QUERY in its group table. -/
def rowNeighbourQuery (x : Exec) (_s : State) : Row :=
  let first := param x 0 2
  let n := param x 2 2
  { Row.plain 0x0508 (onlyFields x.cmd.params [(0, 4)]) with
    returns := true, need := 144 * n, own := fails (n == 0 || 384 < n || 384 < first + n) stRange }

/-- NEIGHBOUR_QUERY: the neighbour table of R250. -/
def execNeighbourQuery (x : Exec) (s : State) : Result :=
  let first := param x 0 2
  let n := param x 2 2
  runCmd x s (rowNeighbourQuery x)
    (fun s =>
      let one (slip : Nat) : List Byte :=
        let p := getSlip s slip
        let m := tabGet? s.net.neighbours slip
        fit 16 (le 2 slip ++ le 1 (slipCode p.state) ++ le 1 (b2n m.isSome) ++ le 1 p.ex.lastResult ++ le 1 p.ex.proto) ++
          fit 128 ((m.map identBytes).getD [])
      { Effect.ok s with data := ((List.range n).map (fun i => one (first + i))).flatten })

/-! ### Counters and lanes (R251, R268 to R273) -/

/-- The slips of a counter command's descriptor. -/
def slipList (x : Exec) : List Nat := (List.range (min (param x 2 2) 384)).map (fun i => field (desc x) (2 * i) 2)

/-- The row of a command over a list of slips, `size` bytes each. -/
def slipListRow (x : Exec) (opcode size : Nat) (clear : Bool) : Row :=
  let n := param x 2 2
  { Row.plain opcode (onlyFields x.cmd.params [(0, 1), (2, 2)] && param x 0 1 < (if clear then 2 else 1)) with
    descLen := 2 * n, returns := true, need := size * n,
    own := fails (n == 0 || 384 < n) stRange ++
      fails (hasRepeat (slipList x) || (slipList x).any (fun v => 383 < v)) stBadParam }

/-- The counters of a slip as words, then its SAT word. -/
def counterWords (t : Tab Counter) (n : Nat) : List Byte :=
  ((List.range n).map (fun k => le 4 (tabGet t k zeroCounter).value)).flatten ++
    le 4 (maskOf ((List.range n).filter (fun k => (tabGet t k zeroCounter).sat)))

/-- The row of LINK_COUNTERS_READ in its group table. -/
def rowLinkCountersRead (x : Exec) (_s : State) : Row :=
  slipListRow x 0x0509 64 true

/-- LINK_COUNTERS_READ (R251). -/
def execLinkCountersRead (x : Exec) (s : State) : Result :=
  runCmd x s (rowLinkCountersRead x) (fun s =>
    let d := ((slipList x).map (fun n => fit 64 (counterWords (getSlip s n).linkCnt 14))).flatten
    let s := if bit (param x 0 1) 0 then (slipList x).foldl (fun s n => modSlip n (fun p => { p with linkCnt := [] }) s) s else s
    { Effect.ok s with data := d })

/-- The row of LANE_CONFIG in its group table. -/
def rowLaneConfig (x : Exec) (_s : State) : Row :=
  let slip := param x 0 2
  { Row.plain 0x050A (onlyFields x.cmd.params [(0, 4)] && param x 2 1 < 2) with
    own := fails (383 < slip) stRange ++ fails (3 ≤ param x 3 1) stBadParam }

/-- LANE_CONFIG (R268). -/
def execLaneConfig (x : Exec) (s : State) : Result :=
  let slip := param x 0 2
  let en := bit (param x 2 1) 0
  runCmd x s (rowLaneConfig x)
    (fun s =>
      let was := (getSlip s slip).enable
      let s := modSlip slip (fun p => { p with enable := en, precodeMode := param x 3 1 }) (wakeSlip slip s)
      Effect.ok (if en == was then s
        else if en then restartBringup slip s
        else moveSlip slip .down 4 s))

/-- The row of LANE_LOOPBACK in its group table. -/
def rowLaneLoopback (x : Exec) (_s : State) : Row :=
  let slip := param x 0 2
  let mode := param x 2 1
  let pat := param x 3 1
  let checked := mode == 1 || mode == 2 || mode == 4
  { Row.plain 0x050B (onlyFields x.cmd.params [(0, 4)]) with
    own := fails (383 < slip || 4 < mode || (checked && 2 < pat)) stRange }

/-- LANE_LOOPBACK (R269). -/
def execLaneLoopback (x : Exec) (s : State) : Result :=
  let slip := param x 0 2
  let mode := param x 2 1
  let pat := param x 3 1
  let checked := mode == 1 || mode == 2 || mode == 4
  runCmd x s (rowLaneLoopback x)
    (fun s =>
      let was := (getSlip s slip).loopback
      let s := wakeSlip slip s
      Effect.ok (if mode = 0 then
          (if was = 0 then s else restartBringup slip (modSlip slip (fun p => { p with loopback := 0 }) s))
        else
          let s := modSlip slip (fun p =>
            { p with loopback := mode, pattern := pat, pattern0 := BitVec.allOnes 31, pattern1 := BitVec.allOnes 31,
                     laneCnt := if checked then
                       p.laneCnt.map (fun c => if c.1 = 24 || c.1 = 25 then (c.1, { c.2 with value := 0 }) else c) else p.laneCnt }) s
          moveSlip slip .down 5 s))

/-- SER of Table 10.7: corrected symbols over 544 x the last 2^24 codewords; 0 before any. -/
def symbolErrorRatio (t : Telemetry) : Nat :=
  let n := min t.words (2 ^ 24)
  if n = 0 then 0 else (rne fp32 false ((t.errs.map Prod.snd).sum) (544 * n) 0).1

/-- The lane status record of a slip (Table 10.7). -/
def laneStatus (s : State) (slip : Nat) : List Byte :=
  let p := getSlip s slip
  let fl := b2n p.rx.inverted0 + 2 * b2n p.rx.inverted1 + 4 * b2n p.rx.reversed + 8 * b2n p.tx.precode0 +
    16 * b2n p.tx.precode1 + 32 * b2n p.rx.precode0 + 64 * b2n p.rx.precode1
  fit 64 (le 2 slip ++ le 1 p.step ++ le 1 p.power ++ le 1 p.loopback ++ le 1 fl ++ leInt 2 p.tele.skew ++
    (p.tx.taps.map (leInt 1)).flatten ++ zeros 2 ++ (p.tele.snr.map (le 2)).flatten ++ (p.tele.eye.map (le 1)).flatten ++
    zeros 2 ++ le 4 (symbolErrorRatio p.tele) ++ le 8 p.tele.changeTide.toNat)

/-- The row of LANE_STATUS_READ in its group table. -/
def rowLaneStatusRead (x : Exec) (_s : State) : Row :=
  slipListRow x 0x050C 64 false

/-- LANE_STATUS_READ (R271): CLEAR must be 0. -/
def execLaneStatusRead (x : Exec) (s : State) : Result :=
  runCmd x s (rowLaneStatusRead x)
    (fun s =>
      let s := (slipList x).foldl (fun s n => measureSlip n s) s
      { Effect.ok s with data := ((slipList x).map (laneStatus s)).flatten })

/-- The row of LANE_COUNTERS_READ in its group table. -/
def rowLaneCountersRead (x : Exec) (_s : State) : Row :=
  slipListRow x 0x050D 112 true

/-- LANE_COUNTERS_READ (R272). -/
def execLaneCountersRead (x : Exec) (s : State) : Result :=
  runCmd x s (rowLaneCountersRead x) (fun s =>
    let d := ((slipList x).map (fun n => fit 112 (counterWords (getSlip s n).laneCnt 26))).flatten
    let s := if bit (param x 0 1) 0 then (slipList x).foldl (fun s n => modSlip n (fun p => { p with laneCnt := [] }) s) s else s
    { Effect.ok s with data := d })

/-- Whether the laser of a lane of an engine is lit: its slip is ACTIVE, in DOZE or waking, and not in a test that keeps it at standby
(Tables 10.6, 10.12). -/
def laserLit (s : State) (k lane : Nat) : Bool :=
  let p := getSlip s (8 * k + lane / 2)
  (p.power ≤ 1 || p.waking) && p.loopback != 1 && p.loopback != 2

/-- What an engine that answers measures: temperature, received powers, and the bias and power of lasers that are lit are free values, as
is the time of the sample (log entry 28). A laser at standby keeps what its calibration recorded (R379). -/
def measureEngine (k : Nat) (s : State) : State :=
  if (getEngine s k).state = 2 then s
  else
    let f := fresh 848 s
    let w (i : Nat) : BitVec 16 := f.1.extractLsb' (16 * i) 16
    modEngine k (fun e =>
      { e with temp := (w 0).toInt,
               bias := (List.range 16).map (fun j => if laserLit s k j then (w (1 + j)).toNat else e.bias.getD j 0),
               txPower := (List.range 16).map (fun j => if laserLit s k j then (w (17 + j)).toInt else e.txPower.getD j 0),
               rxPower := (List.range 16).map (fun j => (w (33 + j)).toInt), sampleTide := f.1.extractLsb' 784 64 }) f.2

/-- The optical engine record (Table 10.10). -/
def engineBytes (s : State) (k : Nat) : List Byte :=
  let e := getEngine s k
  fit 160 (le 1 k ++ le 1 (if e.state = 2 then 2 else if e.alarms = 0 then 0 else 1) ++ leInt 2 e.temp ++ le 4 e.alarms.toNat ++
    (e.bias.map (le 2)).flatten ++ (e.txPower.map (leInt 2)).flatten ++ (e.rxPower.map (leInt 2)).flatten ++
    ((List.range 16).map (fun j => le 2 (Config.biasBase k j))).flatten ++ le 8 e.sampleTide.toNat)

/-- The row of OPTICS_READ in its group table. -/
def rowOpticsRead (x : Exec) (_s : State) : Row :=
  let first := param x 0 1
  let n := param x 1 1
  { Row.plain 0x050E (onlyFields x.cmd.params [(0, 2)]) with
    returns := true, need := 160 * n, own := fails (n == 0 || 48 < n || 48 < first + n) stRange }

/-- OPTICS_READ (R273). -/
def execOpticsRead (x : Exec) (s : State) : Result :=
  let first := param x 0 1
  let n := param x 1 1
  runCmd x s (rowOpticsRead x)
    (fun s =>
      let s := (List.range n).foldl (fun s i => measureEngine (first + i) s) s
      { Effect.ok s with data := ((List.range n).map (fun i => engineBytes s (first + i))).flatten })

end Sys2Proof.Machine
end

