-- ==== Sys2Proof/Machine/TideUnit.lean ====
section
/-!
DEFINITION. Fabric time: the tide unit (R140 to R144, R391), launches (R145 to R147), the Time and determinism commands
(Table 12.12), tide tables and the tide's wrap (R230, R352).
-/
namespace Sys2Proof.Machine

def modTide (f : TideUnit → TideUnit) (s : State) : State := { s with tide := f s.tide }

/-- TIMING_IN is in use (R144). -/
def refInUse (s : State) : Bool := s.tide.refEnable && !s.tide.refRejected

/-! ### Master selection (R140, R142) -/

/-- The rank of a candidate master: REF, PRIORITY, MASTER_SERIAL, HOPS, slip; lower ranks first. -/
def masterKey (ref : Bool) (priority serial hops slip : Nat) : List Nat := [1 - b2n ref, priority, serial, hops, slip]

/-- Lexicographic order. -/
def keyBefore : List Nat → List Nat → Bool
  | a :: as, b :: bs => if a < b then true else if a = b then keyBefore as bs else false
  | _, _ => false

def candidateKey (slip : Nat) (m : TideMsg) : List Nat := masterKey m.ref m.priority m.serial m.hops slip

/-- The best neighbour announcement held. -/
def bestHeard (t : Tab Candidate) : Option (Nat × Candidate) :=
  t.foldl (fun acc c =>
    match acc with
    | none => some c
    | some b => if keyBefore (candidateKey c.1 c.2.msg) (candidateKey b.1 b.2.msg) then some c else some b) none

/-- Parameters of TIDE_LOCKED and TIDE_UNLOCKED: PARENT_SLIP, HOPS, cause, MASTER_SERIAL (Table 12.16). -/
def tideParams (s : State) (cause : Nat) : List Byte :=
  match s.tide.parent.bind (fun p => (tabGet? s.tide.heard p).map (fun c => (p, c.msg))) with
  | some (p, m) => le 2 p ++ le 1 (m.hops + 1) ++ le 1 cause ++ zeros 4 ++ le 8 m.serial
  | none => le 2 0xFFFF ++ le 1 0 ++ le 1 cause ++ zeros 4 ++ le 8 serial64

/-- The F384 is unlocked from now on: every account of a step under way notes it (R151 MODE bit 1). -/
def markUnlocked (s : State) : State :=
  { modTide (fun t => { t with locked := false, inWindow := 0, outWindow := 0 }) s with
    rctxs := s.rctxs.map (fun r => (r.1, { r.2 with acct := { r.2.acct with unlocked := true } })),
    octxs := s.octxs.map (fun o => (o.1, { o.2 with acct := { o.2.acct with unlocked := true } })) }

/-- The F384 becomes unlocked for a cause of TIDE_UNLOCKED (R142). -/
def unlockTide (cause : Nat) (s : State) : State := markUnlocked (raiseEvent 0x0081 none (tideParams s cause) s)

def lockTide (s : State) : State := raiseEvent 0x0080 none (tideParams s 0) (modTide (fun t => { t with locked := true }) s)

/-- The F384 becomes master, locked from this tick (R142). -/
def becomeMaster (s : State) : State :=
  let was := s.tide.locked
  let s := modTide (fun t => { t with master := true, parent := none, inWindow := 0, outWindow := 0 }) s
  if was then s else lockTide s

/-- The choice of master and time parent (R140). Without a locked tide loop there is none. -/
def elect (s : State) : State :=
  if s.clk.tide != .locked then s
  else
    let own := masterKey (refInUse s) s.tide.priority serial64 0 0
    match bestHeard s.tide.heard with
    | some (slip, c) =>
      if s.tide.priority != 255 && !keyBefore (candidateKey slip c.msg) own then
        (if s.tide.master then s else becomeMaster s)
      else
        let was := s.tide.master
        let s := modTide (fun t => { t with master := false, parent := some slip }) s
        if was then unlockTide 2 s else s
    | none =>
      if s.tide.priority = 255 then
        (if s.tide.master then markUnlocked (modTide (fun t => { t with master := false, parent := none }) s) else s)
      else if s.tide.master then s else becomeMaster s

/-! ### Messages (R140, R141, Table 05.4) -/

/-- The announcement this F384 makes: the best master it knows, HOPS increased, or itself. -/
def announcement (s : State) : Option TideMsg :=
  let base : TideMsg :=
    { kind := 0, priority := s.tide.priority, hops := 0, ref := refInUse s, locked := s.tide.locked, seq := 0, t1Frac := 0,
      t2Frac := 0, t3Frac := 0, serial := serial64, t1 := 0, t2 := 0, t3 := 0 }
  if s.tide.master then some base
  else
    match s.tide.parent.bind (fun p => tabGet? s.tide.heard p) with
    | some c => some { base with priority := c.msg.priority, hops := c.msg.hops + 1, ref := c.msg.ref, serial := c.msg.serial }
    | none => none

/-- Removal of one received packet that carries a tide message from its landing (R212). -/
def takeTide (slip : Nat) (m : TideMsg) (s : State) : State :=
  match (getLanding s (homeLanding (hawserOf s slip))).rx.find? (fun a => a.slip == slip && a.pkt.body == .tide m) with
  | some a => dropArrival a s
  | none => s

/-- A tide message to the neighbour of a slip: a class 0 packet of this slip (R140). DESIGN CHOICE: DST and EGRESS are the neighbour's
fabric address (log entry 48). -/
def sendTide (slip : Nat) (m : TideMsg) (s : State) : State :=
  let a := ((getSlip s slip).ex.accepted.map (fun i => i.fabricAddr)).getD 0xFFFF
  originateSlip slip (mkPacket { ownHeader s 0 0 a with egress := a } (.tide m)) s

/-- ANNOUNCE_TIMER (R140). -/
def execAnnounceTimer (s : State) : Result :=
  match announcement s with
  | none => finish s
  | some m =>
    if s.clk.tide = .locked then finish ((peerSlips s).foldl (fun s n => sendTide n m s) s) else finish s

/-- ANNOUNCE (R140): HOPS of 16 or more is ignored. -/
def execAnnounce (slip : Nat) (m : TideMsg) (s : State) : Result :=
  let s := takeTide slip m s
  if slip < 384 && (getSlip s slip).state == .inService && m.hops < 16 && m.kind == 0 && s.clk.tide == .locked then
    finish (elect (modTide (fun t => { t with heard := tabPut t.heard slip { msg := m, heard := now s } }) s))
  else finish s

/-- SYNC_TIMER (R141): a follower sends SYNC_REQ to its parent; T1 is taken as it leaves. Fractions of a tick are free values (log entry
3). -/
def execSyncTimer (s : State) : Result :=
  match s.tide.parent with
  | some p =>
    if !s.tide.master && (getSlip s p).state = .inService then
      let f := fresh 8 s
      let n := (s.tide.seq + 1) % 256
      let m : TideMsg :=
        { kind := 1, priority := 0, hops := 0, ref := false, locked := s.tide.locked, seq := n, t1Frac := f.1.toNat,
          t2Frac := 0, t3Frac := 0, serial := 0, t1 := 0, t2 := 0, t3 := 0 }
      finish (sendTide p m (modTide (fun t => { t with seq := n, sentT1 := none }) f.2))
    else finish s
  | none => finish s

/-- SYNC_REQ (R141): timestamped at its arrival, t2, and answered with SYNC_RESP, whose T3 is taken as it leaves. -/
def execSyncReq (slip : Nat) (m : TideMsg) (t2 : Tide) (t2Frac : Nat) (s : State) : Result :=
  let s := takeTide slip m s
  if slip < 384 && (getSlip s slip).state == .inService && m.kind == 1 then
    let f := fresh 8 s
    finish (sendTide slip { m with kind := 2, locked := s.tide.locked, t2 := t2, t2Frac := t2Frac, t3 := 0, t3Frac := f.1.toNat } f.2)
  else finish s

/-- Twice the offset and the delay of an exchange, in 1/256 ns (R141). -/
def exchange (m : TideMsg) (t4 : Tide) (t4Frac : Nat) : Int × Int :=
  let d (a b : Tide) (fa fb : Nat) : Int := (a - b).toInt * 256 + fa - fb
  let up := d m.t2 m.t1 m.t2Frac m.t1Frac
  let down := d t4 m.t3 t4Frac m.t3Frac
  (up - down, up + down)

/-- Jobs lose their launches when a step changes the tide count (R147). -/
def loseLaunches (s : State) : State :=
  s.jobs.foldl (fun s j =>
    match j.2.launch with
    | .unlaunched => s
    | .pending => modJob j.1 (fun x => { x with launch := .unlaunched }) s
    | .launched =>
      raiseEvent 0x0082 (some j.1) (le 8 j.2.l.toNat ++ le 8 (now s).toNat) (modJob j.1 (fun x => { x with launch := .unlaunched }) s)) s

/-- A step of the tide count by a signed number of ticks (R141, R147, R352); the gates follow it from the next tick (R231). -/
def stepTide (d : Int) (s : State) : State :=
  let old := now s
  let k : BitVec 64 := BitVec.ofInt 64 d
  let s := modTide (fun t => { t with count := t.count + k, stepped := t.stepped + k, inWindow := 0, outWindow := 0 }) s
  let s := loseLaunches s
  if 0 < d && (2 ^ 64 : Int) ≤ (old.toNat : Int) + d then raiseEvent 0x0083 none [] s else s

/-- SYNC_RESP (R141, R142). A locked follower slews: its rate is a free value within 100 ppm. An unlocked one holds its last rate. -/
def execSyncResp (slip : Nat) (m : TideMsg) (t4 : Tide) (t4Frac : Nat) (s : State) : Result :=
  let s := takeTide slip m s
  if s.tide.parent = some slip && !s.tide.master && m.kind = 2 && (s.tide.sentT1.map Prod.fst) = some m.seq then
    let e := exchange m t4 t4Frac
    let s := modTide (fun t => { t with offset := e.1 / 2, delay := e.2 / 2, sentT1 := none }) s
    if !s.tide.locked && 1000 * 512 < e.1.natAbs then finish (stepTide (e.1 / 512) s)
    else
      let f := fresh 32 s
      let inW := if e.1.natAbs ≤ 2 * 512 then s.tide.inWindow + 1 else 0
      let outW := if 5 * 512 < e.1.natAbs then s.tide.outWindow + 1 else 0
      let rate : Int := if s.tide.locked then (f.1.toNat % 200001 : Nat) - 100000 else s.tide.rate
      let s := modTide (fun t => { t with rate := rate, inWindow := inW, outWindow := outW }) f.2
      if !s.tide.locked && 8 ≤ inW then finish (lockTide s)
      else if s.tide.locked && 4 ≤ outW then finish (unlockTide 0 s)
      else finish s
  else finish s

/-- PARENT_SILENCE (R142): 375 us without ANNOUNCE from the parent, after the arrivals of the tick. -/
def execParentSilence (s : State) : Result :=
  match s.tide.parent with
  | none => finish s
  | some p =>
    let silent := match tabGet? s.tide.heard p with
      | some c => decide (375000 ≤ tideSince c.heard (now s))
      | none => true
    if silent && !arrivalsDue s then
      let left := s.tide.heard.filter (fun c => decide (tideSince c.2.heard (now s) < 375000))
      let alone := left.isEmpty
      let s1 := if alone && s.tide.locked then unlockTide 1 s else s
      finish (elect (modTide (fun t => { t with heard := left, parent := none }) s1))
    else finish s

/-! ### TIMING_IN (R144, R391) -/

/-- TIMING_IN is rejected: 0 reference, 1 interval, 2 missing edge. -/
def rejectRef (cause : Nat) (s : State) : State :=
  if s.tide.refRejected then modTide (fun t => { t with goodEdges := 0 }) s
  else elect (raiseFault 9 0 0 cause 1 (modTide (fun t => { t with refRejected := true, goodEdges := 0 }) s))

/-- PPS_EDGE: the interval since the edge before, and whether the 10 MHz reference is within 50 ppm. -/
def execPpsEdge (intervalNs : Nat) (refOk : Bool) (s : State) : Result :=
  if !s.tide.refEnable then finish s
  else
    let first := !s.tide.refSeen
    let inWin := first || (999950000 ≤ intervalNs && intervalNs ≤ 1000050000)
    let s := modTide (fun t => { t with refSeen := true }) s
    if !refOk then finish (rejectRef 0 s)
    else if !inWin then finish (rejectRef 1 s)
    else if s.tide.refRejected then
      let n := s.tide.goodEdges + 1
      if 10 ≤ n then finish (elect (modTide (fun t => { t with refRejected := false, goodEdges := 0 }) s))
      else finish (modTide (fun t => { t with goodEdges := n }) s)
    else finish s

/-- PPS_MISSING: no edge for 1.5 s. -/
def execPpsMissing (s : State) : Result := if s.tide.refEnable then finish (rejectRef 2 s) else finish s

/-- BAD_CYCLE (R391): rejected as a reference that deviates. -/
def execBadCycle (s : State) : Result := if s.tide.refEnable then finish (rejectRef 0 s) else finish s

/-! ### Commands (Table 12.12) -/

/-- The row of TIDE_CONFIG in its group table. -/
def rowTideConfig (x : Exec) (_s : State) : Row :=
  Row.plain 0x0800 (onlyFields x.cmd.params [(0, 2)] && param x 1 1 < 2)

/-- TIDE_CONFIG. -/
def execTideConfig (x : Exec) (s : State) : Result :=
  runCmd x s (rowTideConfig x)
    (fun s =>
      let on := bit (param x 1 1) 0
      Effect.ok (elect (modTide (fun t =>
        { t with priority := param x 0 1, refEnable := on, refRejected := on && t.refEnable && t.refRejected,
                 refSeen := on && t.refEnable && t.refSeen, goodEdges := if on && t.refEnable then t.goodEdges else 0 }) s)))

/-- The row of TIDE_QUERY in its group table. -/
def rowTideQuery (x : Exec) (_s : State) : Row :=
  { Row.plain 0x0801 (onlyFields x.cmd.params []) with returns := true, need := 64 }

/-- TIDE_QUERY. -/
def execTideQuery (x : Exec) (s : State) : Result :=
  runCmd x s (rowTideQuery x)
    (fun s =>
      let t := s.tide
      let pm := t.parent.bind (fun p => (tabGet? t.heard p).map (fun c => c.msg))
      { Effect.ok s with
        data := fit 64 (le 8 t.count.toNat ++ le 8 ((pm.map (fun m => m.serial)).getD serial64) ++ le 2 (t.parent.getD 0xFFFF) ++
          le 1 ((pm.map (fun m => m.hops + 1)).getD 0) ++
          le 1 (b2n t.locked + 2 * b2n t.master + 4 * b2n (refInUse s) + 8 * b2n t.refRejected) ++ leInt 4 t.offset ++
          leInt 4 t.delay ++ leInt 4 t.rate ++ le 1 t.priority) })

/-- The row of LAUNCH_AT in its group table. -/
def rowLaunchAt (x : Exec) (s : State) : Row :=
  let l := param x 8 8
  let j := x.cmd.job
  let d := (BitVec.ofNat 64 l - now s).toNat
  { Row.job 0x0802 (onlyFields x.cmd.params [(8, 8)]) with
    own := fails (l != 0 && (d < 100000 || 1000000000000 < d)) stRange ++
      fails (if l = 0 then (jobOf s x).launch != .pending
        else !lockedOrMaster s || ((jobOf s x).launch == .launched && jobRunning s j)) stState }

/-- LAUNCH_AT (R145). -/
def execLaunchAt (x : Exec) (s : State) : Result :=
  let l := param x 8 8
  let j := x.cmd.job
  runCmd x s (rowLaunchAt x)
    (fun s => Effect.ok (modJob j (fun y =>
      if l = 0 then { y with launch := .unlaunched } else { y with launch := .pending, l := BitVec.ofNat 64 l }) s))

/-- The row of DETERMINISM_SET in its group table. -/
def rowDeterminismSet (x : Exec) (s : State) : Row :=
  { Row.job 0x0803 (onlyFields x.cmd.params [(0, 1), (8, 8)] && param x 0 1 < 2) with
    own := fails ((jobOf s x).launch != .unlaunched) stState }

/-- DETERMINISM_SET (R132). -/
def execDeterminismSet (x : Exec) (s : State) : Result :=
  runCmd x s (rowDeterminismSet x)
    (fun s => Effect.ok (modJob x.cmd.job (fun j =>
      { j with replay := bit (param x 0 1) 0, seed := BitVec.ofNat 64 (param x 8 8) }) s))

/-- An entry of a topology map (Table 05.2). -/
def parseTopo (d : List Byte) (i : Nat) : TopoEntry :=
  let o := 64 + 64 * i
  { addr := field d o 2, ctx := field d (o + 2) 2, role := field d (o + 4) 1, t := field d (o + 5) 1, treeSet := field d (o + 6) 2,
    ring := (List.range 6).map (fun k => field d (o + 8 + 2 * k) 2), c := field d (o + 20) 2, m := field d (o + 22) 2,
    links := bytesAt d (o + 32) 32 }

/-- Whether the fields of an entry keep to R48. -/
def topoOk (e : TopoEntry) : Bool :=
  let n := e.ring.getD 0 0
  e.ctx < 4096 && e.role ≤ 4 && 1 ≤ e.t && e.t ≤ 16 && e.treeSet != 0 && e.treeSet < 2 ^ e.t && e.c ≤ 64 && e.m ≤ 384 &&
    1 ≤ e.m + e.c && e.m + e.c ≤ 448 &&
    (match e.role with
      | 0 => 1 ≤ e.m && e.c == 0
      | 1 => 1 ≤ e.c
      | 2 => 1 ≤ e.c
      | _ => e.c == 0 && e.t == 1) &&
    (if e.role = 4 then 1 ≤ e.m && 2 ≤ n && n ≤ 1024 && e.ring.getD 1 0 < n else e.ring.all (· == 0))

/-- Whether entries ascend strictly by address and context. -/
def topoAscending : List TopoEntry → Bool
  | a :: b :: t => (a.addr < b.addr || (a.addr == b.addr && a.ctx < b.ctx)) && topoAscending (b :: t)
  | _ => true

/-- The row of TOPOLOGY_SET in its group table. -/
def rowTopologySet (x : Exec) (s : State) : Row :=
  let d := desc x
  let n := field d 2 2
  let es := (List.range (min n 8192)).map (parseTopo d)
  { Row.job 0x0804 (onlyFields x.cmd.params []) with
    descLen := if x.desc.isSome then 64 + 64 * n else x.cmd.descLen,
    own := fails (n == 0 || 8192 < n) stRange ++
      fails (field d 0 1 != x.cmd.job || !zeroAt d 1 1 || !zeroAt d 4 60 || !topoAscending es || es.any (fun e => !topoOk e) ||
        (List.range (min n 8192)).any (fun i => !zeroAt d (64 + 64 * i + 24) 8)) stBadParam ++
      fails ((jobOf s x).launch != .unlaunched) stState }

/-- TOPOLOGY_SET (R134). -/
def execTopologySet (x : Exec) (s : State) : Result :=
  let d := desc x
  let n := field d 2 2
  let es := (List.range (min n 8192)).map (parseTopo d)
  runCmd x s (rowTopologySet x)
    (fun s => Effect.ok (modJob x.cmd.job (fun j => { j with topo := some es, topoDigest := sha3 d }) s))

/-! ### Times reached -/

/-- JOB_LAUNCH (R146): at L, after the arrivals of that tick, the job is LAUNCHED and LAUNCH goes to every local member. -/
def execJobLaunch (job : Nat) (s : State) : Result :=
  match tabGet? s.jobs job with
  | none => finish s
  | some j =>
    if launchDue s j && !arrivalsDue s then
      let s := modJob job (fun x => { x with launch := .launched }) s
      finish ((localMembers s job).foldl (fun s m =>
        match rankAddr s job m.1 with
        | some a => originateMember (lowestLanding s) m.2 (mkPacket (ownHeader s 0 job a) (.launch j.l)) s
        | none => s) s)
    else finish s

/-- TIDE_TABLE_INSTALL (R230): at BASE the pending table takes over. -/
def execTideTableInstall (slip : Nat) (s : State) : Result :=
  match (getSlip s slip).pendTable with
  | none => finish s
  | some t =>
    if tideReached t.base (now s - s.tide.stepped) then
      finish (modSlip slip (fun p => { p with table := if t.entries.isEmpty then none else some t, pendTable := none }) s)
    else finish s

end Sys2Proof.Machine
end

