-- ==== Sys2Proof/Machine/PowerStates.lean ====
section
/-!
DEFINITION. Latency budgets and idle states (R319 to R323), lane power states (R277 to R280), monitors (R325, R326), throttling (R328)
and what an F384 that trips loses (R329).
-/
namespace Sys2Proof.Machine

/-! ### Effective budgets (R320) -/

/-- Slips of a landing that are not in OFF. -/
def slipsNotOff (s : State) (l : Nat) : List Nat :=
  ((s.slips.filter (fun p => homeLanding p.1 == l && p.2.power != 4)).map Prod.fst)

/-- A landing's budget; none where all its slips are in OFF, which permits any state (R321). -/
def landingBudget (s : State) (l : Nat) : Option Nat := ((slipsNotOff s l).map (fun n => hawserBudgetOf s (hawserOf s n))).min?

def deckBudget (s : State) : Nat := minBudget s (s.rctxs.map (fun r => r.2.d.job))

/-- Whether an optimizer context's bank range lies on a stack. -/
def octxOnStack (d : ODesc) (k : Nat) : Bool :=
  d.segments.any (fun g => [0, 1].any (fun b =>
    let lo := recordAddr d g 0 b
    lo < (k + 1) * (60 * 2 ^ 30) && k * (60 * 2 ^ 30) < lo + g.records * recordSize d))

def stackBudget (s : State) (k : Nat) : Nat :=
  minBudget s ((s.octxs.filter (fun o => octxOnStack o.2.d k)).map (fun o => o.2.d.job) ++
    (s.rctxs.filter (fun r => r.2.d.deep)).map (fun r => r.2.d.job))

/-! ### Idle states of slips (Table 13.4, R277 to R280) -/

/-- LANE_IDLE_ENTRY (R278): both ends have sent and received 16 codewords that ask for an idle state, and neither has work; the slip
enters the shallower of the two states. What the lanes measure is kept from before NAP and SLEEP (R271). -/
def execLaneIdleEntry (slip : Nat) (s : State) : Result :=
  let p := getSlip s slip
  let target := min p.tx.powerReq p.rx.powerReq
  if p.state == .inService && !p.waking && !laneBusy s slip && 16 ≤ p.tx.powerRun && 16 ≤ p.rx.powerRun && p.power < target &&
      target ≤ laneRequest s slip then
    let s := if target = 1 then s else measureSlip slip s
    finish (modLane slip (fun p =>
      { p with power := target, rx := if target = 1 then p.rx else { p.rx with fecLock := false, sawLocked := false, goodRun := 0 } }) s)
  else finish s

/-- LANE_WAKE. -/
def execLaneWake (slip : Nat) (s : State) : Result := finish (wakeSlip slip s)

/-- LANE_WAKE_DONE (R279): from DOZE after six codewords, from NAP and SLEEP at FEC lock with LOCKED received; from SLEEP the first
frame is an IDENT. -/
def execLaneWakeDone (slip : Nat) (s : State) : Result :=
  let p := getSlip s slip
  let up := if p.power = 1 then decide (128 ≤ tideSince p.wakeStart (now s)) else p.rx.fecLock && p.rx.sawLocked
  if p.waking && up then
    let s := modLane slip (fun p => { p with power := 0, waking := false, lastWork := now s }) s
    finish (if p.power = 3 then sendIdent slip s else s)
  else finish s

/-- WAKE_FAIL (R280): twice the wake time has passed. -/
def execWakeFail (slip : Nat) (s : State) : Result :=
  let p := getSlip s slip
  if p.waking && 2 * laneWakeTime p.power < tideSince p.wakeStart (now s) then finish (moveSlip slip .down 7 (countLane slip 23 1 s))
  else finish s

/-! ### Idle states of landings, deck and stacks (R321, R322) -/

/-- Whether a landing meets its idle condition (Table 13.4). -/
def landingIdle (s : State) (l : Nat) : Bool :=
  let x := getLanding s l
  (slipsNotOff s l).all (fun n => 2 ≤ (getSlip s n).power) && x.rx.isEmpty && x.voq.isEmpty && x.sources.isEmpty &&
    (s.hawsers.filter (fun h => homeLanding h.1 == l)).all (fun h => h.2.waiting.isEmpty && h.2.failover.isEmpty) &&
    (s.xings.filter (fun y => y.landing == l)).all (fun y =>
      y.state != .syncing && y.lanes.all (fun k => k.copies.isEmpty && k.held.isEmpty))

/-- Whether no sweep is ready (R84). -/
def deckIdle (s : State) : Bool := s.deck.sweep.isNone && s.deck.queue.isEmpty && (readyFolds s).isEmpty

/-- Whether a chunk's deep berths on a stack are being folded into, or could be (R57). -/
def deepWork (r : Rctx) (k : Nat) : Bool :=
  r.d.deep && r.state != .stopped && r.positions.any (fun p => p.1 % 8 == k && (p.2.sweeping || foldReady r p.2))

/-- Whether a stack has no access outstanding or queued: record writes, requests and sweeps that read it, deep berths. -/
def stackIdle (s : State) (k : Nat) : Bool :=
  let reads (w : Sweep) : Bool := (sweepInputs s w).any (fun x => inRange x k)
  s.hbm.writes.all (fun w => !inRange (w.addr, w.bytes.length) k) &&
    s.hbm.waits.all (fun w => !reads (.gather w.octx w.seg w.chunk w.bank)) && s.deck.queue.all (fun e => !reads e.sweep) &&
    s.rctxs.all (fun r => !deepWork r.2 k)

def powerOf (s : State) (u : PowerUnit) : IdleState :=
  match u with
  | .landing l => (getLanding s l).power
  | .deck => s.deck.power
  | .stack k => (getStack s k).power

def setPower (u : PowerUnit) (p : IdleState) (s : State) : State :=
  match u with
  | .landing l => { s with lands := tabPut s.lands l { getLanding s l with power := p } }
  | .deck => { s with deck := { s.deck with power := p } }
  | .stack k => modStack k (fun t => { t with power := p }) s

/-- Whether a unit may stay in its idle state: its wake time fits its budget. -/
def fitsBudget (s : State) (u : PowerUnit) : Bool :=
  match u with
  | .landing l => ((landingBudget s l).map (fun b => decide (2000 ≤ b))).getD true
  | .deck => decide (200 ≤ deckBudget s)
  | .stack k => decide (1500 ≤ stackBudget s k)

/-- Whether a unit exists and has its power (R347). -/
def powerUnitUp (s : State) (u : PowerUnit) : Bool :=
  !s.aon.tripped && (match u with
    | .landing l => l < 8 && !unitLost s (.landing l)
    | .deck => true
    | .stack k => k < 8 && !unitLost s (.stack k))

/-- Whether a unit meets its idle condition (Table 13.4). -/
def unitIdle (s : State) (u : PowerUnit) : Bool :=
  match u with
  | .landing l => landingIdle s l
  | .deck => deckIdle s
  | .stack k => stackIdle s k

/-- Dwell of a unit's idle state, ns (Table 13.4). -/
def unitDwell : PowerUnit → Nat
  | .landing _ => 8000
  | .deck => 0
  | .stack _ => 4000

/-- Whether a unit has met its idle condition for its dwell. -/
def dwellMet (s : State) (u : PowerUnit) : Bool := unitIdle s u && decide (unitDwell u ≤ tideSince (powerOf s u).lastWork (now s))

/-- Every unit with an idle state but the slips. -/
def powerUnits : List PowerUnit := .deck :: (List.range 8).map .landing ++ (List.range 8).map .stack

/-- Units that do not meet their idle condition have work: their dwell starts again, and an idle one wakes (R321, R322). -/
def noteWork (s : State) : State :=
  powerUnits.foldl (fun s u =>
    if powerUnitUp s u && !unitIdle s u then setPower u ((powerOf s u).touch (now s)) s else s) s

/-- UNIT_IDLE_ENTRY (R321). -/
def execUnitIdleEntry (u : PowerUnit) (s : State) : Result :=
  let p := powerOf s u
  if running s && powerUnitUp s u && !p.idle && dwellMet s u && fitsBudget s u then finish (setPower u { p with idle := true, waking := false } s)
  else finish s

/-- UNIT_WAKE (R322): a reason to work. -/
def execUnitWake (u : PowerUnit) (s : State) : Result :=
  if powerUnitUp s u then finish (setPower u ((powerOf s u).touch (now s)) s) else finish s

/-- UNIT_WAKE_DONE (R322). -/
def execUnitWakeDone (u : PowerUnit) (s : State) : Result :=
  let p := powerOf s u
  if p.waking then finish (setPower u { p with idle := false, waking := false } s) else finish s

/-- Units whose present state has a wake time above their budget are woken (R323). -/
def wakeOverBudget (s : State) : State :=
  let s := (s.slips.map Prod.fst).foldl (fun s n =>
    let p := getSlip s n
    if 1 ≤ p.power && p.power ≤ 3 && hawserBudgetOf s (hawserOf s n) < laneWakeTime p.power then wakeSlip n s else s) s
  powerUnits.foldl (fun s u =>
    if (powerOf s u).idle && !(powerOf s u).waking && !fitsBudget s u then setPower u { powerOf s u with waking := true } s else s) s

/-! ### Monitors (R325, R326) -/

/-- Trip threshold of a temperature sensor, 0.01 degrees (R329). -/
def tripThreshold (i : Nat) : Int := if i < 56 then 12000 else 10500

/-- Nominal voltage of a monitor, mV (Table 13.6). -/
def nominalVoltage (j : Nat) : Nat :=
  if j = 0 then 48000 else if j = 1 then 12000 else if j ≤ 13 then 750 else if j = 14 then 800 else if j = 15 then 850
  else if j ≤ 23 then 1050 else if j ≤ 29 then 1800 else if j = 30 then 900 else 1800

/-- Whether a voltage lies above or below its monitor's window: nominal 5 %, or 40 to 60 V of the input. -/
def aboveWindow (j : Nat) (v : Int) : Bool := if j = 0 then 60000 < v else 105 * (nominalVoltage j : Int) < 100 * v
def belowWindow (j : Nat) (v : Int) : Bool := if j = 0 then v < 40000 else 100 * v < 95 * (nominalVoltage j : Int)

/-- A monitor after a valid sample: its peak is the highest since reset (Table 13.7). -/
def Monitor.take (m : Monitor) (v : Int) (high low trip : Bool) : Monitor :=
  { high := high, low := low, trip := trip, invalid := false, value := v, peak := if m.sampled then max m.peak v else v, sampled := true,
    outRun := if high || low then m.outRun + 1 else 0, outRaised := m.outRaised && (high || low) }

def setMonitor (n : Nat) (m : Monitor) (s : State) : State := { s with aon := { s.aon with monitors := tabPut s.aon.monitors n m } }

/-- A sensor found INVALID: THERMAL cause 0 where it was not so before and the collector runs. -/
def markInvalid (i : Nat) (s : State) : State :=
  let m := getMonitor s i
  let was := m.invalid
  let s := setMonitor i { m with high := false, low := false, trip := false, invalid := true, value := 0 } s
  if was || !s.aon.collector then s else raiseFault 11 0 i 0 1 s

/-- One sample of one monitor. -/
def takeSample (n : Nat) (x : Sample) (s : State) : State :=
  let m := getMonitor s n
  match x with
  | .noAnswer => if n < 64 then markInvalid n s else s
  | .reading v =>
    if n < 64 then
      if v < -4000 || 15000 < v then markInvalid n s
      else setMonitor n (m.take v (throttleThreshold s n ≤ v) false (tripThreshold n ≤ v)) s
    else if n < 96 then setMonitor n (m.take v (aboveWindow (n - 64) v) (belowWindow (n - 64) v) false) s
    else setMonitor n (m.take v false false false) s

/-- Whether every valid sensor lies 3 degrees below its throttle threshold. -/
def sensorsCool (s : State) : Bool :=
  (List.range 64).all (fun i => (getMonitor s i).invalid || decide ((getMonitor s i).value ≤ throttleThreshold s i - 300))

/-- MONITOR_SAMPLE: all 112 monitors, the input power and current. -/
def execMonitorSample (samples : List Sample) (power current : Nat) (s : State) : Result :=
  if s.aon.stage = .off then finish s
  else
    let s := (List.range 112).foldl (fun s n =>
      match samples[n]? with
      | some x => takeSample n x s
      | none => s) s
    finish { s with aon := { s.aon with
      inputPower := power, inputCurrent := current, coolRun := if sensorsCool s then s.aon.coolRun + 1 else 0,
      lowRun := if 100 * power ≤ 95 * s.pwr.powerCap then s.aon.lowRun + 1 else 0 } }

/-- VOLTAGE_WINDOW_TIMEOUT: a monitor outside its window for 100 us, eleven samples in a row, once for each time it leaves the window. -/
def execVoltageWindowTimeout (i : Nat) (s : State) : Result :=
  let m := getMonitor s (64 + i)
  if i < 32 && 11 ≤ m.outRun && !m.outRaised && s.aon.collector then
    finish (raiseFault 10 0 i (m.value % 65536).toNat 1 (setMonitor (64 + i) { m with outRaised := true } s))
  else finish s

/-! ### Throttling (R328) -/

/-- The hottest valid sensor, the lowest of equals, with its value. -/
def hottest (s : State) : Option (Nat × Int) :=
  (List.range 64).foldl (fun (acc : Option (Nat × Int)) i =>
    let m := getMonitor s i
    if m.invalid then acc
    else match acc with
      | none => some (i, m.value)
      | some a => if a.2 < m.value then some (i, m.value) else acc) none

/-- THROTTLE_CHANGED (Table 12.16): with every sensor INVALID, SENSOR and TEMP are free values. -/
def raiseThrottle (k : Nat) (hot : Bool) (s : State) : State :=
  let go (i : Nat) (t : Int) (s : State) : State :=
    raiseEvent 0x0012 none (le 1 (b2n (k != 16)) ++ le 1 (b2n (!hot)) ++ le 1 i ++ zeros 1 ++ leInt 2 t) s
  match hottest s with
  | some x => go x.1 x.2 s
  | none => let f := fresh 24 s; go (bits f.1.toNat 7 0) (bits f.1.toNat 23 8) f.2

/-- THROTTLE_TICK (R328): once every 100 us of tide. -/
def execThrottleTick (s : State) : Result :=
  if s.clk.tide != .locked then finish s
  else
    let hot := (List.range 64).any (sensorHot s)
    let heavy := decide (s.pwr.powerCap < s.aon.inputPower)
    let k := s.pwr.k
    let k' := if hot || heavy then max (k - 1) 8 else if 100 ≤ s.aon.coolRun && 1000 ≤ s.aon.lowRun then min (k + 1) 16 else k
    let s1 := { s with pwr := { s.pwr with k := k' } }
    finish (if (k = 16) != (k' = 16) then raiseThrottle k' hot s1 else s1)

/-! ### Trip (R329) -/

/-- Commands that wait for the interconnect or the landings end FAULTED (log entry 31). -/
def failWaiting (s : State) : State :=
  let cs := s.net.switchCmd.toList ++ s.octxs.filterMap (fun o => o.2.command)
  cs.foldl (fun s r => complete r stFaulted 0 0 [] s) s

/-- Landings, interconnect, deck, optics and HBM lose their power and with it their state (R316, R329). -/
def dropDataDomains (s : State) : State :=
  { s with net := Net.reset, lands := [], hawsers := [], xings := [], incs := [], rctxs := [], octxs := [], deck := Deck.reset,
           hbm := { mem := [], stk := [], writes := [], waits := [] }, optics := [], sw := SwitchCfg.reset, slips := [],
           deferred := s.deferred.filter (fun d => match d with
             | .throttle _ _ => true
             | .deviceBudget _ => true
             | .jobBudget _ _ => true
             | _ => false),
           sys := { s.sys with memReady := false }, aon := { s.aon with losses := s.aon.losses + 1 },
           clk := { s.clk with datapath := .stopped, hbm := [], serdes := [] } }

/-- THERMAL_TRIP: a valid sensor at its trip threshold. -/
def execThermalTrip (i : Nat) (s : State) : Result :=
  let m := getMonitor s i
  if !(i < 64 && m.trip && !m.invalid) || s.aon.tripped || s.aon.stage != .railsOn then finish s
  else
    let s := { s with aon := { s.aon with tripped := true } }
    let trip : List Raise := if s.aon.collector then [⟨11, 1, i, (m.value % 65536).toNat, 4⟩] else []
    let s := moveSlips (s.slips.map Prod.fst) .down 4 trip s
    let s := dropDataDomains (failWaiting s)
    finish { s with clk := { s.clk with coreDiv4 := true } }

end Sys2Proof.Machine
end

