-- ==== Sys2Proof/Machine/Units.lean ====
section
/-!
DEFINITION. Losing a unit (R347, R348, Table 14.7): deck lane groups (R65), HBM stacks (R57, R117), optical engines (R275), landings,
Ferryman cores and SHA3 engines; parity failures (R345, Table 14.6).
-/
namespace Sys2Proof.Machine

/-! ### Refolding (R65) -/

/-- A sweep of a position leaves the deck and its queue. -/
def dropSweeps (ctx q : Nat) (s : State) : State :=
  let mine (e : Sweep) : Bool := match e with
    | .fold c k _ => c == ctx && k == q
    | .update c k => c == ctx && k == q
    | .gather _ _ _ _ => false
  { s with deck := { s.deck with sweep := s.deck.sweep.filter (fun e => !mine e), queue := s.deck.queue.filter (fun e => !mine e.sweep) } }

/-- The tallies of a chunk are discarded, to be folded again from the pontoon. A queued update waits for that; a non-root position that is
complete keeps its contributions and tallies until its chunk's release (Table 03.8), and goes on with its emission. The results of a root's
chunk have left its tallies. -/
def refoldPosition (ctx q : Nat) (s : State) : State :=
  match tabGet? s.rctxs ctx with
  | none => s
  | some r =>
    match tabGet? r.positions q with
    | none => s
    | some p =>
      let clear : Position := { p with
        berths := [], cond := 0, values := 0, sweeping := false
        contribs := p.contribs.map (fun c => (c.1, { c.2 with folded := false })) }
      if p.state == .opened || p.held || p.queued then
        dropSweeps ctx q (putPosition ctx q (noteReady (now s) r { clear with state := .opened, held := false, queued := false, dots := [] }) s)
      else if !isRootOf r.d p.chunk then dropSweeps ctx q (putPosition ctx q (noteReady (now s) r { clear with again := true }) s)
      else s

/-- A slot's contribution is treated as not arrived, and asked for again (Table 14.6, row 2). -/
def recallContribution (ctx q slot : Nat) (s : State) : State :=
  match tabGet? s.rctxs ctx with
  | none => s
  | some r =>
    match tabGet? r.positions q with
    | none => s
    | some p =>
      if (p.state == .opened || p.held || p.queued || !isRootOf r.d p.chunk) && tabHas p.contribs slot then
        toSlot r slot p.op p.chunk (fun c => .resend c p.op p.chunk) (refoldPosition ctx q (dropContribution ctx q slot s))
      else s

/-! ### What each loss does -/

/-- A lane group: the interrupted fold batch is folded again on the others. -/
def loseLaneGroup (g detail : Nat) (s : State) : State :=
  let s := raiseFault 5 0 g detail 1 s
  match s.deck.sweep with
  | some (.fold c q _) => refoldPosition c q { s with deck := { s.deck with sweep := none } }
  | _ => s

/-- An optimizer context enters HALTED: a waiting STEP_COMMIT completes with STATE, and no queued update runs (R117). -/
def haltOctx (n : Nat) (o : Octx) (s : State) : State :=
  let s := modOctx n (fun o => { o with state := .halted, command := none, sentReady := false }) s
  let mine (e : ReadySweep) : Bool := match e.sweep with
    | .update c _ => c == o.d.rctx
    | _ => false
  let s := { s with deck := { s.deck with queue := s.deck.queue.filter (fun e => !mine e) } }
  let s := modRctx o.d.rctx (fun r => { r with positions := r.positions.map (fun p =>
    (p.1, if p.2.queued then { p.2 with queued := false, held := true } else p.2)) }) s
  match o.command with
  | some run => complete run stState 0 0 [] s
  | none => s

/-- Requests whose image has gone with its stack are served by a sweep. -/
def requeueWaits (s : State) : State :=
  s.hbm.waits.foldl (fun s w => if (findImage s w.octx w.seg w.chunk w.bank).isNone then queueGather w.octx w.seg w.chunk w.bank s else s) s

/-- A stack: its contents, its deep berths and every context with a bank range there (R57, R117). -/
def loseStack (k : Nat) (s : State) : State :=
  let os := s.octxs.filter (fun o => octxOnStack o.2.d k && o.2.state != .halted)
  let lo := k * (60 * 2 ^ 30)
  let s := { s with hbm := { s.hbm with mem := dropCells s.hbm.mem lo (lo + 60 * 2 ^ 30), stk := tabPut s.hbm.stk k Stack.reset,
                                        writes := s.hbm.writes.filter (fun w => stackOf w.addr != k) } }
  let s := s.rctxs.foldl (fun s r => if r.2.d.deep then stopUnnamed r.1 (ownAddr s) 2 s else s) s
  let s := raiseFault 7 0 k os.length 3 s
  mailboxRecord (requeueWaits (os.foldl (fun s o => haltOctx o.1 o.2 s) s))

/-- An engine (R275): its 8 slips leave service, STATE 2, and no bring-up there until the next reset. -/
def loseEngine (k detail : Nat) (s : State) : State :=
  let s := (List.range 8).foldl (fun s j => modSlip (8 * k + j) (fun p => { p with engineDead := true }) s) s
  moveSlips ((List.range 8).map (8 * k + ·)) .down 6 [⟨0, 1, k, detail, 3⟩] (modEngine k (fun e => { e with state := 2 }) s)

/-- A landing: its slips, its crossings, its buffer; what its sources still hold moves to the next landing (R160). The lane of
CROSSING_DOWN is a free value. -/
def loseLanding (l detail : Nat) (s : State) : State :=
  let s := moveSlips ((s.slips.map Prod.fst).filter (fun n => homeLanding n == l)) .down 9 [] s
  let xs := sortBy (fun a b => decide (a.first ≤ b.first)) (s.xings.filter (fun x => x.landing == l))
  let s := xs.foldl (fun s x => let f := fresh 2 s; xingDown x f.1.toNat f.2) s
  let y := getLanding s l
  let s := { s with lands := tabDel s.lands l }
  let s := y.voq.foldl (fun s q => q.reps.foldl (fun s r => returnTag r.pkt q.emit s) s) s
  let s := if y.sources.isEmpty || (landingsUp s).isEmpty then s
    else modLanding (originLanding s l) (fun z => { z with sources := z.sources ++ y.sources }) s
  raiseFault 4 1 l detail 3 s

/-- Commands running on a core complete with FAULTED, having changed nothing (R294). -/
def failCore (c : Nat) (s : State) : State :=
  let on (r : Running) : Bool := r.core == c
  let quotes := s.audit.signQueue.filterMap (fun i => match i with
    | .quote r _ => if on r then some r else none
    | _ => none)
  let cs := s.host.running.filter on ++ quotes ++ s.net.switchCmd.toList.filter on ++ (s.octxs.filterMap (fun o => o.2.command)).filter on
  let undo (k : Bank) : Bank := if k.state == .pending then { k with state := .idle } else k
  let s := modHost (fun h => { h with running := h.running.filter (fun r => !on r) }) s
  let s := { s with audit := { s.audit with signQueue := s.audit.signQueue.filter (fun i => match i with
    | .quote r _ => !on r
    | _ => true) } }
  let s := if (s.net.switchCmd.map on).getD false then
      { s with net := { s.net with switchAt := none, switchCmd := none, bank0 := undo s.net.bank0, bank1 := undo s.net.bank1 } }
    else s
  let s := { s with octxs := s.octxs.map (fun o =>
    (o.1, if (o.2.command.map on).getD false then
        { o.2 with command := none, sentReady := false, state := if o.2.state == .committing then .opened else o.2.state } else o.2)) }
  cs.foldl (fun s r => complete r stFaulted 0 0 [] s) s

/-- The units that exist. -/
def unitExists : UnitRef → Bool
  | .landing l => l < 8
  | .laneGroup g => g < 16
  | .engine k => k < 48
  | .stack k => k < 8
  | .core c => c < 16
  | .sha3 e => e < 192
  | .mldsa => true

/-- A unit is declared lost (R347): detection 0 self-test, 1 parity, 2 no answer; of an engine 0 no answer, 1 laser supply. -/
def loseUnit (u : UnitRef) (detail : Nat) (s : State) : State :=
  if unitLost s u || !unitExists u then s
  else
    let s := { s with units := s.units ++ [(u, detail)] }
    match u with
    | .laneGroup g => loseLaneGroup g detail s
    | .stack k => loseStack k s
    | .engine k => loseEngine k detail s
    | .landing l => loseLanding l detail s
    | .core c => failCore c (raiseFault 12 0 c detail 3 s)
    | .sha3 e => raiseFault 13 0 e 0 0 s
    | .mldsa => s

/-- Whether a unit has power and is watched by the fault collector (R329, R347). -/
def unitWatched (s : State) (u : UnitRef) : Bool :=
  s.aon.collector && (match u with
    | .core _ => true
    | .sha3 _ => true
    | .mldsa => false
    | _ => !s.aon.tripped)

/-- UNIT_HEARTBEAT_TIMEOUT (R347). -/
def execUnitHeartbeatTimeout (u : UnitRef) (s : State) : Result :=
  let d := match u with
    | .engine _ => 0
    | _ => 2
  if unitWatched s u then finish (loseUnit u d s) else finish s

/-- ENGINE_LOST (R275). -/
def execEngineLost (engine : Nat) (laserSupply : Bool) (s : State) : Result :=
  if unitWatched s (.engine engine) then finish (loseUnit (.engine engine) (b2n laserSupply) s) else finish s

/-! ### Parity (R345) -/

/-- PARITY cause 0 of a row of Table 14.6. Which address or index DETAIL names is a free value (log entry 34). -/
def parityFault (row unit level : Nat) (s : State) : State :=
  let f := fresh 56 s
  raiseFault 8 0 unit (row + 256 * f.1.toNat) level f.2

/-- A replica of a lost packet: a crossing copy remains to be sent again; one of a member packet is counted, and its message ends FAULTED,
as in R187. -/
def loseReplica (l : Nat) (q : Queued) (s : State) (r : Replica) : State :=
  let member := emissionsLeft q.emit 1 (sendDone stFaulted r.pkt (countLanding l 9 s))
  match r.dest with
  | .hawser _ => if r.pkt.hdr.egress != ownAddr s then returnTag r.pkt q.emit s else member
  | .crossing _ _ _ => member
  | .slip _ => s

/-- Row 0: a queued packet is discarded and counted. -/
def loseQueued (l entry : Nat) (s : State) : State :=
  match (getLanding s l).voq.find? (fun q => q.id == entry) with
  | none => s
  | some q =>
    let s := modLanding l (fun x => { x with voq := x.voq.filter (fun k => k.id != entry) }) s
    parityFault 0 l 0 (q.reps.foldl (loseReplica l q) s)

/-- Row 7: the update of a chunk is not applied, and the chunk is held. DETAIL names its position. -/
def holdUpdate (octx seg chunk : Nat) (s : State) : State :=
  let hit := (tabGet? s.octxs octx).bind (fun o => (tabGet? s.rctxs o.d.rctx).bind (fun r =>
    (r.positions.find? (fun p => p.2.queued &&
      (((knownOp r p.2.op).bind (fun op => segmentOf r o op p.2.chunk)) == some (seg, chunk)))).map (fun p => (o.d.rctx, p.1, p.2))))
  match hit with
  | none => s
  | some (c, q, p) =>
    let s := putPosition c q { p with queued := false, held := true } s
    let s := { s with deck := { s.deck with queue := s.deck.queue.filter (fun e => e.sweep != .update c q) } }
    raiseFault 8 0 octx (7 + 256 * (q % 2 ^ 56)) 2 s

/-- Row 8, second part: a record read of a gather sweep for requests fails; they are answered with FAULTED. -/
def failGather (octx seg chunk : Nat) (s : State) : State :=
  let mine (e : ReadySweep) : Bool := match e.sweep with
    | .gather o g j b =>
      o == octx && g == seg && j == chunk && (((tabGet? s.octxs octx).map (fun x => ((getChunk x seg chunk).bank b).visible)).getD false)
    | _ => false
  if s.deck.queue.any mine then
    let s := { s with deck := { s.deck with queue := s.deck.queue.filter (fun e => !mine e) } }
    parityFault 8 octx 0 (failWaits (fun w => w.octx == octx && w.seg == seg && w.chunk == chunk) stFaulted s)
  else s

/-- Row 8: a gather image, whole or still being formed, is formed again from its bank's records. -/
def reformImage (octx seg chunk version : Nat) (s : State) : State :=
  match findImage s octx seg chunk version with
  | none => s
  | some im =>
    if im.version = version then
      let s := mapImages (fun y => if y.octx = octx && y.seg = seg && y.chunk = chunk && y.bank = version % 2 then none else some y) s
      parityFault 8 octx 0 (queueGather octx seg chunk version s)
    else s

/-- The disposition of Table 14.6. -/
def disposeParity (loc : ParityLoc) (s : State) : State :=
  match loc with
  | .queued l e => loseQueued l e s
  | .copyOrHeld l peer pl lane =>
    match findXing s l peer pl with
    | some x => parityFault 1 l 2 (xingDown x lane s)
    | none => s
  | .contribution c q i => parityFault 2 c 0 (recallContribution c q i s)
  | .tally c q => parityFault 3 c 0 (refoldPosition c q s)
  | .laneGroup g => loseUnit (.laneGroup g) 1 s
  | .tableEntry l _ ok => if ok then countPurser 0x000B 1 s else loseUnit (.landing l) 1 s
  | .context c q => parityFault 6 c 0 (refoldPosition c q (countPurser 0x000B 1 s))
  | .oldRecord o g j =>
    let s' := holdUpdate o g j s
    if s' = s then failGather o g j s else s'
  | .gatherImage o g j v => reformImage o g j v s
  | .memLine k line => raiseFault 8 0 k (9 + 256 * line) 0 (mailboxRecord s)
  | .coreCache c => loseUnit (.core c) 1 s

/-- The stack whose read a location of Table 14.6 names (R346). -/
def parityStack (s : State) (loc : ParityLoc) : Option Nat :=
  let record (o g j b : Nat) : Option Nat := (tabGet? s.octxs o).bind (fun x => (tabGet? s.rctxs x.d.rctx).map (fun r => imageStack r x g j b))
  match loc with
  | .memLine k _ => some k
  | .oldRecord o g j => record o g j (((tabGet? s.octxs o).map (fun x => x.s)).getD 0)
  | .gatherImage o g j v => record o g j v
  | _ => none

/-- PARITY_FAILURE (R345): counted, and on a failed repeat disposed of. What a stack's own error correction reports of the read is counted
too (R346). -/
def execParityFailure (loc : ParityLoc) (r : ParityResult) (s : State) (ecc : EccResult := .clean) : Result :=
  let s := match parityStack s loc with
    | some k => countEcc k ecc s
    | none => s
  match r with
  | .ok => finish s
  | .retryOk => finish (countPurser 0x0005 1 s)
  | .failed => finish (disposeParity loc (countPurser 0x0006 1 s))

end Sys2Proof.Machine
end

