-- ==== Sys2Proof/Machine/Boot.lean ====
section
/-!
DEFINITION. Power-on, reset, boot and start-up (R355 to R359, R366, R372 to R383, R387, R390): the rows INPUT_IN_RANGE to DEV_RESET_EXPIRY.
-/
namespace Sys2Proof.Machine

def modAon (f : AlwaysOn → AlwaysOn) (s : State) : State := { s with aon := f s.aon }
def modSys (f : Sys → Sys) (s : State) : State := { s with sys := f s.sys }

/-! ### Reset and loss of power (R377) -/

/-- A monitor after a reset: its peak and its run outside the window start again. -/
def Monitor.restart (m : Monitor) : Monitor := { m with peak := m.value, sampled := false, outRun := 0, outRaised := false }

/-- Reset (R377): every domain but the always-on one returns to its reset state. The last record that reached FATAL stays as number 0
(R337), and the slot of a transfer becomes EMPTY (R370). -/
def resetModule (s : State) : State :=
  let s := abortTransfer s
  let prior := s.aon.priorFatal.map (fun r => { r with num := 0, state := 2, prior := true })
  { State.reset with
    aon := { s.aon with collector := false, tripped := false, lastEnd := none, losses := s.aon.losses + 1,
                        monitors := s.aon.monitors.map (fun m => (m.1, m.2.restart)) },
    flt := Faults.reset prior, freeCount := s.freeCount, outbox := s.outbox, pending := s.pending }

/-- Every domain loses power; the non-volatile store and the fuses keep what they hold. -/
def powerOff (s : State) : State :=
  let s := abortTransfer s
  let a := s.aon
  { State.reset with
    aon := { AlwaysOn.reset with
      stage := .off, railsUp := 0, pwrgood := false, resetN := a.resetN, hotSwapOpen := a.hotSwapOpen,
      slots := a.slots, nextSlot := a.nextSlot, goodSlot := a.goodSlot, fusedSv := a.fusedSv, revoked := a.revoked, losses := a.losses + 1,
      boot := { AlwaysOn.reset.boot with slot := a.boot.slot, recovered := a.boot.recovered } },
    sys := { Sys.reset with phase := .unpowered }, freeCount := s.freeCount, outbox := s.outbox, pending := s.pending }

/-- Event 5 of Table 16.1: RECOVERY_N is sampled, and the loops start. -/
def startLoops (recoveryN : Bool) (s : State) : State :=
  { modSys (fun y => { y with phase := .loopsStarting, recoveryN := recoveryN }) s with
    clk := { Clocks.reset with core := .starting, datapath := .starting, tide := .starting, cxlPhy := .starting,
                               hbm := (List.range 8).map (fun k => (k, LoopState.starting)) } }

/-- Event 5 at a time when no command tells RECOVERY_N's level: a free value. -/
def startLoopsFree (s : State) : State :=
  let f := fresh 1 s
  startLoops (f.1 == 1#1) f.2

/-- Event 5 at power-on: RECOVERY_N as sampled at the rising edge of RESET_N that the island recognised (R390). -/
def startLoopsEdge (s : State) : State :=
  match s.aon.edge with
  | some level => startLoops level s
  | none => startLoopsFree s

/-- A reset from inside the module, which then goes on from event 5. -/
def resetAndStart (s : State) : State := startLoopsFree (resetModule s)

/-! ### Power-on (R376, R387) -/

/-- INPUT_IN_RANGE: event 1. -/
def execInputInRange (s : State) : Result :=
  if s.aon.stage = .off then finish (modAon (fun a => { a with stage := .inputOn, railsUp := 0, hotSwapOpen := false }) s)
  else finish s

/-- INPUT_STABLE: event 2. -/
def execInputStable (s : State) : Result :=
  if s.aon.stage = .inputOn then finish (modAon (fun a => { a with stage := .busOn }) s) else finish s

/-- RAIL_IN_WINDOW: the intermediate bus, then the seven rails of event 3; with the last, event 4, and event 5 if RESET_N is high. -/
def execRailInWindow (s : State) : Result :=
  if s.aon.stage != .busOn then finish s
  else if s.aon.railsUp < 7 then finish (modAon (fun a => { a with railsUp := a.railsUp + 1 }) s)
  else
    let s := modAon (fun a => { a with railsUp := 8, stage := .railsOn, pwrgood := true }) s
    let s := modSys (fun y => { y with phase := .inReset }) s
    finish (if s.aon.resetN then startLoopsEdge s else s)

/-- INPUT_OUT_OF_RANGE (R377). -/
def execInputOutOfRange (s : State) : Result := if s.aon.stage = .off then finish s else finish (powerOff s)

/-- INPUT_UNDERVOLTAGE (R387). -/
def execInputUndervoltage (s : State) : Result := if s.aon.stage = .off then finish s else finish (powerOff s)

/-- INPUT_OVERVOLTAGE (R387): the hot-swap switch opens too. -/
def execInputOvervoltage (s : State) : Result :=
  let s := modAon (fun a => { a with hotSwapOpen := true }) s
  if s.aon.stage = .off then finish s else finish (powerOff s)

/-! ### RESET_N (R377, R390) -/

/-- RESET_ASSERT. -/
def execResetAssert (s : State) : Result :=
  let s := modAon (fun a => { a with resetN := false, edge := none, boot := { a.boot with retried := false } }) s
  if s.aon.stage = .railsOn then finish (resetModule s) else finish s

/-- RESET_RELEASE: a rising edge, at which a running island samples RECOVERY_N (R390); with PWRGOOD asserted, event 5. -/
def execResetRelease (recoveryN : Bool) (s : State) : Result :=
  if s.aon.resetN then finish s
  else
    let s := modAon (fun a => { a with resetN := true, edge := if a.stage = .off then none else some recoveryN }) s
    finish (if s.aon.pwrgood then startLoops recoveryN s else s)

/-- DEV_RESET_EXPIRY: 1 ms after DEV_RESET completed. -/
def execDevResetExpiry (s : State) : Result :=
  match s.sys.devResetAt with
  | none => finish s
  | some t =>
    if tideReached t (now s) then finish (resetAndStart (modAon (fun a => { a with boot := { a.boot with retried := false } }) s)) else finish s

/-! ### The ROM (R355 to R359, R372, R373, R375) -/

/-- ROM recovery (R375): FIRMWARE cause 2. The boot that follows it is a trial. -/
def enterRecovery (detail : Nat) (s : State) : State :=
  let s := modAon (fun a => { a with boot := { a.boot with trial := false, started := false, reverting := false, recovered := true } }) s
  raiseFault 12 2 0 detail 4 (modSys (fun y => { y with phase := .recovery }) s)

/-- A failed trial (R373): the slot is INVALID, and the other is next. -/
def failTrial (s : State) : State :=
  let b := s.aon.boot
  let s := putSlot b.slot { getSlot s b.slot with state := 3 } s
  modAon (fun a => { a with nextSlot := otherSlot b.slot,
                            boot := { b with started := false, retried := false, trial := false, reverting := true } }) s

/-- The firmware of a slot is started: the alias key and its certificate are derived, and the device secret is locked (R358). -/
def startFirmware (i : Nat) (s : State) : State :=
  let x := getSlot s i
  let cdi := sha3 (ascii "DZF-CDI" ++ secretBytes ++ x.measurement)
  let xi := (sha3 (ascii "DZF-ALIAS" ++ cdi)).take 32
  let pk := Config.mldsaPublicKey xi
  let cert := aliasCertificate pk x.version x.securityVersion x.measurement s.freeCount
  let s := modAon (fun a => { a with boot := { a.boot with
    slot := i, trial := a.boot.recovered || a.goodSlot != some i, reverted := false, recovered := false, started := true, passed := false } }) s
  modSys (fun y => { y with phase := .startup, secretLocked := true, aliasSeed := xi, aliasKeyId := sha3 pk, aliasCert := cert,
                            fwMeasurement := x.measurement }) { s with freeCount := s.freeCount + 1 }

/-- The ROM's choice of slot (R372); a retry boots the same slot again (R373). -/
def chooseImage (s : State) : State :=
  let a := if s.aon.boot.retried then s.aon.boot.slot else s.aon.nextSlot
  let x := judgeSlot s (getSlot s a)
  let s := putSlot a x s
  if x.state = 2 then startFirmware a s
  else
    let b := otherSlot a
    let y := judgeSlot s (getSlot s b)
    let s := putSlot b y s
    if y.state = 2 then startFirmware b (modAon (fun a => { a with nextSlot := b }) s) else enterRecovery 0 s

/-- Events 6 and 7: the fault collector and the ROM start; a trial that a reset interrupted has failed (R373). -/
def runRom (s : State) : State :=
  let b := s.aon.boot
  let s := if b.started && b.trial && !b.passed then failTrial s else s
  let s := modAon (fun a => { a with collector := true }) s
  let s := { s with deck := { s.deck with trunc := true }, host := { s.host with bar0 := true } }
  if s.sys.recoveryN then chooseImage s else enterRecovery 1 s

/-! ### Phase-locked loops (R317, R334, R383) -/

/-- PLL_LOCK: the loop locks. The core's lock starts the ROM, the tide's the tide count from 0. -/
def execPllLock (l : Loop) (s : State) : Result :=
  match l with
  | .core =>
    if s.clk.core = .starting then
      let s := { s with clk := { s.clk with core := .locked } }
      finish (if s.sys.phase = .loopsStarting then runRom s else s)
    else finish s
  | .datapath =>
    if s.clk.datapath = .starting then finish { s with clk := { s.clk with datapath := .locked } } else finish s
  | .tide =>
    if s.clk.tide = .starting then
      finish (elect (modTide (fun t => { t with count := 0 }) { s with clk := { s.clk with tide := .locked } }))
    else finish s
  | .cxlPhy =>
    if s.clk.cxlPhy = .starting then finish { s with clk := { s.clk with cxlPhy := .locked } } else finish s
  | .hbm k =>
    if tabGet s.clk.hbm k .stopped = .starting then finish { s with clk := { s.clk with hbm := tabPut s.clk.hbm k .locked } }
    else finish s
  | .serdes k =>
    if tabGet s.clk.serdes k .stopped = .starting then finish { s with clk := { s.clk with serdes := tabPut s.clk.serdes k .locked } }
    else finish s

/-- PLL_LOCK_LOSS: of the core, datapath and tide loops, for good until reset, with CLOCK cause 1; of another, until it locks again. -/
def execPllLockLoss (l : Loop) (s : State) : Result :=
  match l with
  | .core =>
    if s.clk.core = .locked then finish (raiseFault 9 1 0 0 4 { s with clk := { s.clk with core := .stopped } }) else finish s
  | .datapath =>
    if s.clk.datapath = .locked then finish (raiseFault 9 1 1 0 4 { s with clk := { s.clk with datapath := .stopped } }) else finish s
  | .tide =>
    if s.clk.tide = .locked then finish (raiseFault 9 1 2 0 4 { s with clk := { s.clk with tide := .stopped } }) else finish s
  | .cxlPhy =>
    if s.clk.cxlPhy = .locked then finish { s with clk := { s.clk with cxlPhy := .starting } } else finish s
  | .hbm k =>
    if tabGet s.clk.hbm k .stopped = .locked then finish { s with clk := { s.clk with hbm := tabPut s.clk.hbm k .starting } }
    else finish s
  | .serdes k =>
    if tabGet s.clk.serdes k .stopped = .locked then finish { s with clk := { s.clk with serdes := tabPut s.clk.serdes k .starting } }
    else finish s

/-! ### Start-up (R379 to R381) -/

/-- Whether start-up has loaded the components and goes on. -/
def starting (s : State) : Bool := s.sys.phase == .startup && s.sys.componentsLoaded

/-- COMPONENT_LOAD_DONE. -/
def execComponentLoadDone (s : State) : Result :=
  if s.sys.phase = .startup then finish (modSys (fun y => { y with componentsLoaded := true }) s) else finish s

/-- Whether every lane group has been tested. -/
def deckTested (tested : List UnitRef) : Bool := (List.range 16).all (fun g => tested.contains (.laneGroup g))

/-- Whether the clock of a unit runs, locked (R317, Table 13.2). -/
def unitClocked (s : State) : UnitRef → Bool
  | .landing _ | .laneGroup _ | .sha3 _ => s.clk.datapath == .locked
  | .core _ | .mldsa => s.clk.core == .locked
  | .stack k => tabGet? s.clk.hbm k == some .locked
  | .engine _ => true

/-- SELF_TEST_DONE (R380), of a unit whose clock runs: the deck leaves truncating mode after its last lane group's test. -/
def execSelfTestDone (u : UnitRef) (passed : Bool) (s : State) : Result :=
  if !starting s || s.sys.selfTested.contains u || !unitExists u || !unitClocked s u then finish s
  else
    let s := modSys (fun y => { y with selfTested := y.selfTested ++ [u] }) s
    let s := if passed then s else loseUnit u 0 s
    finish (if deckTested s.sys.selfTested then { s with deck := { s.deck with trunc := false } } else s)

/-- HBM_INIT_DONE (R381): failed stacks are lost, and MEM_READY is set. The others' loops have locked (R317). -/
def execHbmInitDone (failed : List Nat) (s : State) : Result :=
  let waits (k : Nat) : Bool := !failed.contains k && !unitLost s (.stack k) && !unitClocked s (.stack k)
  if !starting s || s.sys.memReady || s.aon.tripped || (List.range 8).any waits then finish s
  else
    let s := failed.foldl (fun s k => loseUnit (.stack k) 0 s) s
    let s := (List.range 8).foldl (fun s k => if unitLost s (.stack k) then s else modStack k (fun t => { t with init := true }) s) s
    finish (modSys (fun y => { y with memReady := true }) s)

/-- The units whose self-tests start-up waits for (Table 16.2). -/
def testedUnits : List UnitRef :=
  (List.range 16).map .laneGroup ++ (List.range 192).map .sha3 ++ (List.range 8).map .landing ++ (List.range 16).map .core ++ [.mldsa]

/-- Whether task 3 of start-up has ended. -/
def selfTestsDone (s : State) : Bool := testedUnits.all s.sys.selfTested.contains

/-- OPTICS_CALIBRATION_DONE (R379), after the self-tests: BIAS and TX_POWER are recorded, the laser stays at standby. -/
def execOpticsCalibrationDone (k : Nat) (passed : Bool) (bias : List Nat) (txPower : List Int) (s : State) : Result :=
  if !starting s || !selfTestsDone s || s.aon.tripped || s.sys.calibrated.contains k || 48 ≤ k then finish s
  else
    let s := modSys (fun y => { y with calibrated := y.calibrated ++ [k] }) s
    finish (if passed then modEngine k (fun e => { e with bias := bias, txPower := txPower, sampleTide := now s }) s
      else loseUnit (.engine k) 0 s)

/-- Whether start-up can complete (R379): every task done, and not every unit of a kind lost. -/
def startupDone (s : State) : Bool :=
  starting s && s.sys.memReady && selfTestsDone s && (List.range 48).all s.sys.calibrated.contains &&
    !(laneGroupsUp s).isEmpty && !(landingsUp s).isEmpty && (List.range 192).any (fun e => !unitLost s (.sha3 e))

/-- The island's steps when a boot passes (R372): GOOD_SLOT, fuses, revocation, the other slot. -/
def passBoot (s : State) : State :=
  let b := s.aon.boot
  let x := getSlot s b.slot
  let sv := max s.aon.fusedSv x.securityVersion
  let revoke : BitVec 4 := BitVec.ofNat 4 (x.num 22 1)
  let s := modAon (fun a => { a with goodSlot := some b.slot, fusedSv := sv, revoked := a.revoked ||| revoke }) s
  let y := getSlot s (otherSlot b.slot)
  let s := if 2 ≤ y.state && y.securityVersion < sv then putSlot (otherSlot b.slot) { y with state := 3, detail := 6 } s else s
  let s := if b.reverting then raiseFault 12 1 b.slot 0 1 s else s
  modAon (fun a => { a with boot := { b with reverted := b.reverting, reverting := false, retried := false, passed := true } }) s

/-- STARTUP_COMPLETE (R372): READY is set. -/
def execStartupComplete (s : State) : Result :=
  if startupDone s then finish (modSys (fun y => { y with phase := .ready }) (passBoot s)) else finish s

/-- HEALTH_CHECK_TIMEOUT (R373): a trial fails, any other boot is retried once; then the ROM boots again. A trip lasts until an external
reset (R329), so it is not ended so. -/
def execHealthCheckTimeout (s : State) : Result :=
  if s.sys.phase != .startup || s.aon.tripped then finish s
  else if s.aon.boot.trial || s.aon.boot.retried then finish (resetAndStart (failTrial s))
  else finish (resetAndStart (modAon (fun a => { a with boot := { a.boot with retried := true } }) s))

end Sys2Proof.Machine
end

