-- ==== Sys2Proof/Machine/Rings.lean ====
section
/-!
DEFINITION. BAR0 and the rings (R7, R8, R286 to R298, R378): the rows BAR0_REFUSED_ACCESS to EVENT_RING_WRITE.
-/
namespace Sys2Proof.Machine

/-! ### Resets of ring state -/

/-- Every queue pair with its index and status reset, ENABLE cleared and undispatched commands discarded (R287). -/
def QueuePair.ringReset (p : QueuePair) : QueuePair :=
  { p with ctrl := { p.ctrl with enable := false }, status := RingStatus.reset, sqTail := 0, sqHead := 0, cqHead := 0,
           cqTail := 0, fetched := [], unsignalled := 0 }

def RingPort.ringReset (p : RingPort) : RingPort :=
  { p with ctrl := { p.ctrl with enable := false }, status := RingStatus.reset, head := 0, tail := 0, unsignalled := 0 }

/-- A command's completion will be discarded if it came over a ring (R287). -/
def Running.orphaned (r : Running) : Running :=
  match r.x.src with
  | .ring _ => { r with orphan := true }
  | .service _ => r

/-- A quote's command orphaned. -/
def SignItem.orphaned (i : SignItem) : SignItem :=
  match i with
  | .quote r b => .quote r.orphaned b
  | x => x

/-- The reset of ring state (R287): dispatched commands run on, their completions orphaned wherever they wait. -/
def ringReset (s : State) : State :=
  { modHost (fun h => { h with qps := h.qps.map (fun p => (p.1, p.2.ringReset)), ev := h.ev.ringReset, aud := h.aud.ringReset,
                               running := h.running.map Running.orphaned }) s with
    net := { s.net with switchCmd := s.net.switchCmd.map Running.orphaned },
    octxs := s.octxs.map (fun o => (o.1, { o.2 with command := o.2.command.map Running.orphaned })),
    audit := { s.audit with signQueue := s.audit.signQueue.map SignItem.orphaned } }

/-! ### BAR0 accesses (R286) -/

/-- Whether an 8-byte register lies at an offset (Table 11.3). -/
def reg8 (o : Nat) : Bool :=
  o == 0x0008 || o == 0x0018 || o == 0x0100 || o == 0x0108 ||
    (0x1000 ≤ o && o < 0x1800 && o % 0x80 < 0x18 && o % 8 == 0) || (0x8000 ≤ o && o < 0x8400) || o == 0x9000

/-- Whether a register of BAR0 accepts an access (R286). BAR2, from 0x10000 up here, is CXL 3.1's. -/
def accessOk (o size : Nat) : Bool := 0x10000 ≤ o || (size == 4 && o % 4 == 0) || (size == 8 && o % 8 == 0 && reg8 o)

/-- A ring control register as read (Table 11.5). -/
def RingCtrl.word (c : RingCtrl) : Nat :=
  b2n c.enable + 2 * b2n c.ordered + 2 ^ 3 * c.log2 + 2 ^ 8 * c.cqLog2 + 2 ^ 13 * c.vector + 2 ^ 19 * b2n c.irqEn +
    2 ^ 24 * c.coalCount + 2 ^ 28 * c.coalTime

/-- AUD_CTRL as read: ENABLE, ORDERED and both sizes are RSVD (Table 11.3). -/
def RingCtrl.audWord (c : RingCtrl) : Nat := { c with enable := false, ordered := false, log2 := 0, cqLog2 := 0 : RingCtrl }.word

/-- A ring status register as read (Table 11.6). -/
def RingStatus.word (t : RingStatus) : Nat :=
  b2n t.idle + 2 * b2n t.overrun + 4 * b2n t.cfgErr + 8 * b2n t.dmaErr + 16 * b2n t.dupTag + 32 * b2n t.lost

/-- The low or high half of an 8-byte value. -/
def half (v : Nat) (high : Bool) : Nat := if high then v / 2 ^ 32 % 2 ^ 32 else v % 2 ^ 32

/-- A queue pair's register, by its offset in the pair's 0x80 bytes (Table 11.3). -/
def readQp (p : QueuePair) (o : Nat) : Nat :=
  match o with
  | 0x00 => half p.sqBase false
  | 0x04 => half p.sqBase true
  | 0x08 => half p.cqBase false
  | 0x0C => half p.cqBase true
  | 0x10 => half p.cqWb false
  | 0x14 => half p.cqWb true
  | 0x18 => p.ctrl.word
  | 0x1C => p.status.word
  | 0x20 => p.sqTail.toNat
  | 0x24 => p.sqHead.toNat
  | 0x28 => p.cqHead.toNat
  | 0x2C => p.cqTail.toNat
  | _ => 0

/-- BAR2 as read: HDM decoder 0, with its size of 480 GiB and its commit state (R284), and Memory Device Status, which reports
the media ready once the memory is and the mailbox ready (R285, R299). PRESUMED from CXL 3.1 (log entry 7). -/
def readBar2 (s : State) (o : Nat) : Nat :=
  if o = Config.memoryDeviceStatus then 4 * b2n s.sys.memReady + 16
  else if o < Config.hdmCapability then (Config.configDword (0x10000 + o)).toNat
  else
    match o - Config.hdmCapability with
    | 0x10 => tabGet s.host.hdmStage 0x10 0
    | 0x14 => tabGet s.host.hdmStage 0x14 0
    | 0x18 => half areaSize false
    | 0x1C => half areaSize true
    | 0x20 => tabGet s.host.hdmStage 0x20 0 + 2 ^ 10 * b2n s.host.hdmBase.isSome
    | _ => (Config.configDword (0x10000 + o)).toNat

/-- The 4 bytes at an offset as read (Table 11.3); what the table does not name reads 0 (R7, R286). -/
def readDword (s : State) (o : Nat) : Nat :=
  if 0x10000 ≤ o then readBar2 s (o - 0x10000)
  else if 0x8000 ≤ o && o < 0x8400 then tabGet s.host.msix ((o - 0x8000) / 4) (if o % 16 = 12 then 1 else 0)
  else if 0x1000 ≤ o && o < 0x1800 then readQp (getQp s ((o - 0x1000) / 0x80)) ((o - 0x1000) % 0x80)
  else
    match o with
    | 0x0000 => 0x0384 + 2 ^ 16 * Config.stepping.toNat
    | 0x0008 => half serial64 false
    | 0x000C => half serial64 true
    | 0x0010 => devStatus s
    | 0x0018 => half (now s).toNat false
    | 0x001C => s.host.tideLatch.getD (half (now s).toNat true)
    | 0x0100 => half s.host.ev.base false
    | 0x0104 => half s.host.ev.base true
    | 0x0108 => half s.host.ev.wb false
    | 0x010C => half s.host.ev.wb true
    | 0x0110 => s.host.ev.ctrl.word
    | 0x0114 => s.host.ev.head.toNat
    | 0x0118 => s.host.ev.tail.toNat
    | 0x011C => s.host.ev.status.word
    | 0x0140 => s.host.aud.ctrl.audWord
    | 0x0144 => s.host.aud.head.toNat
    | 0x0148 => s.host.aud.tail.toNat
    | 0x014C => s.host.aud.status.word
    | 0x9000 => half s.host.msixPending.toNat false
    | 0x9004 => half s.host.msixPending.toNat true
    | _ => 0

/-- The value of a read of 4 or 8 bytes that is accepted; an 8-byte read of TIDE gives one count. -/
def readRegister (s : State) (o size : Nat) : Nat :=
  if o = 0x0018 && size = 8 then (now s).toNat
  else if size = 8 then readDword s o + 2 ^ 32 * readDword s (o + 4)
  else readDword s o

/-- What a read leaves behind (R286): a 4-byte read of the low half of TIDE latches the high half, and the next of the high half takes
the latch. -/
def afterRead (o size : Nat) (s : State) : State :=
  if o = 0x0018 && size = 4 then modHost (fun h => { h with tideLatch := some (half (now s).toNat true) }) s
  else if o = 0x001C && size = 4 then modHost (fun h => { h with tideLatch := none }) s
  else s

/-- A read that BAR0 accepts (R7, R286). -/
def readBar0 (o size : Nat) (s : State) : State := afterRead o size (emit (.registerData (readRegister s o size)) s)

/-- BAR0_REFUSED_ACCESS (R286): an access that no register accepts completes normally, reads 0, writes nothing and is counted. The
row brings every read of BAR0, so an accepted read is answered with the register's value (R7, log entry 7). -/
def execBar0RefusedAccess (o size : Nat) (write : Bool) (s : State) : Result :=
  if accessOk o size then finish (if write then s else readBar0 o size s)
  else
    let s := countPurser 0x0000 1 s
    finish (if write then s else emit (.registerData 0) s)

/-- TIDE_LOW_READ (R286): the low half is answered and the high half latched. -/
def execTideLowRead (s : State) : Result := finish (readBar0 0x0018 4 s)

/-! ### Ring control (R288) -/

/-- CFG_ERR of a ring (Table 11.6); a queue pair reports it by RING_ERROR. -/
def cfgError (r : RingId) (s : State) : State :=
  match r with
  | .qp q => ringError q 0 2 (modQp q (fun p => { p with status := { p.status with cfgErr := true } }) s)
  | .ev => modHost (fun h => { h with ev := { h.ev with status := { h.ev.status with cfgErr := true } } }) s
  | .aud => modHost (fun h => { h with aud := { h.aud with status := { h.aud.status with cfgErr := true } } }) s

def ringCtrl (s : State) (r : RingId) : RingCtrl :=
  match r with
  | .qp q => (getQp s q).ctrl
  | .ev => s.host.ev.ctrl
  | .aud => s.host.aud.ctrl

def ringStatus (s : State) (r : RingId) : RingStatus :=
  match r with
  | .qp q => (getQp s q).status
  | .ev => s.host.ev.status
  | .aud => s.host.aud.status

def setStatus (r : RingId) (f : RingStatus → RingStatus) (s : State) : State :=
  match r with
  | .qp q => modQp q (fun p => { p with status := f p.status }) s
  | .ev => modHost (fun h => { h with ev := { h.ev with status := f h.ev.status } }) s
  | .aud => modHost (fun h => { h with aud := { h.aud with status := f h.aud.status } }) s

def setCtrl (r : RingId) (c : RingCtrl) (s : State) : State :=
  match r with
  | .qp q => modQp q (fun p => { p with ctrl := c }) s
  | .ev => modHost (fun h => { h with ev := { h.ev with ctrl := c } }) s
  | .aud => modHost (fun h => { h with aud := { h.aud with ctrl := c } }) s

/-- Every index of a ring to 0 (R288). -/
def zeroIndices (r : RingId) (s : State) : State :=
  match r with
  | .qp q => modQp q (fun p => { p with sqTail := 0, sqHead := 0, cqHead := 0, cqTail := 0, unsignalled := 0 }) s
  | .ev => modHost (fun h => { h with ev := { h.ev with head := 0, tail := 0, unsignalled := 0 } }) s
  | .aud => modHost (fun h => { h with aud := { h.aud with head := 0, tail := 0, unsignalled := 0 } }) s

/-- Whether the rings hold a queue pair of this number (Table 11.3). -/
def ringNamed (r : RingId) : Bool :=
  match r with
  | .qp q => q < 16
  | _ => true

/-- RSVD bits of a ring control value (Table 11.5); for AUD_CTRL also ENABLE, ORDERED and both sizes (Table 11.3). -/
def ctrlRsvd (r : RingId) (v : Nat) : Bool :=
  bit v 2 || bits v 23 20 != 0 || decide (2 ^ 32 ≤ v) ||
    (match r with
      | .aud => bit v 0 || bit v 1 || bits v 12 3 != 0
      | _ => false)

/-- Sizes of a control value lie in 6-16; the event ring has the first size only. -/
def sizesOk (r : RingId) (v : Nat) : Bool :=
  let a := bits v 7 3
  let b := bits v 12 8
  match r with
  | .qp _ => 6 ≤ a && a ≤ 16 && 6 ≤ b && b ≤ 16
  | .ev => 6 ≤ a && a ≤ 16
  | .aud => true

/-- A write of a ring control register (R288, R378). DESIGN CHOICE: EV_CTRL stores ORDERED and CQ_LOG2, which Table 11.5 marks
"QP_CTRL only", unchecked and without effect, and a COAL_COUNT above 8 is stored as written (log entry 7). -/
def writeCtrl (r : RingId) (v : Nat) (s : State) : State :=
  let c := ringCtrl s r
  let enable := match r with
    | .aud => c.enable
    | _ => bit v 0
  let sizes := match r with
    | .qp _ => (bits v 7 3, bits v 12 8)
    | .ev => (bits v 7 3, bits v 12 8)
    | .aud => (c.log2, c.cqLog2)
  let resized := match r with
    | .qp _ => sizes != (c.log2, c.cqLog2)
    | _ => sizes.1 != c.log2
  if ctrlRsvd r v || !sizesOk r v || (resized && (c.enable || !(ringStatus s r).idle)) ||
      (enable && !c.enable && !running s) then cfgError r s
  else
    let c' : RingCtrl :=
      { enable := enable, ordered := bit v 1, log2 := sizes.1, cqLog2 := sizes.2, vector := bits v 18 13,
        irqEn := bit v 19, coalCount := bits v 27 24, coalTime := bits v 31 28 }
    let s := setCtrl r c' s
    if enable && !c.enable then setStatus r (fun t => { t with idle := false }) (zeroIndices r s) else s

/-- RING_CONFIG_WRITE (R288). -/
def writeRingReg (r : RingId) (reg : RingReg) (v : Nat) (s : State) : State :=
  let free := !(ringCtrl s r).enable && (ringStatus s r).idle
  match r, reg with
  | _, .ctrl => writeCtrl r v s
  | .qp q, .base =>
    if free && v % 4096 = 0 then modQp q (fun p => { p with sqBase := v % 2 ^ 64 }) s else cfgError r s
  | .qp q, .cqBase =>
    if free && v % 4096 = 0 then modQp q (fun p => { p with cqBase := v % 2 ^ 64 }) s else cfgError r s
  | .qp q, .writeBack =>
    if free && v % 8 = 0 then modQp q (fun p => { p with cqWb := v % 2 ^ 64 }) s else cfgError r s
  | .ev, .base =>
    if free && v % 4096 = 0 then modHost (fun h => { h with ev := { h.ev with base := v % 2 ^ 64 } }) s else cfgError r s
  | .ev, .writeBack =>
    if free && v % 8 = 0 then modHost (fun h => { h with ev := { h.ev with wb := v % 2 ^ 64 } }) s else cfgError r s
  | .ev, .cqBase => s
  | .aud, _ => s

def execRingConfigWrite (r : RingId) (reg : RingReg) (v : Nat) (s : State) : Result :=
  if ringNamed r then finish (writeRingReg r reg v s) else finish s

/-- RING_ENABLE (R288, R378): a control write whose ENABLE bit is 1. -/
def execRingEnable (r : RingId) (v : Nat) (s : State) : Result :=
  if ringNamed r && bit v 0 then finish (writeCtrl r v s) else finish s

/-- RING_DISABLE (R288): a control write whose ENABLE bit is 0. -/
def execRingDisable (r : RingId) (v : Nat) (s : State) : Result :=
  if ringNamed r && !bit v 0 then finish (writeCtrl r v s) else finish s

/-- Whether something of a ring is in flight (Table 11.6). -/
def inFlight (s : State) (r : RingId) : Bool :=
  match r with
  | .qp q => !(getQp s q).fetched.isEmpty || !(runningOf s q).isEmpty
  | _ => false

/-- RING_IDLE (R288): nothing of a disabled ring remains in flight, and IDLE becomes 1. -/
def execRingIdle (r : RingId) (s : State) : Result :=
  if ringNamed r && !(ringCtrl s r).enable && !inFlight s r then
    finish (setStatus r (fun t => { t with idle := true }) s)
  else finish s

/-- A W1C bit after a write of 1 or 0, with a set in the same cycle winning (R8). -/
def w1c (old clear set : Bool) : Bool := set || (old && !clear)

/-- A write of a ring status register (R8, Table 11.6): `setting` holds the bits set in the same cycle. -/
def writeStatus (r : RingId) (v setting : Nat) (s : State) : State :=
  let isQp := match r with
    | .qp _ => true
    | _ => false
  let isEv := match r with
    | .ev => true
    | _ => false
  setStatus r (fun t =>
    { t with overrun := w1c t.overrun (bit v 1) (bit setting 1), cfgErr := w1c t.cfgErr (bit v 2) (bit setting 2),
             dmaErr := w1c t.dmaErr (bit v 3) (bit setting 3),
             dupTag := isQp && w1c t.dupTag (bit v 4) (bit setting 4),
             lost := isEv && w1c t.lost (bit v 5) (bit setting 5) }) s

/-- STATUS_W1C_WRITE (R8). -/
def execStatusW1cWrite (r : RingId) (v setting : Nat) (s : State) : Result :=
  if ringNamed r then finish (writeStatus r v setting s) else finish s

/-! ### Doorbells (R289) -/

/-- Whether an index may move forward to a value with `room` left (R289). -/
def doorbellOk (old new : Index) (room : Nat) : Bool := decide ((new - old).toNat ≤ room)

def overrun (r : RingId) (s : State) : State := setStatus r (fun t => { t with overrun := true }) s

/-- An invalid doorbell write of a queue pair: OVERRUN, ENABLE cleared, RING_ERROR. -/
def qpOverrun (q : Nat) (s : State) : State :=
  ringError q 0 1 (modQp q (fun p => { p with ctrl := { p.ctrl with enable := false } }) (overrun (.qp q) s))

/-- SQ_TAIL may move to at most SQ_HEAD + 2^LOG2 (R289). -/
def writeSqTail (q : Nat) (v : Index) (s : State) : State :=
  let p := getQp s q
  if doorbellOk p.sqTail v (2 ^ p.ctrl.log2 - (p.sqTail - p.sqHead).toNat) then modQp q (fun p => { p with sqTail := v }) s
  else qpOverrun q s

/-- CQ_HEAD may move to at most CQ_TAIL (R289). -/
def writeCqHead (q : Nat) (v : Index) (s : State) : State :=
  let p := getQp s q
  if doorbellOk p.cqHead v (p.cqTail - p.cqHead).toNat then modQp q (fun p => { p with cqHead := v }) s else qpOverrun q s

/-- EV_HEAD may move to at most EV_TAIL (R289). -/
def writeEvHead (v : Index) (s : State) : State :=
  let p := s.host.ev
  if doorbellOk p.head v (p.tail - p.head).toNat then modHost (fun h => { h with ev := { h.ev with head := v } }) s
  else overrun .ev s

/-- AUD_HEAD may move to at most AUD_TAIL (R289). -/
def writeAudHead (v : Index) (s : State) : State :=
  let p := s.host.aud
  if doorbellOk p.head v (p.tail - p.head).toNat then modHost (fun h => { h with aud := { h.aud with head := v } }) s
  else overrun .aud s

/-- SQ_TAIL_DOORBELL (R289). -/
def execSqTailDoorbell (q : Nat) (v : Index) (s : State) : Result :=
  if q < 16 then finish (writeSqTail q v s) else finish s

/-- CQ_HEAD_DOORBELL (R289). -/
def execCqHeadDoorbell (q : Nat) (v : Index) (s : State) : Result :=
  if q < 16 then finish (writeCqHead q v s) else finish s

/-- EV_HEAD_DOORBELL (R289). -/
def execEvHeadDoorbell (v : Index) (s : State) : Result := finish (writeEvHead v s)

/-- AUD_HEAD_DOORBELL (R289). -/
def execAudHeadDoorbell (v : Index) (s : State) : Result := finish (writeAudHead v s)

/-! ### Other registers (R7, R283, R284, R298) -/

/-- Vectors unmasked with their pending bit set are sent (as PCIe defines, log entry 7). -/
def flushPending (s : State) : State :=
  (List.range 64).foldl (fun s v =>
    if s.host.msixPending.getLsbD v && !vectorMasked s.host v then
      emit (.interrupt v) (modHost (fun h => { h with msixPending := h.msixPending &&& ~~~(BitVec.ofNat 64 (2 ^ v)) }) s)
    else s) s

/-- One dword of the MSI-X table. -/
def writeMsix (d v : Nat) (s : State) : State := modHost (fun h => { h with msix := tabPut h.msix d (v % 2 ^ 32) }) s

/-- One dword of HDM decoder 0, at offsets 0x10 to 0x20 of the capability: base low and high, size, control (PRESUMED from CXL 3.1,
log entry 7). Bit 9 of the control commits, unless bits 7:4 ask for an interleave, of which the decoder has one way only (R284):
then bit 11 reports that it did not. A committed range is fixed until bit 9 is cleared, which bit 8 of the commit forbids. -/
def writeHdm (d v : Nat) (s : State) : State :=
  let stage := s.host.hdmStage
  let put (x : Nat) (base : Option Nat) : State := modHost (fun h => { h with hdmStage := tabPut stage d x, hdmBase := base }) s
  let ctrl := v % 2 ^ 10
  if s.host.hdmBase.isSome then
    if d = 0x20 && !bit v 9 && !bit (tabGet stage 0x20 0) 8 then put ctrl none else s
  else if d = 0x20 then
    if !bit v 9 then put ctrl none
    else if bits v 7 4 != 0 then put (ctrl + 2 ^ 11) none
    else put ctrl (some (tabGet stage 0x10 0 + 2 ^ 32 * tabGet stage 0x14 0))
  else if d = 0x10 then put (v / 2 ^ 28 * 2 ^ 28 % 2 ^ 32) none
  else if d = 0x14 then put (v % 2 ^ 32) none
  else s

/-- REGISTER_WRITE (R7): BAR0 by offset, BAR2 from 0x10000 up. Registers with behaviour of their own act as their rows do;
RO and RSVD bits are ignored. -/
def writeRegister (o size v : Nat) (s : State) : State :=
  if 0x10000 ≤ o then
    if Config.hdmCapability + 0x10000 ≤ o && size = 4 then writeHdm (o - 0x10000 - Config.hdmCapability) v s else s
  else if 0x8000 ≤ o && o < 0x8400 then
    let s := writeMsix ((o - 0x8000) / 4) v s
    flushPending (if size = 8 then writeMsix ((o - 0x8000) / 4 + 1) (v / 2 ^ 32) s else s)
  else if 0x1000 ≤ o && o < 0x1800 then
    let q := (o - 0x1000) / 0x80
    match (o - 0x1000) % 0x80, size with
    | 0x00, 8 => writeRingReg (.qp q) .base v s
    | 0x08, 8 => writeRingReg (.qp q) .cqBase v s
    | 0x10, 8 => writeRingReg (.qp q) .writeBack v s
    | 0x00, 4 => writeRingReg (.qp q) .base ((getQp s q).sqBase / 2 ^ 32 * 2 ^ 32 + v) s
    | 0x04, 4 => writeRingReg (.qp q) .base ((getQp s q).sqBase % 2 ^ 32 + v * 2 ^ 32) s
    | 0x08, 4 => writeRingReg (.qp q) .cqBase ((getQp s q).cqBase / 2 ^ 32 * 2 ^ 32 + v) s
    | 0x0C, 4 => writeRingReg (.qp q) .cqBase ((getQp s q).cqBase % 2 ^ 32 + v * 2 ^ 32) s
    | 0x10, 4 => writeRingReg (.qp q) .writeBack ((getQp s q).cqWb / 2 ^ 32 * 2 ^ 32 + v) s
    | 0x14, 4 => writeRingReg (.qp q) .writeBack ((getQp s q).cqWb % 2 ^ 32 + v * 2 ^ 32) s
    | 0x18, 4 => writeCtrl (.qp q) v s
    | 0x1C, 4 => writeStatus (.qp q) v 0 s
    | 0x20, 4 => writeSqTail q (BitVec.ofNat 32 v) s
    | 0x28, 4 => writeCqHead q (BitVec.ofNat 32 v) s
    | _, _ => s
  else
    match o, size with
    | 0x0100, 8 => writeRingReg .ev .base v s
    | 0x0108, 8 => writeRingReg .ev .writeBack v s
    | 0x0100, 4 => writeRingReg .ev .base (s.host.ev.base / 2 ^ 32 * 2 ^ 32 + v) s
    | 0x0104, 4 => writeRingReg .ev .base (s.host.ev.base % 2 ^ 32 + v * 2 ^ 32) s
    | 0x0108, 4 => writeRingReg .ev .writeBack (s.host.ev.wb / 2 ^ 32 * 2 ^ 32 + v) s
    | 0x010C, 4 => writeRingReg .ev .writeBack (s.host.ev.wb % 2 ^ 32 + v * 2 ^ 32) s
    | 0x0110, 4 => writeCtrl .ev v s
    | 0x0114, 4 => writeEvHead (BitVec.ofNat 32 v) s
    | 0x011C, 4 => writeStatus .ev v 0 s
    | 0x0140, 4 => writeCtrl .aud v s
    | 0x0144, 4 => writeAudHead (BitVec.ofNat 32 v) s
    | 0x014C, 4 => writeStatus .aud v 0 s
    | _, _ => s

def execRegisterWrite (o size v : Nat) (s : State) : Result :=
  if !accessOk o size then finish (countPurser 0x0000 1 s) else finish (writeRegister o size v s)

/-! ### Fetch and dispatch (R291 to R293, R305) -/

/-- Commands of a queue pair fetched and not completed. -/
def outstanding (s : State) (q : Nat) : Nat := (getQp s q).fetched.length + (runningOf s q).length

/-- Whether a queue pair may fetch (R291). -/
def canFetch (s : State) (q : Nat) : Bool :=
  let p := getQp s q
  q < 16 && running s && s.host.linkUp && p.ctrl.enable && p.sqHead != p.sqTail &&
    decide (outstanding s q + (p.cqTail - p.cqHead).toNat < 2 ^ p.ctrl.cqLog2)

/-- Whether a tag belongs to a command of the queue pair not yet completed (R293). -/
def tagInUse (s : State) (q tag : Nat) : Bool :=
  (getQp s q).fetched.any (fun c => c.tag == tag) || (runningOf s q).any (fun r => r.x.cmd.tag == tag)

/-- COMMAND_FETCH (R291, R293, R304): the 64 bytes of the entry as read; none where the read failed on the link. -/
def execCommandFetch (q : Nat) (entry : Option (List Byte)) (s : State) : Result :=
  if canFetch s q then
    match entry with
    | none => finish (dmaError q 0 s)
    | some b =>
      let c := parseCmd b
      let s1 := modQp q (fun p => { p with sqHead := p.sqHead + 1 }) s
      if tagInUse s q c.tag then
        finish (ringError q c.tag 0 (modQp q (fun p => { p with status := { p.status with dupTag := true } }) s1))
      else finish (modQp q (fun p => { p with fetched := p.fetched ++ [c] }) s1)
  else finish s

/-- A ring's command on a core, or, with an opcode of no table, completed at once with BAD_OPCODE (R309 item 1). -/
def dispatchOn (x : Exec) (s : State) : State :=
  if opcodeAssigned x.cmd.opcode then startOn x s
  else
    let k := chooseCore s
    complete { x := { x with desc := some [] }, core := k.1, orphan := false } stBadOpcode 0 0 [] k.2

/-- COMMAND_DISPATCH (R292, R305): the oldest fetched command starts on a core. -/
def execCommandDispatch (q : Nat) (desc : Option (List Byte)) (resultOk : Bool) (s : State) (entryOk : Bool := true) : Result :=
  match (getQp s q).fetched with
  | [] => finish s
  | c :: rest =>
    let x : Exec := { src := .ring q, cmd := c, desc := if c.descLen = 0 then some [] else desc, resultOk := resultOk, entryOk := entryOk }
    if mayDispatch s q x then finish (dispatchOn x (modQp q (fun p => { p with fetched := rest }) s)) else finish s

/-! ### Interrupt timers and the event ring -/

/-- Whether COAL_TIME has expired for a ring (R298). -/
def coalDue (c : RingCtrl) (u : Nat) (first t : Tide) : Bool :=
  c.irqEn && c.coalTime != 0 && u != 0 && decide (2 ^ (c.coalTime - 1) * 1000 ≤ tideSince first t)

/-- IRQ_COAL_TIMER (R298). -/
def execIrqCoalTimer (r : RingId) (s : State) : Result :=
  match r with
  | .qp q =>
    let p := getQp s q
    if coalDue p.ctrl p.unsignalled p.firstUnsignalled (now s) then
      finish (raiseVector p.ctrl.vector (modQp q (fun p => { p with unsignalled := 0 }) s))
    else finish s
  | .ev =>
    let p := s.host.ev
    if coalDue p.ctrl p.unsignalled p.firstUnsignalled (now s) then
      finish (raiseVector p.ctrl.vector (modHost (fun h => { h with ev := { h.ev with unsignalled := 0 } }) s))
    else finish s
  | .aud =>
    let p := s.host.aud
    if coalDue p.ctrl p.unsignalled p.firstUnsignalled (now s) then
      finish (raiseVector p.ctrl.vector (modHost (fun h => { h with aud := { h.aud with unsignalled := 0 } }) s))
    else finish s

/-- EVENT_RING_WRITE (R296). A write that fails on the link sets DMA_ERR (Table 11.6), and the event waits on (log entry 45). -/
def execEventRingWrite (s : State) (ok : Bool := true) : Result :=
  if ok then finish (writeEvent s)
  else if evRoom s && !s.host.evQueue.isEmpty then
    finish (setStatus .ev (fun t => { t with dmaErr := true }) (linkError s))
  else finish s

end Sys2Proof.Machine
end

