-- ==== Sys2Proof/Machine/Function.lean ====
section
/-!
DEFINITION. The host link, the function it enumerates and CXL.mem (R281 to R287, R324, R378): the rows CONFIG_REQUEST to
CXL_MEM_WRITE.
-/
namespace Sys2Proof.Machine

/-! ### The link -/

/-- Whether the host link's clock and power allow it to train (R317, R376). -/
def linkPowered (s : State) : Bool :=
  s.clk.cxlPhy == .locked && s.clk.core == .locked

/-- CXL_LINK_TRAINED: the link settles in a mode and width of R282. -/
def execCxlLinkTrained (mode width : Nat) (s : State) : Result :=
  if linkPowered s && mode ≤ 2 && (width == 4 || width == 8 || width == 16) then
    finish (modHost (fun h => { h with linkUp := true, linkMode := mode, width := width }) s)
  else finish s

/-- The link is lost: it has no mode and no width, and ring state is reset (R287). -/
def dropLink (s : State) : State := modHost (fun h => { h with linkUp := false, linkMode := 0, width := 0 }) (ringReset s)

/-- CXL_LINK_DOWN (R287): ring state is reset and HOST cause 0 is raised. -/
def execCxlLinkDown (s : State) : Result :=
  if s.host.linkUp then finish (raiseFault 14 0 0 0 1 (mailboxRecord (dropLink s))) else finish s

/-- LINK_HOT_RESET (R287). -/
def execLinkHotReset (s : State) : Result := finish (ringReset s)

/-- FUNCTION_LEVEL_RESET (R287). -/
def execFunctionLevelReset (s : State) : Result := finish (ringReset s)

/-- D3HOT_EXIT (R287). -/
def execD3hotExit (s : State) : Result := finish (ringReset s)

/-! ### Configuration requests (R281, R283, R284, R324, R378)

The registers and their fields are PCIe's and CXL's (PRESUMED, log entry 44); what the manual says of the function stands in them. -/

/-- The size mask of a base address register: BAR0 of 64 KiB and BAR2 of 128 KiB, no other (R283). -/
def barGrain (n : Nat) : Nat :=
  match n with
  | 0 => 2 ^ 16
  | 2 => 2 ^ 17
  | _ => 2 ^ 32

/-- The value of a configuration register. -/
def readConfig (s : State) (r : ConfigReg) : Nat :=
  let c := s.host.cfg
  match r with
  | .id => Config.vendorId.toNat + 2 ^ 16 * 0x0384
  | .command => c.command
  | .classCode => 0x050210
  | .bar n => tabGet c.bars n 0
  | .msixControl => 63 + 2 ^ 14 * b2n s.host.msixFnMask + 2 ^ 15 * b2n c.msixEnable
  | .msixTable => 0x8000
  | .msixPba => 0x9000
  | .deviceControl => c.deviceControl
  | .linkCapabilities => 6 + 2 ^ 4 * 16 + 2 ^ 10 * 2
  | .linkControl => c.linkControl
  | .l1Substates => c.l1Substates
  | .pmcsr => c.pmcsr
  | .aerUncStatus => c.aerUncStatus
  | .aerUncMask => c.aerUncMask
  | .aerUncSeverity => c.aerUncSeverity
  | .aerCorStatus => c.aerCorStatus
  | .aerCorMask => c.aerCorMask
  | .range1SizeHigh => half areaSize true
  | .range1SizeLow => half areaSize false + 1 + 2 * b2n s.sys.memReady
  | .other o => (Config.configDword o).toNat

/-- The configuration registers changed. -/
def modConfig (f : ConfigSpace → ConfigSpace) (s : State) : State := modHost (fun h => { h with cfg := f h.cfg }) s

/-- The bits of a status register that a write of 1 clears. -/
def clearBits (old v : Nat) : Nat := old &&& (0xFFFFFFFF ^^^ v % 2 ^ 32)

/-- A write of a configuration register. A function-level reset and a transition out of D3hot reset ring state (R287); L0s cannot be
enabled (R324); vectors that are no longer masked are sent (R298). -/
def writeConfig (r : ConfigReg) (v : Nat) (s : State) : State :=
  match r with
  | .command => modConfig (fun c => { c with command := v &&& 0x0546 }) s
  | .bar n => modConfig (fun c => { c with bars := tabPut c.bars n (v % 2 ^ 32 / barGrain n * barGrain n) }) s
  | .msixControl =>
    flushPending (modHost (fun h => { h with msixFnMask := bit v 14, cfg := { h.cfg with msixEnable := bit v 15 } }) s)
  | .deviceControl =>
    let s := modConfig (fun c => { c with deviceControl := v % 2 ^ 15 }) s
    if bit v 15 then ringReset s else s
  | .linkControl => modConfig (fun c => { c with linkControl := v % 2 ^ 16 &&& 0xFFFE }) s
  | .l1Substates => modConfig (fun c => { c with l1Substates := v % 2 ^ 32 }) s
  | .pmcsr =>
    let t := v % 4
    if t = 1 || t = 2 then s
    else
      let s' := modConfig (fun c => { c with pmcsr := t }) s
      if s.host.cfg.pmcsr = 3 && t = 0 then ringReset s' else s'
  | .aerUncStatus => modConfig (fun c => { c with aerUncStatus := clearBits c.aerUncStatus v }) s
  | .aerUncMask => modConfig (fun c => { c with aerUncMask := v % 2 ^ 32 }) s
  | .aerUncSeverity => modConfig (fun c => { c with aerUncSeverity := v % 2 ^ 32 }) s
  | .aerCorStatus => modConfig (fun c => { c with aerCorStatus := clearBits c.aerCorStatus v }) s
  | .aerCorMask => modConfig (fun c => { c with aerCorMask := v % 2 ^ 32 }) s
  | .id | .classCode | .msixTable | .msixPba | .linkCapabilities | .range1SizeHigh | .range1SizeLow | .other _ => s

/-- CONFIG_REQUEST (R378): a read, or a write of a value. Answered on a trained link, with Retry Status until BAR0 is readable. -/
def execConfigRequest (s : State) (r : ConfigReg := .id) (write : Option Nat := none) : Result :=
  if !s.host.linkUp then finish s
  else if !s.host.bar0 then finish (emit (.configAnswer true 0) s)
  else
    match write with
    | none => finish (emit (.configAnswer false (readConfig s r)) s)
    | some v => finish (emit (.configAnswer false 0) (writeConfig r v s))

/-! ### CXL.mem (R284, R285) -/

/-- The state-area offset of a host physical address, inside the decoder's committed range (R284). -/
def areaOffset (s : State) (hpa : Nat) : Option Nat :=
  match s.host.hdmBase with
  | some d => if d ≤ hpa && hpa < d + areaSize then some (hpa - d) else none
  | none => none

/-- Whether the link carries CXL.mem: not in PCIe-only mode (R282). -/
def cxlMemUp (s : State) : Bool := s.host.linkUp && s.host.linkMode != 2

/-- Whether a stack serves the link: the memory ready, the stack not lost (R285), its loop locked (R317; log entry 39). -/
def stackServes (s : State) (st : Nat) : Bool := s.sys.memReady && !unitLost s (.stack st) && tabGet? s.clk.hbm st == some .locked

/-- A line as read, counted by its parity check (R285, R345). -/
def readLine (line st : Nat) (p : ParityResult) (s : State) : State :=
  match p with
  | .ok => emit (.memData line (readBytes s line 64) false) s
  | .retryOk => emit (.memData line (readBytes s line 64) false) (countPurser 0x0005 1 s)
  | .failed =>
    emit (.memData line [] true) (raiseFault 8 0 st (9 + 256 * (line / 64)) 0 (mailboxRecord (countPurser 0x0006 1 s)))

/-- CXL_MEM_READ (R285, R346). -/
def execCxlMemRead (hpa : Nat) (p : ParityResult) (s : State) (e : EccResult := .clean) : Result :=
  if !cxlMemUp s then finish s
  else
    match areaOffset s hpa with
    | none => .fault .outsideDecoder
    | some off =>
      let line := off / 64 * 64
      let st := stackOf off
      if stackServes s st then finish (readLine line st p (countEcc st e (touchStack st s)))
      else finish (emit (.memData line [] true) s)

/-- CXL_MEM_WRITE (R285): a line written whole, or discarded and counted. -/
def execCxlMemWrite (hpa : Nat) (data : List Byte) (s : State) : Result :=
  if !cxlMemUp s then finish s
  else
    match areaOffset s hpa with
    | none => .fault .outsideDecoder
    | some off =>
      let line := off / 64 * 64
      let st := stackOf off
      if stackServes s st then finish (writeBytes line (fit 64 data) (touchStack st s)) else finish (countPurser 0x0003 1 s)

end Sys2Proof.Machine
end

