-- ==== Sys2Proof/Machine/Mailbox.lean ====
section
/-!
DEFINITION. The CXL memory-device mailbox in BAR2 (R299, Table 11.9). Payload layouts are CXL 3.1's (log entry 35); bytes the manual does
not give are constants without a value, or free values where they may change.
-/
namespace Sys2Proof.Machine

/-- Whether the host reaches BAR2: the link is up and the function's memory readable (R378). -/
def mailboxOpen (s : State) : Bool := s.host.linkUp && s.host.bar0

/-- Bytes of a standard payload that the manual leaves to CXL. -/
def standardBytes (key n : Nat) : List Byte := (List.range n).map (Config.cxlStandard key)

/-- Bytes with some replaced from an offset. -/
def overlay (off : Nat) (new base : List Byte) : List Byte := base.take off ++ new ++ base.drop (off + new.length)

/-- A mailbox command's answer, where the mailbox can be reached. -/
def mailboxAnswer (payload : State → List Byte × State) (s : State) : Result :=
  if mailboxOpen s then
    let r := payload s
    finish (emit (.mailbox false r.1) r.2)
  else finish s

/-- IDENTIFY: Device ID 0x0384 and SERIAL. -/
def execIdentify (s : State) : Result :=
  mailboxAnswer (fun s => (overlay 8 (le 8 serial64) (overlay 2 (le 2 0x0384) (standardBytes 0x0001 18)), s)) s

/-- IDENTIFY_MEMORY_DEVICE: 480 GiB in units of 256 MiB, all volatile; no partitions, no label storage area. -/
def execIdentifyMemoryDevice (s : State) : Result :=
  mailboxAnswer (fun s =>
    (overlay 0x38 (zeros 4) (overlay 0x10 (le 8 1920 ++ le 8 1920 ++ zeros 16) (standardBytes 0x4000 69)), s)) s

/-- The opcodes of the commands of Table 11.9, in CXL's numbering. -/
def mailboxOpcodes : List Nat :=
  [0x0001, 0x0100, 0x0101, 0x0102, 0x0103, 0x0200, 0x0300, 0x0301, 0x0400, 0x0401, 0x4000, 0x4200, 0x4201, 0x4202]

/-- The Command Effects Log: an entry a command. -/
def effectsLog : List Byte := (mailboxOpcodes.map (fun op => le 2 op ++ standardBytes (0x20000 + op) 2)).flatten

/-- GET_SUPPORTED_LOGS: the Command Effects Log only. -/
def execGetSupportedLogs (s : State) : Result :=
  mailboxAnswer (fun s => (le 2 1 ++ zeros 6 ++ standardBytes 0x0400 16 ++ le 4 effectsLog.length, s)) s

/-- GET_LOG: log 0 is the Command Effects Log; no other log is supported. -/
def execGetLog (log offset length : Nat) (s : State) : Result :=
  if mailboxOpen s && log != 0 then finish (emit (.mailbox true []) s)
  else mailboxAnswer (fun s => ((effectsLog.drop offset).take length, s)) s

/-- GET_EVENT_RECORDS: the records of a log, oldest first, behind a header with their count. -/
def execGetEventRecords (log : Nat) (s : State) : Result :=
  mailboxAnswer (fun s =>
    let rs := s.mbox.records.filter (fun r => r.1 == log)
    let f := fresh 160 s
    (le 20 f.1.toNat ++ le 2 rs.length ++ zeros 10 ++ (rs.map Prod.snd).flatten, f.2)) s

/-- CLEAR_EVENT_RECORDS: all records of a log, or those with the handles given. -/
def execClearEventRecords (log : Nat) (all : Bool) (handles : List Nat) (s : State) : Result :=
  mailboxAnswer (fun s =>
    ([], { s with mbox := { s.mbox with
      records := s.mbox.records.filter (fun r => !(r.1 == log && (all || handles.contains (field r.2 20 2)))) } })) s

/-- GET_EVENT_INTERRUPT_POLICY: a byte for each of the four logs. -/
def execGetEventInterruptPolicy (s : State) : Result := mailboxAnswer (fun s => (fit 4 s.mbox.policy, s)) s

/-- SET_EVENT_INTERRUPT_POLICY. -/
def execSetEventInterruptPolicy (policy : List Byte) (s : State) : Result :=
  mailboxAnswer (fun s => ([], { s with mbox := { s.mbox with policy := fit 4 policy } })) s

/-- The alert configuration as it reads: CXL's defaults until it is set. -/
def alertImage (s : State) : List Byte := if s.mbox.alerts.isEmpty then standardBytes 0x4201 16 else s.mbox.alerts

/-- The highest of the temperature sensors that read, whole degrees. -/
def deviceTemp (s : State) : Int :=
  (((List.range 64).filter (fun i => !(getMonitor s i).invalid)).map (fun i => (getMonitor s i).value / 100)).foldl max (-40)

/-- Errors that the stacks have corrected (R346). -/
def correctedErrors (s : State) : Nat :=
  min 0xFFFFFFFF ((List.range 8).map (fun k => (tabGet s.purser (0x0010 + k) zeroCounter).value)).sum

/-- A 16-bit temperature of the alert configuration. -/
def alertTemp (s : State) (off : Nat) : Int := (BitVec.ofNat 16 (field (alertImage s) off 2)).toInt

/-- The health of the F384 in CXL's layout (PRESUMED, log entry 35): maintenance needed while a fault of level 3 or above is uncleared
(Table 11.9); performance degraded while throttled; replacement needed once a unit is lost, capacity degraded once a stack is; media
not ready before the memory is; the temperature and the corrected errors, each with its alert; no life used, no dirty shutdown. -/
def healthBytes (s : State) : List Byte :=
  let stackLost := (List.range 8).any (fun k => unitLost s (.stack k))
  let t := deviceTemp s
  let on := field (alertImage s) 0 1
  let hot := if alertTemp s 4 ≤ t then 2 else if bit on 1 && alertTemp s 8 ≤ t then 1 else 0
  let errs := correctedErrors s
  le 1 (b2n (decide (3 ≤ faultLevel s)) + 2 * b2n (s.pwr.k != 16) + 4 * b2n (!s.units.isEmpty) + 8 * b2n stackLost) ++
    le 1 (b2n (!s.sys.memReady)) ++
    le 1 (4 * hot + 16 * b2n (bit on 3 && field (alertImage s) 12 2 ≤ errs)) ++
    le 1 0xFF ++ leInt 2 t ++ zeros 4 ++ le 4 errs ++ zeros 4

/-- GET_HEALTH_INFO. -/
def execGetHealthInfo (s : State) : Result := mailboxAnswer (fun s => (healthBytes s, s)) s

/-- GET_ALERT_CONFIGURATION. -/
def execGetAlertConfiguration (s : State) : Result := mailboxAnswer (fun s => (alertImage s, s)) s

/-- The configuration after a set: byte 0 of the new one says which alerts it sets, byte 1 which of them are on. -/
def setAlerts (new old : List Byte) : List Byte :=
  let valid := field new 0 1
  let on := field new 1 1
  let put (b off n src : Nat) (o : List Byte) : List Byte := if bit valid b then overlay off (bytesAt new src n) o else o
  let enabled := (List.range 5).map (fun b => if bit valid b then bit on b else bit (field old 0 1) b)
  let flags := maskOf ((List.range 5).filter (fun b => enabled.getD b false))
  put 4 14 2 10 (put 3 12 2 8 (put 2 10 2 6 (put 1 8 2 4 (put 0 3 1 2 (overlay 0 (le 1 flags) old)))))

/-- SET_ALERT_CONFIGURATION. -/
def execSetAlertConfiguration (config : List Byte) (s : State) : Result :=
  mailboxAnswer (fun s => ([], { s with mbox := { s.mbox with alerts := setAlerts (fit 12 config) (alertImage s) } })) s

/-- GET_TIMESTAMP: 0 before it is set; afterwards the CXL timestamp, which runs apart from the tide: a free value. -/
def execGetTimestamp (s : State) : Result :=
  mailboxAnswer (fun s =>
    match s.mbox.timestamp with
    | none => (zeros 8, s)
    | some _ => let f := fresh 64 s; (le 8 f.1.toNat, f.2)) s

/-- SET_TIMESTAMP. -/
def execSetTimestamp (value : Nat) (s : State) : Result :=
  mailboxAnswer (fun s => ([], { s with mbox := { s.mbox with timestamp := some value } })) s

/-- GET_FW_INFO: two slots, the active one, the one the next reset starts where it differs, and each image's version in CXL's form. -/
def execGetFwInfo (s : State) : Result :=
  mailboxAnswer (fun s =>
    let b := s.aon.boot.slot
    let staged := if s.aon.nextSlot = b then 0 else s.aon.nextSlot + 1
    let rev (i : Nat) : List Byte := if (getSlot s i).state < 2 then zeros 16 else standardBytes (0x30000 + (getSlot s i).version) 16
    (fit 80 (le 1 2 ++ le 1 (b + 1 + 8 * staged) ++ zeros 14 ++ rev 0 ++ rev 1), s)) s

/-- MAILBOX_UNSUPPORTED: every other command. -/
def execMailboxUnsupported (_opcode : Nat) (s : State) : Result :=
  if mailboxOpen s then finish (emit (.mailbox true []) s) else finish s

end Sys2Proof.Machine
end

