-- ==== Sys2Proof/Machine/Service.lean ====
section
/-!
DEFINITION. The service port (R300 to R303) and the SMBus target (R392, R393).
-/
namespace Sys2Proof.Machine

/-! ### Service commands -/

/-- DISCOVER: SERIAL, DEV_STATUS and PART, under ROM recovery too. Any other frame to the broadcast address is discarded. -/
def execDiscover (f : FrameHdr) (s : State) : Result :=
  if !portUp s then finish s
  else if frameFor 0 f || broadcastDiscover f then
    finish (emit (.serviceFrame f.src 0 0 (le 8 serial64 ++ le 4 (devStatus (settle s)) ++ le 2 0x0384 ++ zeros 2)) s)
  else finish (discardFrame s)

/-- SERVICE_FRAME_DISCARD (R300): a frame that no row below accepts. -/
def execServiceFrameDiscard (s : State) (f : FrameHdr := FrameHdr.stray) : Result :=
  if portUp s && !frameAccepted f then finish (discardFrame s) else finish s

/-- Service-port commands that run now, those held back by FENCE among them (R302, R305). -/
def serviceRunning (s : State) : Nat := ((allRunning s).filter (fun r => overService r.x)).length + s.svc.waiting.length

/-- The command that a COMMAND frame carries, with its descriptor bytes; none where the frame ends before them (log entry 52). -/
def frameExec (f : FrameHdr) (payload : List Byte) : Exec :=
  let c := parseCmd (payload.take 64)
  let d := payload.drop 64
  { src := .service f.src, cmd := c, desc := if d.length < c.descLen then none else some (d.take c.descLen), resultOk := true,
    entryOk := true }

/-- A new command of a client: it starts on a core, or waits where FENCE holds it back (R305); an unassigned opcode completes at
once. -/
def startService (x : Exec) (mac : Nat) (s : State) : State :=
  let s := keepCompletion mac x.cmd.tag none s
  if !opcodeAssigned x.cmd.opcode then
    let k := chooseCore s
    complete { x := { x with desc := some [] }, core := k.1, orphan := false } stBadOpcode 0 0 [] k.2
  else if fenceAllows (runningFor s mac) x && !s.svc.waiting.any (fun y => y.src == x.src) then startOn x s
  else { s with svc := { s.svc with waiting := s.svc.waiting ++ [x] } }

/-- SERVICE_COMMAND (R302): run, answered again, or discarded. Its row of the command tables then runs it on the core given here. -/
def execServiceCommand (dst src : Nat) (h : ServiceHdr) (payload : List Byte) (s : State) : Result :=
  let f : FrameHdr := { h with dst := dst, src := src }
  if !portUp s then finish s
  else if !frameFor 1 f || payload.length < 64 || 1400 < payload.length || s.sys.phase = .recovery || 8 ≤ serviceRunning s then
    finish (discardFrame s)
  else
    let x := frameExec f payload
    match s.svc.kept.find? (fun k => k.mac == f.src && k.tag == x.cmd.tag) with
    | some k =>
      match k.answer with
      | some a => finish (emit (.serviceFrame f.src 2 0 a) s)
      | none => finish (discardFrame s)
    | none => finish (startService x f.src s)

/-- The COMPLETION that refuses a fifth client (R303, Table 12.2). No command stands behind it: TAG, CORE and OPCODE are free values. -/
def refuseClient (mac : Nat) (s : State) : State :=
  let f := fresh 40 s
  let v := f.1.toNat
  emit (.serviceFrame mac 2 0 (le 2 v ++ le 2 stNoResource ++ le 1 0xFF ++ le 1 (v / 2 ^ 16) ++ le 2 (v / 2 ^ 24) ++ zeros 24)) f.2

/-- SUBSCRIBE (R303): at most 4 clients. -/
def execSubscribe (f : FrameHdr) (on : Bool) (s : State) : Result :=
  let mac := f.src
  if !portUp s then finish s
  else if !frameFor 5 f || s.sys.phase = .recovery then finish (discardFrame s)
  else if !on then finish { s with svc := { s.svc with clients := s.svc.clients.filter (fun m => m != mac) } }
  else if s.svc.clients.contains mac then finish s
  else if s.svc.clients.length < 4 then finish { s with svc := { s.svc with clients := s.svc.clients ++ [mac] } }
  else finish (refuseClient mac s)

/-! ### SMBus (R392, R393) -/

/-- The SMBus target's act, where it answers: from 20 ms after event 1 of Table 16.1, which lies between events 2 and 4. Between them
whether it answers is a free value (log entry 36). -/
def smbusAnswer (o : State → Output) (s : State) : Result :=
  match s.aon.stage with
  | .railsOn => finish (emit (o s) s)
  | .busOn => let f := fresh 1 s; finish (if f.1 = 1#1 then emit (o s) f.2 else f.2)
  | _ => finish s

/-- SMBUS_MONITOR_READ: commands 0x00 to 0x6F; any other is not acknowledged. -/
def execSmbusMonitorRead (command : Nat) (s : State) : Result :=
  smbusAnswer (fun s => if command < 112 then .smbusReply (monitorBytes s command) else .smbusNack) s

/-- SMBUS_DEV_STATUS_READ. -/
def execSmbusDevStatusRead (s : State) : Result := smbusAnswer (fun s => .smbusReply (le 4 (devStatus (settle s)))) s

/-- SMBUS_SERIAL_READ. -/
def execSmbusSerialRead (s : State) : Result := smbusAnswer (fun _ => .smbusReply (le 8 serial64)) s

/-- SMBUS_POWER_READ. -/
def execSmbusPowerRead (s : State) : Result :=
  smbusAnswer (fun s => .smbusReply (le 2 s.aon.inputPower ++ le 2 s.aon.inputCurrent)) s

/-- SMBUS_THROTTLE_READ: k, throttled and tripped. -/
def execSmbusThrottleRead (s : State) : Result :=
  smbusAnswer (fun s => .smbusReply (le 1 s.pwr.k ++ le 1 (b2n (s.pwr.k != 16) + 2 * b2n s.aon.tripped))) s

/-- SMBUS_NACK: every other command or write. -/
def execSmbusNack (_command : Nat) (s : State) : Result := smbusAnswer (fun _ => .smbusNack) s

/-- SMBUS_TIMEOUT: the bus is released. -/
def execSmbusTimeout (s : State) : Result := smbusAnswer (fun _ => .smbusRelease) s

end Sys2Proof.Machine
end

