-- ==== Sys2Proof/Machine/Ticks.lean ====
section
/-!
DEFINITION. The tide tick: what happens in each (log entry 2), and TIDE_WRAP (R352).
-/
namespace Sys2Proof.Machine

/-- One deferred change applied at the start of a tick (log entry 2). -/
def applyDeferred (d : Deferred) (s : State) : State :=
  match d with
  | .buffers l b => modLanding l (fun x => { x with buf := b }) s
  | .toll slip c t => modSlip slip (fun p => { p with tolls := tabPut p.tolls c t }) s
  | .switch c => { s with sw := c }
  | .throttle cap temp => { s with pwr := { s.pwr with powerCap := cap, throttleTemp := temp } }
  | .deviceBudget b => { s with pwr := { s.pwr with deviceBudget := b } }
  | .jobBudget j b => modJob j (fun x => { x with budget := b }) s
  | .hawserBudget h b =>
    { s with pwr := { s.pwr with hawserBudget := match b with
      | some v => tabPut s.pwr.hawserBudget h v
      | none => tabDel s.pwr.hawserBudget h } }
  | .releaseSlips =>
    let s := { s with net := { s.net with released := true } }
    (List.range 384).foldl (fun s n => if canTrain s n then restartBringup n s else s) s

/-- Tokens gained by enabled tolls in a tick (R226). -/
def gainTokens (s : State) : State :=
  { s with slips := s.slips.map (fun p => (p.1, { p.2 with tolls := p.2.tolls.map (fun t =>
      (t.1, if t.2.enable then { t.2 with tokens := min (t.2.tokens + t.2.rate) (t.2.burst * 1000) } else t.2)) })) }

/-- The slip counters of ticks in DOZE, NAP and SLEEP (Table 14.8). -/
def countIdleTicks (s : State) : State :=
  s.slips.foldl (fun s p => if 1 ≤ p.2.power && p.2.power ≤ 3 then countSlip p.1 (4 + p.2.power) 1 s else s) s

/-- The draining bank's interval without packets in flight, sampled each tick (R200). -/
def watchDrain (s : State) : State :=
  match drainingBank s with
  | none => s
  | some b =>
    let z := decide (bankInFlight s b = 0)
    setBank b (fun k => { k with zeroSince := if z then some (k.zeroSince.getD (now s)) else none }) s

/-- The tick before is over: its events stand in their order (R296), its arrivals are no longer new (R216), slips are seen in the states
they have now (R190), and the gates follow the count (R231). -/
def closeTick (s : State) : State :=
  let s := settleEvents s
  { modTide (fun t => { t with stepped := 0 }) s with
    lands := s.lands.map (fun l => (l.1, { l.2 with rxFresh := 0 })),
    slips := s.slips.map (fun p => (p.1, { p.2 with startState := p.2.state })) }

/-- What the tick before deferred takes effect. Tokens of this tick are gained first, so that a toll set anew starts from its reset count
(R227). -/
def applyAll (s : State) : State :=
  let s := gainTokens s
  s.deferred.foldl (fun s d => applyDeferred d s) { s with deferred := [] }

/-- What the lanes send in a tick but for link frames (R263, R269). -/
def sendLanes (s : State) : State := (s.slips.map Prod.fst).foldl (fun s n => lanesTick n s) s

/-- One tide tick, if the tide loop runs: the count, what the tick before deferred, and what happens in every tick. -/
def tideTick (s : State) : State :=
  if s.clk.tide != .locked then s
  else
    let wraps := s.tide.count == BitVec.allOnes 64
    let s := modTide (fun t => { t with count := t.count + 1 }) (closeTick s)
    let s := if wraps then raiseEvent 0x0083 none [] s else s
    let s := countIdleTicks (applyAll s)
    let s := watchDrain (if s.pwr.k < 16 then countNoted 0x0008 s else s)
    sendLanes (wakeOverBudget (noteWork s))

/-- TIDE_WRAP (R352): the tick in which the count passes from 2^64 - 1 to 0. -/
def execTideWrap (s : State) : Result :=
  if s.clk.tide = .locked && s.tide.count = BitVec.allOnes 64 then finish (tideTick s) else finish s

end Sys2Proof.Machine
end

