-- ==== Sys2Proof/Machine/Dispatch.lean ====
section
/-! DEFINITION. The effect of each command: one arm per constructor of `Instr`. -/
namespace Sys2Proof.Machine

def exec (i : Instr) (s : State) : Host.Outcome State Fault Refusal :=
  match i with
  | .inputInRange => Sys2Proof.Machine.execInputInRange s
  | .inputStable => Sys2Proof.Machine.execInputStable s
  | .railInWindow => Sys2Proof.Machine.execRailInWindow s
  | .inputOutOfRange => Sys2Proof.Machine.execInputOutOfRange s
  | .inputUndervoltage => Sys2Proof.Machine.execInputUndervoltage s
  | .inputOvervoltage => Sys2Proof.Machine.execInputOvervoltage s
  | .resetAssert => Sys2Proof.Machine.execResetAssert s
  | .resetRelease recoveryN => Sys2Proof.Machine.execResetRelease recoveryN s
  | .pllLock l => Sys2Proof.Machine.execPllLock l s
  | .pllLockLoss l => Sys2Proof.Machine.execPllLockLoss l s
  | .componentLoadDone => Sys2Proof.Machine.execComponentLoadDone s
  | .selfTestDone u passed => Sys2Proof.Machine.execSelfTestDone u passed s
  | .hbmInitDone failed => Sys2Proof.Machine.execHbmInitDone failed s
  | .opticsCalibrationDone k passed bias txPower => Sys2Proof.Machine.execOpticsCalibrationDone k passed bias txPower s
  | .startupComplete => Sys2Proof.Machine.execStartupComplete s
  | .healthCheckTimeout => Sys2Proof.Machine.execHealthCheckTimeout s
  | .devResetExpiry => Sys2Proof.Machine.execDevResetExpiry s
  | .configRequest r write => Sys2Proof.Machine.execConfigRequest s r write
  | .cxlLinkTrained mode width => Sys2Proof.Machine.execCxlLinkTrained mode width s
  | .cxlLinkDown => Sys2Proof.Machine.execCxlLinkDown s
  | .linkHotReset => Sys2Proof.Machine.execLinkHotReset s
  | .functionLevelReset => Sys2Proof.Machine.execFunctionLevelReset s
  | .d3hotExit => Sys2Proof.Machine.execD3hotExit s
  | .cxlMemRead hpa parity ecc => Sys2Proof.Machine.execCxlMemRead hpa parity s ecc
  | .cxlMemWrite hpa data => Sys2Proof.Machine.execCxlMemWrite hpa data s
  | .bar0RefusedAccess offset size write => Sys2Proof.Machine.execBar0RefusedAccess offset size write s
  | .tideLowRead => Sys2Proof.Machine.execTideLowRead s
  | .ringConfigWrite r reg value => Sys2Proof.Machine.execRingConfigWrite r reg value s
  | .ringEnable r value => Sys2Proof.Machine.execRingEnable r value s
  | .ringDisable r value => Sys2Proof.Machine.execRingDisable r value s
  | .ringIdle r => Sys2Proof.Machine.execRingIdle r s
  | .statusW1cWrite r value setting => Sys2Proof.Machine.execStatusW1cWrite r value setting s
  | .registerWrite offset size value => Sys2Proof.Machine.execRegisterWrite offset size value s
  | .sqTailDoorbell q value => Sys2Proof.Machine.execSqTailDoorbell q value s
  | .cqHeadDoorbell q value => Sys2Proof.Machine.execCqHeadDoorbell q value s
  | .evHeadDoorbell value => Sys2Proof.Machine.execEvHeadDoorbell value s
  | .audHeadDoorbell value => Sys2Proof.Machine.execAudHeadDoorbell value s
  | .commandFetch q entry => Sys2Proof.Machine.execCommandFetch q entry s
  | .commandDispatch q desc resultOk entryOk => Sys2Proof.Machine.execCommandDispatch q desc resultOk s entryOk
  | .irqCoalTimer r => Sys2Proof.Machine.execIrqCoalTimer r s
  | .eventRingWrite ok => Sys2Proof.Machine.execEventRingWrite s ok
  | .afiqueSign => Sys2Proof.Machine.execAfiqueSign s
  | .auditRingWrite ok => Sys2Proof.Machine.execAuditRingWrite s ok
  | .devInfo x => Sys2Proof.Machine.execDevInfo x s
  | .nop x => Sys2Proof.Machine.execNop x s
  | .monitorRead x => Sys2Proof.Machine.execMonitorRead x s
  | .setLatencyBudget x => Sys2Proof.Machine.execSetLatencyBudget x s
  | .throttleSet x => Sys2Proof.Machine.execThrottleSet x s
  | .devReset x => Sys2Proof.Machine.execDevReset x s
  | .jobCreate x => Sys2Proof.Machine.execJobCreate x s
  | .jobDestroy x => Sys2Proof.Machine.execJobDestroy x s
  | .jobRanksSet x => Sys2Proof.Machine.execJobRanksSet x s
  | .jobClassSet x => Sys2Proof.Machine.execJobClassSet x s
  | .jobSliceSet x => Sys2Proof.Machine.execJobSliceSet x s
  | .phaseMapSet x => Sys2Proof.Machine.execPhaseMapSet x s
  | .jobQuery x => Sys2Proof.Machine.execJobQuery x s
  | .crossingOpen x => Sys2Proof.Machine.execCrossingOpen x s
  | .crossingClose x => Sys2Proof.Machine.execCrossingClose x s
  | .crossingReset x => Sys2Proof.Machine.execCrossingReset x s
  | .crossingQuery x => Sys2Proof.Machine.execCrossingQuery x s
  | .endpointSet x => Sys2Proof.Machine.execEndpointSet x s
  | .routeSet x => Sys2Proof.Machine.execRouteSet x s
  | .routeSwitch x => Sys2Proof.Machine.execRouteSwitch x s
  | .routeQuery x => Sys2Proof.Machine.execRouteQuery x s
  | .fabricAddrSet x => Sys2Proof.Machine.execFabricAddrSet x s
  | .bufferSet x => Sys2Proof.Machine.execBufferSet x s
  | .serviceSet x => Sys2Proof.Machine.execServiceSet x s
  | .tollSet x => Sys2Proof.Machine.execTollSet x s
  | .switchSet x => Sys2Proof.Machine.execSwitchSet x s
  | .tideTableSet x => Sys2Proof.Machine.execTideTableSet x s
  | .hawserSet x => Sys2Proof.Machine.execHawserSet x s
  | .hawserClear x => Sys2Proof.Machine.execHawserClear x s
  | .neighbourMapSet x => Sys2Proof.Machine.execNeighbourMapSet x s
  | .neighbourQuery x => Sys2Proof.Machine.execNeighbourQuery x s
  | .linkCountersRead x => Sys2Proof.Machine.execLinkCountersRead x s
  | .laneConfig x => Sys2Proof.Machine.execLaneConfig x s
  | .laneLoopback x => Sys2Proof.Machine.execLaneLoopback x s
  | .laneStatusRead x => Sys2Proof.Machine.execLaneStatusRead x s
  | .laneCountersRead x => Sys2Proof.Machine.execLaneCountersRead x s
  | .opticsRead x => Sys2Proof.Machine.execOpticsRead x s
  | .rctxCreate x => Sys2Proof.Machine.execRctxCreate x s
  | .rctxDestroy x => Sys2Proof.Machine.execRctxDestroy x s
  | .rctxQuery x => Sys2Proof.Machine.execRctxQuery x s
  | .rctxReform x => Sys2Proof.Machine.execRctxReform x s
  | .octxCreate x => Sys2Proof.Machine.execOctxCreate x s
  | .octxDestroy x => Sys2Proof.Machine.execOctxDestroy x s
  | .octxQuery x => Sys2Proof.Machine.execOctxQuery x s
  | .stepCommit x => Sys2Proof.Machine.execStepCommit x s
  | .stepRollback x => Sys2Proof.Machine.execStepRollback x s
  | .reshardFence x => Sys2Proof.Machine.execReshardFence x s
  | .tideConfig x => Sys2Proof.Machine.execTideConfig x s
  | .tideQuery x => Sys2Proof.Machine.execTideQuery x s
  | .launchAt x => Sys2Proof.Machine.execLaunchAt x s
  | .determinismSet x => Sys2Proof.Machine.execDeterminismSet x s
  | .topologySet x => Sys2Proof.Machine.execTopologySet x s
  | .auditRingSet x => Sys2Proof.Machine.execAuditRingSet x s
  | .auditSeal x => Sys2Proof.Machine.execAuditSeal x s
  | .auditPath x => Sys2Proof.Machine.execAuditPath x s
  | .faultRead x => Sys2Proof.Machine.execFaultRead x s
  | .faultAck x => Sys2Proof.Machine.execFaultAck x s
  | .faultClear x => Sys2Proof.Machine.execFaultClear x s
  | .faultModeSet x => Sys2Proof.Machine.execFaultModeSet x s
  | .faultInject x => Sys2Proof.Machine.execFaultInject x s
  | .purserRead x => Sys2Proof.Machine.execPurserRead x s
  | .attest x => Sys2Proof.Machine.execAttest x s
  | .certRead x => Sys2Proof.Machine.execCertRead x s
  | .imageQuery x => Sys2Proof.Machine.execImageQuery x s
  | .activate x => Sys2Proof.Machine.execActivate x s
  | .identify => Sys2Proof.Machine.execIdentify s
  | .identifyMemoryDevice => Sys2Proof.Machine.execIdentifyMemoryDevice s
  | .getSupportedLogs => Sys2Proof.Machine.execGetSupportedLogs s
  | .getLog log offset length => Sys2Proof.Machine.execGetLog log offset length s
  | .getEventRecords log => Sys2Proof.Machine.execGetEventRecords log s
  | .clearEventRecords log all handles => Sys2Proof.Machine.execClearEventRecords log all handles s
  | .getEventInterruptPolicy => Sys2Proof.Machine.execGetEventInterruptPolicy s
  | .setEventInterruptPolicy policy => Sys2Proof.Machine.execSetEventInterruptPolicy policy s
  | .getHealthInfo => Sys2Proof.Machine.execGetHealthInfo s
  | .getAlertConfiguration => Sys2Proof.Machine.execGetAlertConfiguration s
  | .setAlertConfiguration config => Sys2Proof.Machine.execSetAlertConfiguration config s
  | .getTimestamp => Sys2Proof.Machine.execGetTimestamp s
  | .setTimestamp value => Sys2Proof.Machine.execSetTimestamp value s
  | .getFwInfo => Sys2Proof.Machine.execGetFwInfo s
  | .mailboxUnsupported opcode => Sys2Proof.Machine.execMailboxUnsupported opcode s
  | .discover f => Sys2Proof.Machine.execDiscover f s
  | .serviceFrameDiscard f => Sys2Proof.Machine.execServiceFrameDiscard s f
  | .serviceCommand dst src h payload => Sys2Proof.Machine.execServiceCommand dst src h payload s
  | .subscribe f on => Sys2Proof.Machine.execSubscribe f on s
  | .imageBegin f => Sys2Proof.Machine.execImageBegin f s
  | .slotEraseDone => Sys2Proof.Machine.execSlotEraseDone s
  | .imageData f => Sys2Proof.Machine.execImageData f s
  | .imageEnd f => Sys2Proof.Machine.execImageEnd f s
  | .imageAbort f => Sys2Proof.Machine.execImageAbort f s
  | .transferSilence => Sys2Proof.Machine.execTransferSilence s
  | .smbusMonitorRead command => Sys2Proof.Machine.execSmbusMonitorRead command s
  | .smbusDevStatusRead => Sys2Proof.Machine.execSmbusDevStatusRead s
  | .smbusSerialRead => Sys2Proof.Machine.execSmbusSerialRead s
  | .smbusPowerRead => Sys2Proof.Machine.execSmbusPowerRead s
  | .smbusThrottleRead => Sys2Proof.Machine.execSmbusThrottleRead s
  | .smbusNack command => Sys2Proof.Machine.execSmbusNack command s
  | .smbusTimeout => Sys2Proof.Machine.execSmbusTimeout s
  | .monitorSample samples power current => Sys2Proof.Machine.execMonitorSample samples power current s
  | .voltageWindowTimeout index => Sys2Proof.Machine.execVoltageWindowTimeout index s
  | .thermalTrip index => Sys2Proof.Machine.execThermalTrip index s
  | .throttleTick => Sys2Proof.Machine.execThrottleTick s
  | .unitIdleEntry u => Sys2Proof.Machine.execUnitIdleEntry u s
  | .unitWake u => Sys2Proof.Machine.execUnitWake u s
  | .unitWakeDone u => Sys2Proof.Machine.execUnitWakeDone u s
  | .unitHeartbeatTimeout u => Sys2Proof.Machine.execUnitHeartbeatTimeout u s
  | .parityFailure loc r ecc => Sys2Proof.Machine.execParityFailure loc r s ecc
  | .trainingFrame slip rx => Sys2Proof.Machine.execTrainingFrame slip rx s
  | .bringupStepDone slip => Sys2Proof.Machine.execBringupStepDone slip s
  | .bringupStepTimeout slip => Sys2Proof.Machine.execBringupStepTimeout slip s
  | .lightLoss slip => Sys2Proof.Machine.execLightLoss slip s
  | .alignmentMarker slip lower upper skew => Sys2Proof.Machine.execAlignmentMarker slip lower upper skew s
  | .codewordReceive slip lower upper => Sys2Proof.Machine.execCodewordReceive slip lower upper s
  | .nakReplay slip => Sys2Proof.Machine.execNakReplay slip s
  | .replayTimeout slip => Sys2Proof.Machine.execReplayTimeout slip s
  | .packetStart slip => Sys2Proof.Machine.execPacketStart slip s
  | .identTimer slip => Sys2Proof.Machine.execIdentTimer slip s
  | .ident slip m => Sys2Proof.Machine.execIdent slip m s
  | .identAck slip m => Sys2Proof.Machine.execIdentAck slip m s
  | .identTimeout slip => Sys2Proof.Machine.execIdentTimeout slip s
  | .laneIdleEntry slip => Sys2Proof.Machine.execLaneIdleEntry slip s
  | .laneWake slip => Sys2Proof.Machine.execLaneWake slip s
  | .laneWakeDone slip => Sys2Proof.Machine.execLaneWakeDone slip s
  | .wakeFail slip => Sys2Proof.Machine.execWakeFail slip s
  | .opticsAlarm engine lane power => Sys2Proof.Machine.execOpticsAlarm engine lane power s
  | .opticsAlarmClear engine lane power => Sys2Proof.Machine.execOpticsAlarmClear engine lane power s
  | .engineLost engine laserSupply => Sys2Proof.Machine.execEngineLost engine laserSupply s
  | .announceTimer => Sys2Proof.Machine.execAnnounceTimer s
  | .announce slip m => Sys2Proof.Machine.execAnnounce slip m s
  | .syncTimer => Sys2Proof.Machine.execSyncTimer s
  | .syncReq slip m t2 t2Frac => Sys2Proof.Machine.execSyncReq slip m t2 t2Frac s
  | .syncResp slip m t4 t4Frac => Sys2Proof.Machine.execSyncResp slip m t4 t4Frac s
  | .parentSilence => Sys2Proof.Machine.execParentSilence s
  | .ppsEdge intervalNs refOk => Sys2Proof.Machine.execPpsEdge intervalNs refOk s
  | .ppsMissing => Sys2Proof.Machine.execPpsMissing s
  | .tideWrap => Sys2Proof.Machine.execTideWrap s
  | .jobLaunch job => Sys2Proof.Machine.execJobLaunch job s
  | .routeSwitchTime => Sys2Proof.Machine.execRouteSwitchTime s
  | .bankRetire => Sys2Proof.Machine.execBankRetire s
  | .tideTableInstall slip => Sys2Proof.Machine.execTideTableInstall slip s
  | .reroute hawser => Sys2Proof.Machine.execReroute hawser s
  | .partitionEvaluation => Sys2Proof.Machine.execPartitionEvaluation s
  | .transitPacket a => Sys2Proof.Machine.execTransitPacket a s
  | .unknownPacket a => Sys2Proof.Machine.execUnknownPacket a s
  | .xsync a => Sys2Proof.Machine.execXsync a s
  | .xsyncTimer landing peer peerLanding => Sys2Proof.Machine.execXsyncTimer landing peer peerLanding s
  | .xack a => Sys2Proof.Machine.execXack a s
  | .xackTimer landing peer peerLanding lane => Sys2Proof.Machine.execXackTimer landing peer peerLanding lane s
  | .crossingSend landing peer peerLanding lane => Sys2Proof.Machine.execCrossingSend landing peer peerLanding lane s
  | .originSend landing => Sys2Proof.Machine.execOriginSend landing s
  | .retransmitTimeout landing peer peerLanding lane => Sys2Proof.Machine.execRetransmitTimeout landing peer peerLanding lane s
  | .write a => Sys2Proof.Machine.execWrite a s
  | .contribute a => Sys2Proof.Machine.execContribute a s
  | .contrib a => Sys2Proof.Machine.execContrib a s
  | .scale a => Sys2Proof.Machine.execScale a s
  | .trailer a => Sys2Proof.Machine.execTrailer a s
  | .pdesc a => Sys2Proof.Machine.execPdesc a s
  | .pdata a => Sys2Proof.Machine.execPdata a s
  | .credit a => Sys2Proof.Machine.execCredit a s
  | .creditSend rctx slot => Sys2Proof.Machine.execCreditSend rctx slot s
  | .resend a => Sys2Proof.Machine.execResend a s
  | .status a => Sys2Proof.Machine.execStatus a s
  | .ringStop a => Sys2Proof.Machine.execRingStop a s
  | .result a => Sys2Proof.Machine.execResult a s
  | .gather a => Sys2Proof.Machine.execGather a s
  | .gatherReq a => Sys2Proof.Machine.execGatherReq a s
  | .drawReq a => Sys2Proof.Machine.execDrawReq a s
  | .beacon a => Sys2Proof.Machine.execBeacon a s
  | .norm a => Sys2Proof.Machine.execNorm a s
  | .move a => Sys2Proof.Machine.execMove a s
  | .softLagExpiry rctx pos => Sys2Proof.Machine.execSoftLagExpiry rctx pos s
  | .hardLagExpiry rctx pos => Sys2Proof.Machine.execHardLagExpiry rctx pos s
  | .foldBatch => Sys2Proof.Machine.execFoldBatch s
  | .foldBatchDone => Sys2Proof.Machine.execFoldBatchDone s
  | .updateSweep => Sys2Proof.Machine.execUpdateSweep s
  | .gatherSweep => Sys2Proof.Machine.execGatherSweep s
  | .recordWriteDone octx seg chunk => Sys2Proof.Machine.execRecordWriteDone octx seg chunk s
  | .imageDigestDone octx seg chunk => Sys2Proof.Machine.execImageDigestDone octx seg chunk s
  | .chunkRelease rctx pos => Sys2Proof.Machine.execChunkRelease rctx pos s
  | .beaconTimeout octx => Sys2Proof.Machine.execBeaconTimeout octx s
  | .reshardInstall octx => Sys2Proof.Machine.execReshardInstall octx s
  | .mcastResidue landing entry => Sys2Proof.Machine.execMcastResidue landing entry s
  | .writeDoneArrival a => Sys2Proof.Machine.execWriteDoneArrival a s
  | .badCycle => Sys2Proof.Machine.execBadCycle s
  | .patternSymbolReceive slip lane levels => Sys2Proof.Machine.execPatternSymbolReceive slip lane levels s

end Sys2Proof.Machine
end

