-- ==== Sys2Proof/Safety.lean ====
section
/-!
DEFINITION. What counts as a safe run, in the terms the statements use: what completes, what a command answers, and the part of
the state that neither a completion nor an event, a fault record or a purser count touches.
-/
namespace Sys2Proof.Machine

/-- ERROR_N agrees with the fault collector, as R344 drives it. -/
def PinAgrees (s : State) : Prop := s.aon.errorN = errorPin s

/-- No step's account. -/
def Account.zero : Account :=
  { replays := 0, retransmits := 0, throttled := 0, unlocked := false, lateTrailer := false, faults := [] }

/-- The host interface without the queue pairs' and event ring's indices, link errors recorded, events that wait, vectors pending and
commands running. -/
def HostIf.quiet (h : HostIf) : HostIf :=
  { h with
    qps := [], ev := RingPort.reset, msixPending := 0, cfg := { h.cfg with aerUncStatus := 0 }, evQueue := [], evFresh := 0
    evLost := 0, evLostTide := 0, evSeq := 0, running := [] }

/-- The state without what a completion, an event, a fault record or a purser count changes: the host interface's queues, the service
port's answers and held-back commands, the fault records and their copy, ERROR_N, the purser, the accounts of the audit records, the
free values drawn and what has left the part. Two states with one quiet part agree in everything else. -/
def State.quiet (s : State) : State :=
  { s with
    aon := { s.aon with errorN := false, priorFatal := none, priorFatalTide := 0 }
    host := s.host.quiet
    svc := { s.svc with eventSeq := 0, waiting := [], kept := [] }
    flt := { s.flt with records := [], nextNum := 0 }
    purser := []
    rctxs := s.rctxs.map (fun p => (p.1, { p.2 with acct := Account.zero }))
    octxs := s.octxs.map (fun p => (p.1, { p.2 with acct := Account.zero }))
    freeCount := 0
    outbox := [] }

/-- What has left the part stays, and more may have followed. -/
def Sends (s t : State) (p : List Output → Prop) : Prop := ∃ out, t.outbox = s.outbox ++ out ∧ p out

/-- A command that is admitted (R18, R292, R302) and passes every check of R309 for its row of the group tables. -/
def Accepts (x : Exec) (row : State → Row) (s : State) : Prop :=
  ∃ r s', admitCmd x (row s).opcode s = some (r, s') ∧ r.orphan = false ∧ verdict s' x (row s') = none

/-- A command that is admitted and whose first failed check in the order of R309 is `f`. -/
def Rejects (x : Exec) (row : State → Row) (f : Failed) (s : State) : Prop :=
  ∃ r s', admitCmd x (row s).opcode s = some (r, s') ∧ r.orphan = false ∧ verdict s' x (row s') = some f

/-- Between s and t a command answered: its completion with a status and two result words left the part, and before it its result
data, over the ring or the service port it came from (R290, R302, R308, R312). -/
def Answered (x : Exec) (status r0 r1 : Nat) (data : List Byte) (s t : State) : Prop :=
  Sends s t (fun out => ∃ core n, match x.src with
    | .ring _ =>
      (∃ a, Output.hostWrite a (completionBytes x core status n r0 r1) ∈ out) ∧
        (x.resultOk = true → data ≠ [] → n = data.length ∧ Output.hostWrite x.cmd.resultAddr data ∈ out)
    | .service mac => n = data.length ∧ Output.serviceFrame mac 2 0 (completionBytes x core status n r0 r1 ++ data) ∈ out)

/-- A completion of a command with a status and two result words is among what has left the part. -/
def Replied (x : Exec) (status r0 r1 : Nat) (t : State) : Prop :=
  ∃ core n, match x.src with
    | .ring _ => ∃ a, Output.hostWrite a (completionBytes x core status n r0 r1) ∈ t.outbox
    | .service mac => ∃ data, Output.serviceFrame mac 2 0 (completionBytes x core status n r0 r1 ++ data) ∈ t.outbox

/-- A command completes with OK, and the quiet part of the state it leaves is that of `u`. -/
def Done (c : Instr) (x : Exec) (r0 r1 : Nat) (data : List Byte) (u s : State) : Prop :=
  ∃ t, exec c s = .next t ∧ Answered x stOk r0 r1 data s t ∧ t.quiet = u.quiet

/-- A packet is handed up, now or before, and is the one its taker takes next (R216, R219, log entry 16); s' is the state without it. -/
def Arrives (a : Arrival) (s s' : State) : Prop :=
  takeNext a (if (getLanding s (homeLanding a.hawser)).rx.contains a = true then s else handUp a s) = some s'

end Sys2Proof.Machine
end

