-- ==== Sys2Proof/Certificates/Slice0/Obligations.lean ====
section
/-!
DEFINITION. What is stated of the model, for the provers: completion and effect of every command, frames, and what every step keeps.
-/
open Sys2Proof Sys2Proof.Machine

/-- How the model's queue of commands runs (log entry 2; no rule of the manual): a step on a queue whose front is `c` is the
execution of `c` on the state with the queue's rest. -/
def Obligations.step_runs_front_command : Prop :=
  ∀ (c : Instr) (rest : List Instr) (s : State), s.pending = c :: rest → step s = exec c { s with pending := rest }

/-- R344, over every step the model takes: after any step, from any state, ERROR_N is low while RESET_N is asserted, before the fault
collector starts, and while a record is RAISED or ACKNOWLEDGED, and released otherwise; an unpowered module does not drive it. -/
def Obligations.error_pin_follows_faults : Prop :=
  ∀ s t : State, PinAgrees s → step s = .next t →
    PinAgrees t ∧ (t.aon.stage ≠ .off →
      (t.aon.errorN = true ↔ t.aon.resetN = true ∧ t.aon.collector = true ∧ ∀ r ∈ t.flt.records, r.state = 2))

/-- The invariant of error_pin_follows_faults holds right after reset, where ERROR_N is low (R344, R377), with PWRGOOD asserted, no
job, context, crossing or fault, the routing bank 0 ACTIVE, and nothing written in the state area. -/
def Obligations.reset_state : Prop :=
  PinAgrees State.reset ∧ State.reset.aon.errorN = false ∧ State.reset.aon.pwrgood = true ∧ State.reset.sys.phase = .inReset ∧
    State.reset.tide.count = 0 ∧ State.reset.jobs = [] ∧ State.reset.rctxs = [] ∧ State.reset.octxs = [] ∧ State.reset.xings = [] ∧
    State.reset.net.bank0.state = .active ∧ State.reset.net.bank1.state = .idle ∧ State.reset.flt.records = [] ∧
    State.reset.flt.nextNum = 1 ∧ State.reset.purser = [] ∧ Memory.wf State.reset.hbm.mem ∧ State.reset.pending = []

/-! ### Power-on, reset, clocks and start-up -/

/-- What a loss of power leaves (R377, R387): PWRGOOD deasserted and every domain without its state. What the fuses and the
non-volatile store hold stays: the slots, but that a slot a transfer was filling is EMPTY (R370). -/
def Unpowered (s t : State) : Prop :=
  t.aon.stage = .off ∧ t.aon.pwrgood = false ∧ t.sys.phase = .unpowered ∧ t.jobs = [] ∧ t.rctxs = [] ∧ t.octxs = [] ∧ t.xings = [] ∧
    t.hbm = State.reset.hbm ∧ t.host = State.reset.host ∧ t.slips = [] ∧ t.net = State.reset.net ∧ t.flt = State.reset.flt ∧
    t.purser = [] ∧ t.aon.goodSlot = s.aon.goodSlot ∧ t.aon.fusedSv = s.aon.fusedSv ∧ t.aon.revoked = s.aon.revoked ∧
    t.aon.slots = (abortTransfer s).aon.slots ∧ t.aon.resetN = s.aon.resetN ∧ t.pending = s.pending ∧ t.outbox = s.outbox

/-- Table 16.1, events 1 to 5 (R376): INPUT_IN_RANGE, INPUT_STABLE and RAIL_IN_WINDOW each take the always-on island one event
further, and change nothing else. With the last rail PWRGOOD is asserted, and event 5 follows if RESET_N is high, with RECOVERY_N as
sampled at the edge of RESET_N that the island recognised (R390); where it recognised none, RECOVERY_N is a free value (log entry 3).
INPUT_OUT_OF_RANGE, INPUT_UNDERVOLTAGE and INPUT_OVERVOLTAGE remove power from every domain of a powered part; an overvoltage
opens the hot-swap switch too. -/
def Obligations.power_on_and_loss : Prop :=
  (∀ s : State,
    (s.aon.stage = .off → exec .inputInRange s =
      .next (settle { s with aon := { s.aon with stage := .inputOn, railsUp := 0, hotSwapOpen := false } })) ∧
    (s.aon.stage = .inputOn → exec .inputStable s = .next (settle { s with aon := { s.aon with stage := .busOn } })) ∧
    (s.aon.stage = .busOn → s.aon.railsUp < 7 → exec .railInWindow s =
      .next (settle { s with aon := { s.aon with railsUp := s.aon.railsUp + 1 } })) ∧
    (s.aon.stage = .busOn → 7 ≤ s.aon.railsUp → s.aon.resetN = false → exec .railInWindow s =
      .next (settle { s with aon := { s.aon with railsUp := 8, stage := .railsOn, pwrgood := true },
                             sys := { s.sys with phase := .inReset } })) ∧
    (s.aon.stage = .busOn → 7 ≤ s.aon.railsUp → s.aon.resetN = true → ∃ t, exec .railInWindow s = .next t ∧
      t.aon.stage = .railsOn ∧ t.aon.pwrgood = true ∧ t.sys.phase = .loopsStarting ∧ t.clk.core = .starting ∧
      t.clk.datapath = .starting ∧ t.clk.tide = .starting ∧ t.clk.cxlPhy = .starting ∧ t.host = s.host ∧ t.jobs = s.jobs ∧
      ∀ level, s.aon.edge = some level → t.sys.recoveryN = level)) ∧
  (∀ s : State, s.aon.stage ≠ .off →
    (∃ t, exec .inputOutOfRange s = .next t ∧ Unpowered s t ∧ t.aon.hotSwapOpen = s.aon.hotSwapOpen) ∧
    (∃ t, exec .inputUndervoltage s = .next t ∧ Unpowered s t ∧ t.aon.hotSwapOpen = s.aon.hotSwapOpen) ∧
    (∃ t, exec .inputOvervoltage s = .next t ∧ Unpowered s t ∧ t.aon.hotSwapOpen = true))

/-- What a reset leaves (R377): every domain but the always-on one in its reset state, PWRGOOD as it was, and of the fault records
only the last that reached FATAL, as number 0 (R337). -/
def WasReset (s t : State) : Prop :=
  t.aon.pwrgood = s.aon.pwrgood ∧ t.aon.stage = s.aon.stage ∧ t.jobs = [] ∧ t.rctxs = [] ∧ t.octxs = [] ∧ t.xings = [] ∧ t.incs = [] ∧
    t.hbm = State.reset.hbm ∧ t.host = State.reset.host ∧ t.slips = [] ∧ t.hawsers = [] ∧ t.net = State.reset.net ∧ t.lands = [] ∧
    t.purser = [] ∧ t.units = [] ∧ t.tide = State.reset.tide ∧ t.audit = State.reset.audit ∧
    t.flt = Faults.reset (s.aon.priorFatal.map (fun r => { r with num := 0, state := 2, prior := true })) ∧
    t.aon.goodSlot = s.aon.goodSlot ∧ t.aon.fusedSv = s.aon.fusedSv ∧ t.aon.revoked = s.aon.revoked ∧ t.pending = s.pending ∧
    t.outbox = s.outbox

/-- RESET_ASSERT resets a powered part, ERROR_N low; RESET_RELEASE starts the loops of event 5 with RECOVERY_N sampled, and before
PWRGOOD the island keeps the sample (R390); and DEV_RESET_EXPIRY, once the time that DEV_RESET set has come, resets the part and goes on
from event 5 (R377, R390). -/
def Obligations.reset_events : Prop :=
  ∀ (s : State) (recoveryN : Bool) (at_ : Tide),
    (s.aon.stage = .railsOn → ∃ t, exec .resetAssert s = .next t ∧ WasReset s t ∧ t.aon.resetN = false ∧ t.aon.errorN = false ∧
      t.sys.phase = .inReset) ∧
    (s.aon.resetN = false → s.aon.pwrgood = true → ∃ t, exec (.resetRelease recoveryN) s = .next t ∧ t.aon.resetN = true ∧
      t.sys.recoveryN = recoveryN ∧ t.sys.phase = .loopsStarting ∧ t.clk.core = .starting ∧ t.clk.tide = .starting ∧
      t.flt = s.flt ∧ t.tide = s.tide) ∧
    (s.aon.resetN = false → s.aon.pwrgood = false → s.aon.stage ≠ .off → exec (.resetRelease recoveryN) s =
      .next (settle { s with aon := { s.aon with resetN := true, edge := some recoveryN } })) ∧
    (s.sys.devResetAt = some at_ → tideReached at_ (now s) = true → ∃ t, exec .devResetExpiry s = .next t ∧ WasReset s t ∧
      t.aon.resetN = s.aon.resetN ∧ t.sys.phase = .loopsStarting ∧ t.clk.core = .starting)

/-- PLL_LOCK (R317, R383): the loop that was starting is locked, and no other loop changes; with the tide loop the tide count starts
at 0. The core's lock at power-on starts the ROM, and with it the fault collector (events 6 and 7).
PLL_LOCK_LOSS (Table 14.3, CLOCK cause 1): the core, datapath or tide loop stops and the fault is raised at FATAL with UNIT 0, 1 or
2; another loop starts again and raises nothing. -/
def Obligations.loops_lock : Prop :=
  (∀ (s : State) (k : Nat),
    (s.clk.core = .starting → s.sys.phase ≠ .loopsStarting →
      exec (.pllLock .core) s = .next (settle { s with clk := { s.clk with core := .locked } })) ∧
    (s.clk.core = .starting → s.sys.phase = .loopsStarting →
      ∃ t, exec (.pllLock .core) s = .next t ∧ t.clk = { s.clk with core := .locked } ∧ t.aon.collector = true ∧
        t.host.bar0 = true ∧ t.deck.trunc = true ∧ (t.sys.phase = .startup ∨ t.sys.phase = .recovery)) ∧
    (s.clk.datapath = .starting → exec (.pllLock .datapath) s = .next (settle { s with clk := { s.clk with datapath := .locked } })) ∧
    (s.clk.tide = .starting → ∃ t, exec (.pllLock .tide) s = .next t ∧ t.clk = { s.clk with tide := .locked } ∧ t.tide.count = 0) ∧
    (s.clk.cxlPhy = .starting → exec (.pllLock .cxlPhy) s = .next (settle { s with clk := { s.clk with cxlPhy := .locked } })) ∧
    (tabGet s.clk.hbm k .stopped = .starting → exec (.pllLock (.hbm k)) s =
      .next (settle { s with clk := { s.clk with hbm := tabPut s.clk.hbm k .locked } })) ∧
    (tabGet s.clk.serdes k .stopped = .starting → exec (.pllLock (.serdes k)) s =
      .next (settle { s with clk := { s.clk with serdes := tabPut s.clk.serdes k .locked } }))) ∧
  (∀ (s : State) (k : Nat),
    (s.clk.core = .locked → exec (.pllLockLoss .core) s =
      .next (settle (raiseFault 9 1 0 0 4 { s with clk := { s.clk with core := .stopped } }))) ∧
    (s.clk.datapath = .locked → exec (.pllLockLoss .datapath) s =
      .next (settle (raiseFault 9 1 1 0 4 { s with clk := { s.clk with datapath := .stopped } }))) ∧
    (s.clk.tide = .locked → exec (.pllLockLoss .tide) s =
      .next (settle (raiseFault 9 1 2 0 4 { s with clk := { s.clk with tide := .stopped } }))) ∧
    (s.clk.cxlPhy = .locked → exec (.pllLockLoss .cxlPhy) s = .next (settle { s with clk := { s.clk with cxlPhy := .starting } })) ∧
    (tabGet s.clk.hbm k .stopped = .locked → exec (.pllLockLoss (.hbm k)) s =
      .next (settle { s with clk := { s.clk with hbm := tabPut s.clk.hbm k .starting } })) ∧
    (tabGet s.clk.serdes k .stopped = .locked → exec (.pllLockLoss (.serdes k)) s =
      .next (settle { s with clk := { s.clk with serdes := tabPut s.clk.serdes k .starting } })))

/-- Start-up (R379 to R381): components load; a unit's self-test that passes is noted, and the deck leaves truncating mode with its
last lane group; HBM that initialises without loss makes the memory ready; and, after the self-tests, an engine that calibrates has its
bias and power recorded. A unit that fails is lost. A unit whose loop has not locked takes no part (R317), and no stack and no engine
after a trip (R329). -/
def Obligations.startup_tasks : Prop :=
  ∀ (s : State) (u : UnitRef) (k : Nat) (failed bias : List Nat) (power : List Int),
    (s.sys.phase = .startup → exec .componentLoadDone s = .next (settle { s with sys := { s.sys with componentsLoaded := true } })) ∧
    (starting s = true → u ∉ s.sys.selfTested → unitExists u = true → unitClocked s u = true →
      exec (.selfTestDone u true) s = .next (settle { s with
        sys := { s.sys with selfTested := s.sys.selfTested ++ [u] },
        deck := if deckTested (s.sys.selfTested ++ [u]) = true then { s.deck with trunc := false } else s.deck })) ∧
    (starting s = true → u ∉ s.sys.selfTested → unitExists u = true → unitClocked s u = true →
      ∃ t, exec (.selfTestDone u false) s = .next t ∧ unitLost t u = true ∧ t.sys.selfTested = s.sys.selfTested ++ [u] ∧
        (deckTested (s.sys.selfTested ++ [u]) = true → t.deck.trunc = false)) ∧
    (starting s = true → s.sys.memReady = false → s.aon.tripped = false → (∀ n < 8, unitLost s (.stack n) = false) →
      (∀ n < 8, unitClocked s (.stack n) = true) → ∃ t, exec (.hbmInitDone []) s = .next t ∧ t.sys.memReady = true ∧
        (∀ n < 8, (getStack t n).init = true) ∧
        t.hbm.mem = s.hbm.mem ∧ t.units = s.units) ∧
    (starting s = true → s.sys.memReady = false → s.aon.tripped = false →
      (∀ n < 8, n ∈ failed ∨ unitLost s (.stack n) = true ∨ unitClocked s (.stack n) = true) →
      ∃ t, exec (.hbmInitDone failed) s = .next t ∧ t.sys.memReady = true ∧
      (∀ n ∈ failed, n < 8 → unitLost t (.stack n) = true) ∧
      (∀ n < 8, unitLost t (.stack n) = false → (getStack t n).init = true)) ∧
    (starting s = true → selfTestsDone s = true → s.aon.tripped = false → k ∉ s.sys.calibrated → k < 48 →
      ∃ t, exec (.opticsCalibrationDone k true bias power) s = .next t ∧
      t.sys.calibrated = s.sys.calibrated ++ [k] ∧ (getEngine t k).bias = bias ∧ (getEngine t k).txPower = power ∧
      (∀ j, j ≠ k → getEngine t j = getEngine s j)) ∧
    (starting s = true → selfTestsDone s = true → s.aon.tripped = false → k ∉ s.sys.calibrated → k < 48 →
      ∃ t, exec (.opticsCalibrationDone k false bias power) s = .next t ∧
      t.sys.calibrated = s.sys.calibrated ++ [k] ∧ unitLost t (.engine k) = true)

/-- The health check (R372, R373): with every start-up task done STARTUP_COMPLETE sets READY and the slot is good; a boot that misses
its check is retried once from the same slot, and a trial, or a boot missed twice, fails: the slot is INVALID and the other is next. -/
def Obligations.health_check : Prop :=
  ∀ s : State,
    (startupDone s = true → ∃ t, exec .startupComplete s = .next t ∧ t.sys.phase = .ready ∧ t.aon.goodSlot = some s.aon.boot.slot ∧
      t.aon.boot.passed = true ∧ s.aon.fusedSv ≤ t.aon.fusedSv ∧ (getSlot s s.aon.boot.slot).securityVersion ≤ t.aon.fusedSv ∧
      t.jobs = s.jobs ∧ t.hbm = s.hbm ∧ t.slips = s.slips) ∧
    (s.sys.phase = .startup → s.aon.tripped = false → s.aon.boot.trial = false → s.aon.boot.retried = false →
      ∃ t, exec .healthCheckTimeout s = .next t ∧ t.aon.boot.retried = true ∧ t.aon.nextSlot = s.aon.nextSlot ∧
        t.aon.boot.slot = s.aon.boot.slot ∧ t.sys.phase = .loopsStarting ∧ WasReset s t) ∧
    (s.sys.phase = .startup → s.aon.tripped = false → s.aon.boot.trial = true ∨ s.aon.boot.retried = true → s.aon.boot.slot < 2 →
      (∀ y, s.aon.transfer = some y → y.slot ≠ s.aon.boot.slot) →
      ∃ t, exec .healthCheckTimeout s = .next t ∧ (getSlot t s.aon.boot.slot).state = 3 ∧ t.aon.nextSlot = 1 - s.aon.boot.slot ∧
        t.sys.phase = .loopsStarting ∧ WasReset s t)

/-! ### The host link, CXL.mem and BAR0 -/

/-- The reset of ring state (R287): every ENABLE, status bit and index cleared, undispatched commands discarded, and nothing else of the
part changed but that completions of commands already dispatched are orphaned. -/
def RingsReset (s t : State) : Prop :=
  (∀ q, (getQp t q).ctrl.enable = false ∧ (getQp t q).status = RingStatus.reset ∧ (getQp t q).fetched = [] ∧ (getQp t q).sqTail = 0 ∧
    (getQp t q).sqHead = 0 ∧ (getQp t q).cqHead = 0 ∧ (getQp t q).cqTail = 0) ∧
  t.host.ev.ctrl.enable = false ∧ t.host.ev.status = RingStatus.reset ∧ t.host.ev.head = 0 ∧ t.host.ev.tail = 0 ∧
  t.host.aud.ctrl.enable = false ∧ t.host.aud.status = RingStatus.reset ∧ t.host.aud.head = 0 ∧ t.host.aud.tail = 0 ∧
  (∀ r ∈ t.host.running, ∀ q, r.x.src = .ring q → r.orphan = true) ∧ t.host.running.map Running.x = s.host.running.map Running.x ∧
  t.jobs = s.jobs ∧ t.rctxs.map Prod.fst = s.rctxs.map Prod.fst ∧ t.octxs.map Prod.fst = s.octxs.map Prod.fst ∧ t.xings = s.xings ∧
  t.hbm = s.hbm ∧ t.tide = s.tide ∧ t.slips = s.slips ∧ t.lands = s.lands

/-- CXL_LINK_TRAINED (R282): a powered link settles in its mode and width, and nothing else changes; a link without its clock, or a mode
or width the part does not have, stays down. CXL_LINK_DOWN (R287): an established link goes down, the ring state is reset and HOST cause
0 is raised, DEGRADED, with UNIT and DETAIL 0; one that is down stays so.
LINK_HOT_RESET, FUNCTION_LEVEL_RESET and D3HOT_EXIT reset the ring state; jobs, contexts, crossings, memory, faults, the tide and the
fabric continue (R287).
CONFIG_REQUEST (R378): on a trained link a request is answered with Retry Status until BAR0 is readable, and then a read with its
register's value and a write once it has taken effect; a hot reset's ring reset comes with a write that starts a function-level reset.
What the registers hold is the model's (log entry 44). -/
def Obligations.host_link : Prop :=
  (∀ (s : State) (mode width : Nat),
    (linkPowered s = true → mode ≤ 2 → width ∈ [4, 8, 16] → exec (.cxlLinkTrained mode width) s =
      .next (settle { s with host := { s.host with linkUp := true, linkMode := mode, width := width } })) ∧
    (linkPowered s = false ∨ 2 < mode ∨ width ∉ [4, 8, 16] → exec (.cxlLinkTrained mode width) s = .next (settle s)) ∧
    (s.host.linkUp = true → ∃ t, exec .cxlLinkDown s = .next t ∧ t.host.linkUp = false ∧ t.host.linkMode = 0 ∧ t.host.width = 0 ∧
      RingsReset s t ∧ t.flt = (raiseFault 14 0 0 0 1 s).flt) ∧
    (s.host.linkUp = false → exec .cxlLinkDown s = .next (settle s))) ∧
  (∀ s : State,
    (∃ t, exec .linkHotReset s = .next t ∧ RingsReset s t ∧ t.flt = s.flt ∧ t.outbox = s.outbox ∧ t.host.linkUp = s.host.linkUp) ∧
    (∃ t, exec .functionLevelReset s = .next t ∧ RingsReset s t ∧ t.flt = s.flt ∧ t.outbox = s.outbox ∧
      t.host.linkUp = s.host.linkUp) ∧
    (∃ t, exec .d3hotExit s = .next t ∧ RingsReset s t ∧ t.flt = s.flt ∧ t.outbox = s.outbox ∧ t.host.linkUp = s.host.linkUp)) ∧
  (∀ (s : State) (r : ConfigReg) (v : Nat) (w : Option Nat),
    (s.host.linkUp = false → exec (.configRequest r w) s = .next (settle s)) ∧
    (s.host.linkUp = true → s.host.bar0 = false → exec (.configRequest r w) s =
      .next (settle { s with outbox := s.outbox ++ [.configAnswer true 0] })) ∧
    (s.host.linkUp = true → s.host.bar0 = true → exec (.configRequest r none) s =
      .next (settle { s with outbox := s.outbox ++ [.configAnswer false (readConfig s r)] })) ∧
    (s.host.linkUp = true → s.host.bar0 = true → exec (.configRequest r (some v)) s =
      .next (settle (emit (.configAnswer false 0) (writeConfig r v s)))) ∧
    (s.host.linkUp = true → s.host.bar0 = true → bit v 15 = true →
      ∃ t, exec (.configRequest .deviceControl (some v)) s = .next t ∧ RingsReset s t))

/-- CXL_MEM_WRITE and CXL_MEM_READ inside decoder 0, on a link that carries CXL.mem (R282, R284, R285): a write changes the 64 bytes of
its line and no other byte, and keeps the memory's canonical form; a read answers the line, and poison where the memory is not ready,
the stack is lost or the line fails its parity check twice; what the stack's own error correction reports of it is counted (R346); a
write to memory that is not ready or to a lost stack is discarded and counted (purser 0x0003). A stack whose loop is not locked answers
as one that is not ready (the model's choice, log entry 39).
A CXL.mem access outside the range that decoder 0 has committed reaches no memory of the part (R284): it faults. In PCIe-only mode, and
without a link, the part sees none. -/
def Obligations.cxl_memory : Prop :=
  (∀ (s : State) (base hpa : Nat) (data : List Byte), s.host.hdmBase = some base → base ≤ hpa → hpa < base + areaSize →
    data.length = 64 → s.host.linkUp = true → s.host.linkMode ≠ 2 →
    let line := (hpa - base) / 64 * 64
    let st := stackOf (hpa - base)
    (s.sys.memReady = true → unitLost s (.stack st) = false → tabGet? s.clk.hbm st = some .locked →
      (∃ t, exec (.cxlMemWrite hpa data) s = .next t ∧ readBytes t line 64 = data ∧
        (∀ a, a < line ∨ line + 64 ≤ a → readByte t a = readByte s a) ∧ (Memory.wf s.hbm.mem → Memory.wf t.hbm.mem) ∧
        t = settle { s with hbm := t.hbm } ∧ t.hbm.writes = s.hbm.writes ∧ t.hbm.waits = s.hbm.waits) ∧
      (∃ t, exec (.cxlMemRead hpa .ok .clean) s = .next t ∧ t.outbox = s.outbox ++ [.memData line (readBytes s line 64) false] ∧
        t.hbm.mem = s.hbm.mem ∧ t.flt = s.flt ∧ t.purser = s.purser) ∧
      (∀ e, ∃ t, exec (.cxlMemRead hpa .ok e) s = .next t ∧ .memData line (readBytes s line 64) false ∈ t.outbox ∧
        t.hbm.mem = s.hbm.mem ∧ t.flt = s.flt ∧ t.purser = (countEcc st e s).purser) ∧
      (∀ e, ∃ t, exec (.cxlMemRead hpa .retryOk e) s = .next t ∧ .memData line (readBytes s line 64) false ∈ t.outbox ∧
        t.hbm.mem = s.hbm.mem ∧ t.flt = s.flt) ∧
      (∀ e, ∃ t, exec (.cxlMemRead hpa .failed e) s = .next t ∧ .memData line [] true ∈ t.outbox ∧ t.hbm.mem = s.hbm.mem)) ∧
    (s.sys.memReady = false ∨ unitLost s (.stack st) = true ∨ tabGet? s.clk.hbm st ≠ some .locked →
      exec (.cxlMemWrite hpa data) s = .next (settle (countPurser 0x0003 1 s)) ∧
      ∀ p e, exec (.cxlMemRead hpa p e) s = .next (settle { s with outbox := s.outbox ++ [.memData line [] true] }))) ∧
  (∀ (s : State) (hpa : Nat) (data : List Byte) (p : ParityResult) (e : EccResult),
    (s.host.linkUp = true → s.host.linkMode ≠ 2 → (∀ base, s.host.hdmBase = some base → hpa < base ∨ base + areaSize ≤ hpa) →
      exec (.cxlMemWrite hpa data) s = .fault .outsideDecoder ∧ exec (.cxlMemRead hpa p e) s = .fault .outsideDecoder) ∧
    (s.host.linkUp = false ∨ s.host.linkMode = 2 →
      exec (.cxlMemWrite hpa data) s = .next (settle s) ∧ exec (.cxlMemRead hpa p e) s = .next (settle s)))

/-- BAR0 (R7, R286): an access that a register does not accept writes nothing, reads 0 and is counted (purser 0x0000); a read that it
accepts is answered with the register's value and writes nothing but the latch of TIDE (the row that brings it: log entry 7); a read of
the low half of TIDE answers it and latches the high half, which the next read of the high half takes. REGISTER_WRITE of a dword of the
MSI-X table writes that dword alone, masked vectors staying masked. -/
def Obligations.bar0_accesses : Prop :=
  ∀ (s : State) (o size v d : Nat),
    (accessOk o size = false → exec (.bar0RefusedAccess o size true) s = .next (settle (countPurser 0x0000 1 s)) ∧
      exec (.bar0RefusedAccess o size false) s = .next (settle (emit (.registerData 0) (countPurser 0x0000 1 s))) ∧
      exec (.registerWrite o size v) s = .next (settle (countPurser 0x0000 1 s))) ∧
    (accessOk o size = true → ∃ t, exec (.bar0RefusedAccess o size false) s = .next t ∧
      t.outbox = s.outbox ++ [.registerData (readRegister s o size)] ∧
      t = settle { s with outbox := t.outbox, host := { s.host with tideLatch := t.host.tideLatch } } ∧
      (o ≠ 0x0018 → o ≠ 0x001C → t.host.tideLatch = s.host.tideLatch)) ∧
    (∀ high, s.host.tideLatch = some high → ∃ t, exec (.bar0RefusedAccess 0x001C 4 false) s = .next t ∧
      t.outbox = s.outbox ++ [.registerData high] ∧ t.host.tideLatch = none) ∧
    exec .tideLowRead s = .next (settle { s with
      host := { s.host with tideLatch := some (s.tide.count.toNat / 2 ^ 32) }
      outbox := s.outbox ++ [.registerData (s.tide.count.toNat % 2 ^ 32)] }) ∧
    (d < 256 → s.host.msixPending = 0 → exec (.registerWrite (0x8000 + 4 * d) 4 v) s =
      .next (settle { s with host := { s.host with msix := tabPut s.host.msix d (v % 2 ^ 32) } }))

/-! ### Rings -/

/-- RING_CONFIG_WRITE while ENABLE is 0 and IDLE is 1 (R288): the base or write-back address takes the value written; at any other
time, and for a value that is not aligned, CFG_ERR is set and the register stays.
RING_ENABLE, RING_DISABLE and RING_IDLE of a queue pair (R288): a valid control write that sets ENABLE takes effect on a ready part
and zeroes every index; one that clears it leaves the indices; and IDLE becomes 1 when nothing of a disabled ring is in flight. -/
def Obligations.ring_control : Prop :=
  (∀ (s : State) (q v : Nat), q < 16 →
    let p := getQp s q
    (p.ctrl.enable = false → p.status.idle = true →
      (v % 4096 = 0 → exec (.ringConfigWrite (.qp q) .base v) s = .next (settle (modQp q (fun p => { p with sqBase := v % 2 ^ 64 }) s)) ∧
        exec (.ringConfigWrite (.qp q) .cqBase v) s = .next (settle (modQp q (fun p => { p with cqBase := v % 2 ^ 64 }) s))) ∧
      (v % 8 = 0 → exec (.ringConfigWrite (.qp q) .writeBack v) s =
        .next (settle (modQp q (fun p => { p with cqWb := v % 2 ^ 64 }) s)))) ∧
    (s.host.ev.ctrl.enable = false → s.host.ev.status.idle = true →
      (v % 4096 = 0 → exec (.ringConfigWrite .ev .base v) s =
        .next (settle { s with host := { s.host with ev := { s.host.ev with base := v % 2 ^ 64 } } })) ∧
      (v % 8 = 0 → exec (.ringConfigWrite .ev .writeBack v) s =
        .next (settle { s with host := { s.host with ev := { s.host.ev with wb := v % 2 ^ 64 } } }))) ∧
    (p.ctrl.enable = true ∨ p.status.idle = false → ∃ t, exec (.ringConfigWrite (.qp q) .base v) s = .next t ∧
      (getQp t q).status.cfgErr = true ∧ (getQp t q).sqBase = p.sqBase ∧ (∀ k, k ≠ q → getQp t k = getQp s k))) ∧
  (∀ (s : State) (q v : Nat), q < 16 →
    let p := getQp s q
    ctrlRsvd (.qp q) v = false → sizesOk (.qp q) v = true →
    (p.ctrl.enable = false → p.status.idle = true → running s = true → bit v 0 = true →
      ∃ t, exec (.ringEnable (.qp q) v) s = .next t ∧ (getQp t q).ctrl.enable = true ∧ (getQp t q).ctrl.log2 = bits v 7 3 ∧
        (getQp t q).ctrl.cqLog2 = bits v 12 8 ∧ (getQp t q).ctrl.vector = bits v 18 13 ∧ (getQp t q).ctrl.ordered = bit v 1 ∧
        (getQp t q).sqTail = 0 ∧ (getQp t q).sqHead = 0 ∧ (getQp t q).cqHead = 0 ∧ (getQp t q).cqTail = 0 ∧
        (getQp t q).status.idle = false ∧ (getQp t q).sqBase = p.sqBase ∧ (∀ k, k ≠ q → getQp t k = getQp s k)) ∧
    (p.ctrl.enable = true → bits v 7 3 = p.ctrl.log2 → bits v 12 8 = p.ctrl.cqLog2 → bit v 0 = false →
      ∃ t, exec (.ringDisable (.qp q) v) s = .next t ∧ (getQp t q).ctrl.enable = false ∧ (getQp t q).sqTail = p.sqTail ∧
        (getQp t q).sqHead = p.sqHead ∧ (getQp t q).cqHead = p.cqHead ∧ (getQp t q).cqTail = p.cqTail ∧
        (getQp t q).status = p.status ∧ (∀ k, k ≠ q → getQp t k = getQp s k)) ∧
    (p.ctrl.enable = false → inFlight s (.qp q) = false → exec (.ringIdle (.qp q)) s =
      .next (settle (modQp q (fun p => { p with status := { p.status with idle := true } }) s))))

/-- R8 for a ring status register: after a write, a W1C bit is set where the F384 sets it in the same cycle, and else keeps its value
unless the write holds a 1 for it. -/
def Obligations.status_w1c : Prop :=
  ∀ (s : State) (r : RingId) (v setting : Nat), ringNamed r = true →
    ∃ t, exec (.statusW1cWrite r v setting) s = .next t ∧
      (ringStatus t r).overrun = (bit setting 1 || ((ringStatus s r).overrun && !bit v 1)) ∧
      (ringStatus t r).cfgErr = (bit setting 2 || ((ringStatus s r).cfgErr && !bit v 2)) ∧
      (ringStatus t r).dmaErr = (bit setting 3 || ((ringStatus s r).dmaErr && !bit v 3)) ∧
      (ringStatus t r).idle = (ringStatus s r).idle ∧
      (∀ q, r = .qp q → (ringStatus t r).dupTag = (bit setting 4 || ((ringStatus s r).dupTag && !bit v 4))) ∧
      (r = .ev → (ringStatus t r).lost = (bit setting 5 || ((ringStatus s r).lost && !bit v 5))) ∧
      (∀ k, RingId.qp k ≠ r → getQp t k = getQp s k)

/-- The doorbells (R289): a write that moves its index forward by no more than the ring permits, modulo 2^32, is taken; any other is
ignored and sets OVERRUN, and on a queue pair clears ENABLE. -/
def Obligations.doorbells : Prop :=
  ∀ (s : State) (q : Nat) (v : Index), q < 16 →
    let p := getQp s q
    ((v - p.sqTail).toNat ≤ 2 ^ p.ctrl.log2 - (p.sqTail - p.sqHead).toNat → exec (.sqTailDoorbell q v) s =
      .next (settle (modQp q (fun p => { p with sqTail := v }) s))) ∧
    (2 ^ p.ctrl.log2 - (p.sqTail - p.sqHead).toNat < (v - p.sqTail).toNat → ∃ t, exec (.sqTailDoorbell q v) s = .next t ∧
      (getQp t q).sqTail = p.sqTail ∧ (getQp t q).status.overrun = true ∧ (getQp t q).ctrl.enable = false) ∧
    ((v - p.cqHead).toNat ≤ (p.cqTail - p.cqHead).toNat → exec (.cqHeadDoorbell q v) s =
      .next (settle (modQp q (fun p => { p with cqHead := v }) s))) ∧
    ((p.cqTail - p.cqHead).toNat < (v - p.cqHead).toNat → ∃ t, exec (.cqHeadDoorbell q v) s = .next t ∧
      (getQp t q).cqHead = p.cqHead ∧ (getQp t q).status.overrun = true ∧ (getQp t q).ctrl.enable = false) ∧
    ((v - s.host.ev.head).toNat ≤ (s.host.ev.tail - s.host.ev.head).toNat → exec (.evHeadDoorbell v) s =
      .next (settle { s with host := { s.host with ev := { s.host.ev with head := v } } })) ∧
    ((s.host.ev.tail - s.host.ev.head).toNat < (v - s.host.ev.head).toNat → exec (.evHeadDoorbell v) s =
      .next (settle { s with host := { s.host with ev := { s.host.ev with status := { s.host.ev.status with overrun := true } } } })) ∧
    ((v - s.host.aud.head).toNat ≤ (s.host.aud.tail - s.host.aud.head).toNat → exec (.audHeadDoorbell v) s =
      .next (settle { s with host := { s.host with aud := { s.host.aud with head := v } } })) ∧
    ((s.host.aud.tail - s.host.aud.head).toNat < (v - s.host.aud.head).toNat → exec (.audHeadDoorbell v) s =
      .next (settle { s with host := { s.host with aud := { s.host.aud with status := { s.host.aud.status with overrun := true } } } }))

/-- COMMAND_FETCH (R293, R304, on a pair that may fetch): SQ_HEAD advances and the command that the entry's bytes spell waits in ring
order; or, where its tag is that of a command of the same queue pair fetched and not yet completed, it is discarded, no completion is
written, DUP_TAG is set and RING_ERROR names the queue pair, the tag and the reason (while the queue of events has room). Where the read
failed SQ_HEAD stays and DMA_ERR is set. -/
def Obligations.command_fetch : Prop :=
  ∀ (s : State) (q : Nat) (entry : List Byte), canFetch s q = true →
    let p := getQp s q
    let c := parseCmd entry
    (tagInUse s q c.tag = false → exec (.commandFetch q (some entry)) s =
      .next (settle (modQp q (fun p => { p with sqHead := p.sqHead + 1, fetched := p.fetched ++ [c] }) s))) ∧
    (tagInUse s q c.tag = true → ∃ t, exec (.commandFetch q (some entry)) s = .next t ∧ (getQp t q).sqHead = p.sqHead + 1 ∧
      (getQp t q).fetched = p.fetched ∧ (getQp t q).status.dupTag = true ∧ (getQp t q).cqTail = p.cqTail ∧ t.quiet = s.quiet ∧
      t.host.running = s.host.running ∧ (s.host.evQueue.length < 4096 →
        ∃ e ∈ t.host.evQueue, e.code = 0x0002 ∧ e.tide = now s ∧ e.params = le 1 q ++ zeros 1 ++ le 2 c.tag ++ le 1 0)) ∧
    (tagInUse s q c.tag = true ↔ (∃ d ∈ p.fetched, d.tag = c.tag) ∨
      ∃ r ∈ runningOf s q, r.x.src = .ring q ∧ r.x.cmd.tag = c.tag) ∧
    (∃ t, exec (.commandFetch q none) s = .next t ∧ (getQp t q).sqHead = p.sqHead ∧ (getQp t q).fetched = p.fetched ∧
      (getQp t q).status.dmaErr = true ∧ t.quiet = s.quiet)

/-- COMMAND_DISPATCH (R18, R292, R309 item 1): the oldest fetched command starts on a surviving core, or, where its opcode is not
assigned, completes with BAD_OPCODE; nothing outside the rings changes. -/
def Obligations.command_dispatch : Prop :=
  ∀ (s : State) (q : Nat) (c : Cmd) (rest : List Cmd) (d : Option (List Byte)) (ok entryOk : Bool),
    let x : Exec := { src := .ring q, cmd := c, desc := if c.descLen = 0 then some [] else d, resultOk := ok, entryOk := entryOk }
    (getQp s q).fetched = c :: rest → mayDispatch s q x = true →
    (opcodeAssigned c.opcode = true → coresUp s ≠ [] → ∃ t k, exec (.commandDispatch q d ok entryOk) s = .next t ∧ k ∈ coresUp s ∧
      t.host.running = s.host.running ++ [{ x := x, core := k, orphan := false }] ∧ (getQp t q).fetched = rest ∧
      t.quiet = s.quiet ∧ t.outbox = s.outbox) ∧
    (opcodeAssigned c.opcode = false → ∃ t, exec (.commandDispatch q d ok entryOk) s = .next t ∧
      Answered { x with desc := some [] } stBadOpcode 0 0 [] s t ∧ t.host.running = s.host.running ∧ t.quiet = s.quiet)

/-- IRQ_COAL_TIMER and EVENT_RING_WRITE (R290, R296, R298): a ring whose COAL_TIME has expired raises its vector and has no unsignalled
entries; and where the event ring has room, the oldest event that waits is written at EV_TAIL and leaves the queue, or, where the write
fails on the link, sets DMA_ERR (Table 11.6) and waits on (log entry 45). -/
def Obligations.interrupts_and_events : Prop :=
  ∀ (s : State) (q : Nat) (e : Event) (rest : List Event),
    (coalDue (getQp s q).ctrl (getQp s q).unsignalled (getQp s q).firstUnsignalled (now s) = true →
      ∃ t, exec (.irqCoalTimer (.qp q)) s = .next t ∧ (getQp t q).unsignalled = 0 ∧ t.quiet = s.quiet ∧
        (vectorMasked s.host (getQp s q).ctrl.vector = true → t.outbox = s.outbox ∧
          ((getQp s q).ctrl.vector < 64 → t.host.msixPending.getLsbD (getQp s q).ctrl.vector = true)) ∧
        (vectorMasked s.host (getQp s q).ctrl.vector = false → t.outbox = s.outbox ++ [.interrupt (getQp s q).ctrl.vector])) ∧
    (s.host.evQueue = e :: rest → evRoom s = true → s.host.evLost = 0 → ∃ t, exec (.eventRingWrite true) s = .next t ∧
      t.host.evQueue = rest ∧ t.host.ev.tail = s.host.ev.tail + 1 ∧ t.quiet = s.quiet ∧ t.flt = s.flt ∧
      Output.hostWrite (s.host.ev.base + (s.host.ev.tail.toNat % 2 ^ s.host.ev.ctrl.log2) * 64) e.bytes ∈ t.outbox) ∧
    (s.host.evQueue = e :: rest → evRoom s = true → ∃ t, exec (.eventRingWrite false) s = .next t ∧
      t.host.ev.status.dmaErr = true ∧ t.host.evQueue = e :: rest ∧ t.host.ev.tail = s.host.ev.tail ∧ t.quiet = s.quiet ∧
      t.flt = s.flt)

/-! ### Device and job commands -/

/-- The Device commands (Table 12.5), each where its checks pass: the completion carries OK with the row's result words and data, and
nothing else changes but what the row says: SET_LATENCY_BUDGET and THROTTLE_SET take effect in the next tide tick, and DEV_RESET
resets the module 1 ms later. Where a check fails, the completion carries the status of the first in R309's order, and nothing else
changes. -/
def Obligations.device_commands : Prop :=
  ∀ (x : Exec) (s : State),
    (Accepts x (rowDevInfo x) s → ∃ data, data.length = 128 ∧ field data 0 2 = 0x384 ∧ bytesAt data 8 8 = le 8 serial64 ∧
      bytesAt data 16 2 = le 2 (ownAddr s) ∧ bytesAt data 24 8 = le 8 s.tide.count.toNat ∧ bytesAt data 32 4 = le 4 (devStatus s) ∧
      Done (.devInfo x) x 0 0 data s s) ∧
    (Accepts x (rowNop x) s → Done (.nop x) x s.tide.count.toNat (param x 0 8) [] s s) ∧
    (Accepts x (rowMonitorRead x) s → Done (.monitorRead x) x 0 0 ((List.range 112).map (monitorBytes s)).flatten s s) ∧
    (Accepts x (rowSetLatencyBudget x) s →
      Done (.setLatencyBudget x) x 0 0 [] { s with deferred := s.deferred ++ [match param x 0 1 with
        | 0 => .deviceBudget (param x 4 4)
        | 1 => .jobBudget x.cmd.job (if param x 4 4 = 0xFFFFFFFF then none else some (param x 4 4))
        | _ => .hawserBudget (param x 2 2) (if param x 4 4 = 0xFFFFFFFF then none else some (param x 4 4))] } s) ∧
    (Accepts x (rowThrottleSet x) s → Done (.throttleSet x) x 0 0 [] { s with deferred := s.deferred ++
      [.throttle (if param x 0 2 = 0 then 1650 else param x 0 2) (if param x 2 2 = 0 then 105 else param x 2 2)] } s) ∧
    (Accepts x (rowDevReset x) s →
      Done (.devReset x) x 0 0 [] { s with sys := { s.sys with devResetAt := some (s.tide.count + 1000000) } } s) ∧
    (∀ (c : Instr) (row : State → Row) (f : Failed),
      (c, row) ∈ [(.devInfo x, rowDevInfo x), (.nop x, rowNop x), (.monitorRead x, rowMonitorRead x),
        (.setLatencyBudget x, rowSetLatencyBudget x), (.throttleSet x, rowThrottleSet x), (.devReset x, rowDevReset x)] →
      Rejects x row f s → ∃ t, exec c s = .next t ∧ Answered x f.status f.r0 f.r1 [] s t ∧ t.quiet = s.quiet)

/-- The Job commands (Table 12.6), each where its checks pass. JOB_CREATE makes an UNLAUNCHED job; JOB_DESTROY removes it; the SET
commands write their field of the job, JOB_RANKS_SET the rank table's range too; JOB_QUERY changes nothing. -/
def Obligations.job_commands : Prop :=
  ∀ (x : Exec) (s : State),
    let j := x.cmd.job
    (Accepts x (rowJobCreate x) s → Done (.jobCreate x) x 0 0 [] { s with jobs := tabPut s.jobs j Job.created } s) ∧
    (Accepts x (rowJobDestroy x) s → ∃ d, Done (.jobDestroy x) x 0 0 [] { s with
        jobs := tabDel s.jobs j, deferred := d,
        net := { s.net with told := s.net.told.filter (fun k => k.job != j), asked := s.net.asked.filter (fun k => k.job != j) } } s ∧
      d ⊆ s.deferred ∧ ∀ b, Deferred.jobBudget j b ∉ d) ∧
    (Accepts x (rowJobRanksSet x) s → Done (.jobRanksSet x) x 0 0 []
      (setRanks j (param x 0 4) (param x 4 4) (rankWords (desc x) (min (param x 4 4) 65536)) s) s) ∧
    (Accepts x (rowJobClassSet x) s → Done (.jobClassSet x) x 0 0 [] { s with jobs := tabMod s.jobs j (fun y =>
      { y with classes := { reduce := param x 0 1, request := param x 1 1, write := param x 2 1, mask := param x 3 1 } }) } s) ∧
    (Accepts x (rowJobSliceSet x) s → Done (.jobSliceSet x) x 0 0 [] { s with jobs := tabMod s.jobs j (fun y =>
      { y with closed := bit (param x 0 1) 0, sliceMask := leNat (desc x) }) } s) ∧
    (Accepts x (rowPhaseMapSet x) s → ∃ f : Job → Job, Done (.phaseMapSet x) x 0 0 [] { s with jobs := tabMod s.jobs j f } s ∧
      ∀ y, f y = { y with phaseMaps := (f y).phaseMaps } ∧
        (0 < (parsePhaseMap (desc x)).stages → (f y).phaseMaps = tabPut y.phaseMaps (field (desc x) 0 1) (parsePhaseMap (desc x)))) ∧
    (Accepts x (rowJobQuery x) s → ∃ data, data.length = 64 ∧ field data 0 1 = launchCode (jobOf s x).launch ∧
      Done (.jobQuery x) x 0 0 data s s)

/-! ### Crossing, route, switch and link commands -/

/-- The Crossing commands (Table 12.7, R171, R172). CROSSING_OPEN makes a SYNCING crossing with four fresh lanes and the incarnation
after the one kept; CROSSING_CLOSE removes it and keeps the incarnation; CROSSING_RESET makes it SYNCING with the next incarnation;
CROSSING_QUERY changes nothing. -/
def Obligations.crossing_commands : Prop :=
  ∀ (x : Exec) (s : State) (c : Crossing),
    let l := param x 0 1
    let pl := param x 1 1
    let peer := param x 2 2
    (Accepts x (rowCrossingOpen x) s → ∃ first, freeFour s = some first ∧ Done (.crossingOpen x) x first 0 []
      (touchLanding l (putInc l peer pl (getInc s l peer pl + 1) { s with xings := s.xings ++
        [{ landing := l, peer := peer, peerLanding := pl, first := first, rto := if param x 4 4 = 0 then 50000 else param x 4 4,
           retryLimit := if param x 8 1 = 0 then 32 else param x 8 1, window := if param x 10 2 = 0 then 4096 else param x 10 2,
           state := .syncing, retransmits := 0, lanes := List.replicate 4 XLane.fresh, downLane := 0 }] })) s) ∧
    (Accepts x (rowCrossingClose x) s → findXing s l peer pl = some c → ∃ t, exec (.crossingClose x) s = .next t ∧
      Replied x stOk 0 0 t ∧ (∀ y ∈ t.xings, y.first ≠ c.first) ∧ t.incs = s.incs ∧
      t.net = { s.net with told := t.net.told } ∧ t.octxs.map Prod.fst = s.octxs.map Prod.fst) ∧
    (Accepts x (rowCrossingReset x) s → findXing s l peer pl = some c → ∃ t, exec (.crossingReset x) s = .next t ∧
      Replied x stOk 0 0 t ∧ getInc t c.landing c.peer c.peerLanding = getInc s c.landing c.peer c.peerLanding + 1 ∧
      (∀ y ∈ t.xings, y.landing = c.landing → y.peer = c.peer → y.peerLanding = c.peerLanding →
        y.state = .syncing ∧ y.lanes = List.replicate 4 XLane.fresh) ∧ t.net = s.net) ∧
    (Accepts x (rowCrossingQuery x) s → findXing s l peer pl = some c → ∃ data, data.length = 64 ∧ field data 0 2 = c.peer % 65536 ∧
      field data 4 1 = xstateCode c.state ∧ Done (.crossingQuery x) x 0 0 data s s)

/-- The Route commands (Table 12.8, R158, R197, R382). ENDPOINT_SET writes its entries; ROUTE_SET writes entries, and the attribute
bytes where they are included, into the bank that is IDLE and into no other; ROUTE_QUERY changes nothing; FABRIC_ADDR_SET sets the
F384's address, the first one releasing the slips in the next tick. -/
def Obligations.route_commands : Prop :=
  ∀ (x : Exec) (s : State) (b : Nat),
    (Accepts x (rowEndpointSet x) s → Done (.endpointSet x) x 0 0 [] { s with net := { s.net with
      endpoints := putRun s.net.endpoints (param x 0 4) (rankWords (desc x) (min (param x 4 4) 65536)) } } s) ∧
    (Accepts x (rowRouteSet x) s → idleBank s = some b → Done (.routeSet x) x 0 0 [] (setBank b (fun k => { k with
      routes := putRun k.routes (param x 0 4)
        ((List.range (min (param x 4 4) 65536)).map (fun i => (routeWords (desc x) i).map parseCandidate)),
      attrs := if bit (param x 8 1) 0 = true then (List.range 384).zip (bytesAt (desc x) (32 * param x 4 4) 384) else k.attrs }) s) s) ∧
    (Accepts x (rowRouteQuery x) s → ∃ data, data.length = 40 ∧ field data 32 1 = bankCode s.net.bank0.state ∧
      field data 33 1 = bankCode s.net.bank1.state ∧ Done (.routeQuery x) x 0 0 data s s) ∧
    (Accepts x (rowFabricAddrSet x) s → Done (.fabricAddrSet x) x 0 0 [] { s with
      net := { s.net with ownAddr := some (param x 0 2) },
      deferred := if s.net.ownAddr.isNone = true then s.deferred ++ [.releaseSlips] else s.deferred } s)

/-- The switch of routing banks (R196, R198, R200). ROUTE_SWITCH with T = 0 makes the IDLE bank ACTIVE and the ACTIVE one DRAINING at
once; with T it makes it PENDING, and the command waits; ROUTE_SWITCH_TIME makes the switch at T and completes it; BANK_RETIRE returns
a DRAINING bank to IDLE at its time limit. -/
def Obligations.bank_switch : Prop :=
  ∀ (x : Exec) (s : State) (at_ : Tide) (r : Running),
    (Accepts x (rowRouteSwitch x) s → param x 8 8 = 0 → s.net.bank0.state = .active → s.net.bank1.state = .idle →
      ∃ t, exec (.routeSwitch x) s = .next t ∧ Answered x stOk 0 0 [] s t ∧ t.net.bank0.state = .draining ∧
        t.net.bank1.state = .active ∧ t.net.bank1.routes = s.net.bank1.routes ∧ t.net.serviceChanged = true ∧
        t.quiet = { s with net := t.net }.quiet) ∧
    (Accepts x (rowRouteSwitch x) s → param x 8 8 ≠ 0 → s.net.bank0.state = .active → s.net.bank1.state = .idle →
      ∃ t y, exec (.routeSwitch x) s = .next t ∧ y.x = x ∧ t.net.bank1.state = .pending ∧ t.net.bank0 = s.net.bank0 ∧
        t.net.switchAt = some (BitVec.ofNat 64 (param x 8 8)) ∧ t.net.switchCmd = some y ∧ t.outbox = s.outbox) ∧
    (s.net.switchAt = some at_ → tideReached at_ (now s) = true → s.net.bank0.state = .active → s.net.bank1.state = .pending →
      ∃ t, exec .routeSwitchTime s = .next t ∧ t.net.bank0.state = .draining ∧ t.net.bank1.state = .active ∧ t.net.switchAt = none ∧
        t.net.switchCmd = none ∧ (s.net.switchCmd = some r → r.orphan = false → Answered r.x stOk 0 0 [] s t) ∧
        t.quiet = { s with net := t.net }.quiet) ∧
    (s.net.bank0.state = .draining → 10000000 ≤ tideSince s.net.bank0.drainStart (now s) →
      ∃ t, exec .bankRetire s = .next t ∧ t.quiet = { s with net := { s.net with
        bank0 := { s.net.bank0 with state := .idle, zeroSince := none } } }.quiet)

/-- The Switch commands (Table 12.9): limits, tolls and switch values take effect in the next tide tick (R214, R227, R230), quanta at
once (R225), and a tide table waits on its slip for its base (R230). -/
def Obligations.switch_commands : Prop :=
  ∀ (x : Exec) (s : State),
    let slip := param x 0 2
    let quanta := (List.range 6).map (fun i => (i + 2, if param x (4 + 2 * i) 2 = 0 then 130 else param x (4 + 2 * i) 2))
    let toll : Toll := { enable := bit (param x 3 1) 0, rate := param x 4 4, burst := param x 8 4,
                         tokens := if bit (param x 3 1) 1 = true then param x 8 4 * 1000 else 0 }
    let switch : SwitchCfg :=
      { residue := if field (desc x) 0 4 = 0 then 1000 else field (desc x) 0 4,
        cong := (List.range 7).map (fun i =>
          (i + 1, if field (desc x) (8 + 4 * i) 4 = 0 then 8192 else field (desc x) (8 + 4 * i) 4)) }
    let table : TideTable := { base := BitVec.ofNat 64 (param x 8 8), entries := (List.range (param x 2 1)).map (fun i =>
      (BitVec.ofNat 8 (field (desc x) (8 * i) 4), field (desc x) (8 * i + 4) 4)) }
    (Accepts x (rowBufferSet x) s → Done (.bufferSet x) x 0 0 [] { s with
      deferred := s.deferred ++ [.buffers (field (desc x) 0 1) (parseBuffers (desc x))] } s) ∧
    (Accepts x (rowServiceSet x) s → Done (.serviceSet x) x 0 0 [] (modSlip slip (fun p => { p with quantum := quanta }) s) s) ∧
    (Accepts x (rowTollSet x) s → Done (.tollSet x) x 0 0 [] { s with deferred := s.deferred ++ [.toll slip (param x 2 1) toll] } s) ∧
    (Accepts x (rowSwitchSet x) s → Done (.switchSet x) x 0 0 [] { s with deferred := s.deferred ++ [.switch switch] } s) ∧
    (Accepts x (rowTideTableSet x) s → Done (.tideTableSet x) x 0 0 [] (modSlip slip (fun p => { p with pendTable := some table }) s) s)

/-- The hawser and neighbour commands (Table 12.9, R241, R247, R248, R319). Where no slip holds an IDENT, HAWSER_SET forms the hawser of
its slips, numbered by the lowest, with its sequences at 0 and no latency budget, set or deferred; HAWSER_CLEAR dissolves one;
NEIGHBOUR_MAP_SET writes its entries. With an IDENT held, R248's recheck follows. NEIGHBOUR_QUERY changes nothing. -/
def Obligations.hawser_commands : Prop :=
  ∀ (x : Exec) (s : State),
    let ns := ((List.range 16).map (fun i => param x (2 * i) 2)).filter (fun n => n != 0xFFFF)
    let budgets (ns : List Nat) : Power := { s.pwr with hawserBudget := s.pwr.hawserBudget.filter (fun p => !ns.contains p.1) }
    let waits (ns : List Nat) : List Deferred := s.deferred.filter (fun d => match d with
      | .hawserBudget h _ => !ns.contains h
      | _ => true)
    let entries := (List.range (min (param x 0 2) 384)).foldl (fun e i =>
      tabPut e (field (desc x) (16 * i) 2) (parseExpected (desc x) (16 * i))) s.net.expected
    (Accepts x (rowHawserSet x) s → ∃ t, exec (.hawserSet x) s = .next t ∧ Replied x stOk ((sortNat ns).headD 0) 0 t ∧
      ((∀ n, (getSlip s n).ex.held = none) → t.quiet = { s with
        hawsers := tabPut (s.hawsers.filter (fun p => !ns.contains p.1)) ((sortNat ns).headD 0)
          { slips := sortNat ns, txSeq := 0, rxSeq := 0, waiting := [], failover := [] },
        pwr := budgets ns, deferred := waits ns }.quiet)) ∧
    (Accepts x (rowHawserClear x) s → ∃ t, exec (.hawserClear x) s = .next t ∧ Replied x stOk 0 0 t ∧
      ((∀ n, (getSlip s n).ex.held = none) → t.quiet = { s with hawsers := tabDel s.hawsers (param x 0 2),
                                                                 pwr := budgets (getHawser s (param x 0 2)).slips,
                                                                 deferred := waits (getHawser s (param x 0 2)).slips }.quiet)) ∧
    (Accepts x (rowNeighbourMapSet x) s → ∃ t, exec (.neighbourMapSet x) s = .next t ∧ Replied x stOk 0 0 t ∧
      ((∀ n, (getSlip s n).ex.held = none) → t.quiet = { s with net := { s.net with expected := entries } }.quiet)) ∧
    (Accepts x (rowNeighbourQuery x) s → ∃ data, data.length = 144 * param x 2 2 ∧ Done (.neighbourQuery x) x 0 0 data s s)

/-- The lane commands and the counter reads (Table 12.9, R251, R268 to R273). LANE_CONFIG records ENABLE and PRECODE, and a change of
ENABLE takes the slip out of service; LANE_LOOPBACK sets the mode, taking the slip DOWN; reads return their records, and with CLEAR
the counters read become 0. What a lane or an engine measures is a free value (log entry 28). -/
def Obligations.lane_commands : Prop :=
  ∀ (x : Exec) (s : State),
    let slip := param x 0 2
    let clears := bit (param x 0 1) 0
    (Accepts x (rowLaneConfig x) s → ∃ t, exec (.laneConfig x) s = .next t ∧ Replied x stOk 0 0 t ∧
      (getSlip t slip).enable = bit (param x 2 1) 0 ∧ (getSlip t slip).precodeMode = param x 3 1 ∧
      (bit (param x 2 1) 0 = false → (getSlip s slip).enable = true → (getSlip t slip).state = .down)) ∧
    (Accepts x (rowLaneLoopback x) s → param x 2 1 ≠ 0 → ∃ t, exec (.laneLoopback x) s = .next t ∧ Replied x stOk 0 0 t ∧
      (getSlip t slip).loopback = param x 2 1 ∧ (getSlip t slip).pattern = param x 3 1 ∧ (getSlip t slip).state = .down) ∧
    (Accepts x (rowLaneLoopback x) s → param x 2 1 = 0 → ∃ t, exec (.laneLoopback x) s = .next t ∧ Replied x stOk 0 0 t ∧
      (getSlip t slip).loopback = 0 ∧ (getSlip t slip).state = (getSlip s slip).state) ∧
    (Accepts x (rowLinkCountersRead x) s → Done (.linkCountersRead x) x 0 0
      ((slipList x).map (fun n => fit 64 (counterWords (getSlip s n).linkCnt 14))).flatten
      (if clears = true then (slipList x).foldl (fun s n => modSlip n (fun p => { p with linkCnt := [] }) s) s else s) s) ∧
    (Accepts x (rowLaneCountersRead x) s → Done (.laneCountersRead x) x 0 0
      ((slipList x).map (fun n => fit 112 (counterWords (getSlip s n).laneCnt 26))).flatten
      (if clears = true then (slipList x).foldl (fun s n => modSlip n (fun p => { p with laneCnt := [] }) s) s else s) s) ∧
    (Accepts x (rowLaneStatusRead x) s → ∃ t data, exec (.laneStatusRead x) s = .next t ∧ data.length = 64 * param x 2 2 ∧
      Answered x stOk 0 0 data s t ∧ t.quiet = { s with slips := t.slips }.quiet ∧
      (∀ n, (getSlip t n).state = (getSlip s n).state ∧ (getSlip t n).step = (getSlip s n).step)) ∧
    (Accepts x (rowOpticsRead x) s → ∃ t data, exec (.opticsRead x) s = .next t ∧ data.length = 160 * param x 1 1 ∧
      Answered x stOk 0 0 data s t ∧ t.quiet = { s with optics := t.optics }.quiet ∧
      (∀ k, (getEngine t k).state = (getEngine s k).state ∧ (getEngine t k).alarms = (getEngine s k).alarms))

/-! ### Reduction and optimizer commands -/

/-- The Reduction commands (Table 12.10, R47, R54, R58, R76, R79). RCTX_CREATE makes an IDLE context from its descriptor and answers W;
RCTX_DESTROY removes it, and nothing sent by it counts for it any more; RCTX_QUERY changes nothing; RCTX_REFORM sets the enabled slots
and answers how many chunks it discards. -/
def Obligations.reduction_commands : Prop :=
  ∀ (x : Exec) (s : State) (r : Rctx),
    let ctx := param x 0 2
    let d := parseRDesc (desc x)
    (Accepts x (rowRctxCreate x) s → Done (.rctxCreate x) x (d.berthQuota / d.elems) 0 []
        { s with rctxs := tabPut s.rctxs d.ctx (Rctx.created s d) } s ∧
      (Rctx.created s d).state = .idle ∧ (Rctx.created s d).enabled = 2 ^ d.slots - 1 ∧ (Rctx.created s d).base = 0 ∧
      tabHas s.rctxs d.ctx = false) ∧
    (Accepts x (rowRctxDestroy x) s → ∃ t, exec (.rctxDestroy x) s = .next t ∧ Answered x stOk 0 0 [] s t ∧
      tabHas t.rctxs ctx = false ∧ (∀ k, k ≠ ctx → tabHas t.rctxs k = tabHas s.rctxs k) ∧ t.jobs = s.jobs ∧ t.hbm = s.hbm ∧
      t.net = s.net ∧ t.slips = s.slips) ∧
    (Accepts x (rowRctxQuery x) s → tabGet? s.rctxs ctx = some r → ∃ data, field data 0 2 = ctx ∧ field data 2 1 = rstateCode r.state ∧
      bytesAt data 4 2 = le 2 r.w ∧ Done (.rctxQuery x) x 0 0 data s s) ∧
    (Accepts x (rowRctxReform x) s → tabGet? s.rctxs ctx = some r → ∃ t r', exec (.rctxReform x) s = .next t ∧
      Replied x stOk (discardable r).length 0 t ∧ tabGet? t.rctxs ctx = some r' ∧ r'.enabled = leNat (desc x) ∧ r'.d = r.d)

/-- The Optimizer commands (Table 12.11, R85, R87, R89, R123). OCTX_CREATE makes an OPEN context with version STEP committed and confirmed,
linked to its reduction context; OCTX_DESTROY removes it; OCTX_QUERY changes nothing; RESHARD_FENCE leaves the context OPEN with the
fence that its next commit applies. -/
def Obligations.optimizer_commands : Prop :=
  ∀ (x : Exec) (s : State) (o : Octx),
    let n := param x 0 2
    let d := parseODesc (desc x)
    let b := desc x
    let fence : Fence :=
      { epoch := param x 2 1, segments := parseSegments b 0 (param x 4 2), layers := parseLayers b (32 * param x 4 2) (param x 6 2),
        moves := parseMoves b (32 * param x 4 2 + 16 * param x 6 2) (param x 8 4), chunks := [], images := [], imaged := [] }
    (Accepts x (rowOctxCreate x) s → Done (.octxCreate x) x 0 0 []
        (modRctx d.rctx (fun r => { r with octx := some d.octx, reforms := [], period := none, dots := [] })
          { s with octxs := tabPut s.octxs d.octx (Octx.created s d) }) s ∧
      (Octx.created s d).state = .opened ∧ (Octx.created s d).s = d.step ∧ (Octx.created s d).confirmed = true ∧
      (Octx.created s d).epoch = d.epoch ∧ tabHas s.octxs d.octx = false) ∧
    (Accepts x (rowOctxDestroy x) s → ∃ t, exec (.octxDestroy x) s = .next t ∧ Replied x stOk 0 0 t ∧ tabHas t.octxs n = false ∧
      (∀ w ∈ t.hbm.writes, w.octx ≠ n) ∧ t.jobs = s.jobs ∧ t.net = s.net) ∧
    (Accepts x (rowOctxQuery x) s → tabGet? s.octxs n = some o → ∃ data, field data 0 2 = n ∧ field data 2 1 = ostateCode o.state ∧
      bytesAt data 8 8 = le 8 o.s ∧ Done (.octxQuery x) x 0 0 data s s) ∧
    (Accepts x (rowReshardFence x) s → Done (.reshardFence x) x 0 0 [] (modOctx n (fun o => { o with fence := some fence }) s) s)

/-- STEP_COMMIT and STEP_ROLLBACK (R110, R111, R114). Accepted while a chunk of the step is unwritten, STEP_COMMIT leaves the context
COMMITTING with the command waiting, and nothing answers; on a sealed step of a context without peers and without a fence it commits
at once: the version is the next, the context is OPEN, and the completion carries it in RESULT0. STEP_ROLLBACK makes its target the
version and records it. -/
def Obligations.step_commands : Prop :=
  ∀ (x : Exec) (s : State) (o : Octx) (r : Rctx),
    let n := param x 0 2
    tabGet? s.octxs n = some o → tabGet? s.rctxs o.d.rctx = some r →
    (Accepts x (rowStepCommit x) s → o.sealedStep = false → (∃ c ∈ localChunks r o, (getChunk o c.1 c.2).written = false) →
      ∃ t y o', exec (.stepCommit x) s = .next t ∧ tabGet? t.octxs n = some o' ∧ o'.state = .committing ∧ o'.s = o.s ∧
        o'.command = some y ∧ y.x = x ∧ o'.deadline = s.tide.count + BitVec.ofNat 64 (1000 * o.d.beaconTimeout) ∧
        o'.chunks = o.chunks ∧ t.outbox = s.outbox ∧ t.hbm = s.hbm) ∧
    (Accepts x (rowStepCommit x) s → o.sealedStep = true → o.sentReady = false → o.d.peers = [] → o.fence = none →
      ∃ t o', exec (.stepCommit x) s = .next t ∧ tabGet? t.octxs n = some o' ∧ o'.state = .opened ∧ o'.s = o.s + 1 ∧
        o'.confirmed = true ∧ o'.command = none ∧ o'.prev = o.cur ∧ Replied x stOk (o.s + 1) 0 t) ∧
    (Accepts x (rowStepRollback x) s → ∃ t o', exec (.stepRollback x) s = .next t ∧ Replied x stOk (param x 8 8) 0 t ∧
      tabGet? t.octxs n = some o' ∧ o'.s = param x 8 8 ∧ o'.sealedStep = false ∧ (o.state ≠ .halted → o'.state = .opened) ∧
      t.audit.signQueue.length = s.audit.signQueue.length + 1)

/-- R353: a STEP_COMMIT that is accepted names a step of at most 2^64 - 2; for step 2^64 - 1 one whose packet keeps to its row completes
with RANGE and has no effect. -/
def Obligations.largest_step : Prop :=
  (∀ (x : Exec) (s : State), Accepts x (rowStepCommit x) s → param x 8 8 ≤ 2 ^ 64 - 2) ∧
  (∀ (x : Exec) (s s' : State) (r : Running) (q : Nat), x.src = .ring q → admitCmd x 0x0703 s = some (r, s') → r.orphan = false →
    packetBad x (rowStepCommit x s') = false → x.desc.isSome = true → param x 8 8 = 2 ^ 64 - 1 →
    ∃ t, exec (.stepCommit x) s = .next t ∧ Answered x stRange 0 0 [] s t ∧ t.quiet = s.quiet)

/-! ### Time, audit, fault, purser and security commands -/

/-- The Time commands (Table 12.12, R132, R134, R140, R145). TIDE_CONFIG sets PRIORITY and REF_ENABLE; TIDE_QUERY changes nothing;
LAUNCH_AT makes a job PENDING for L, or with L = 0 UNLAUNCHED again; DETERMINISM_SET and TOPOLOGY_SET write their fields of the job. -/
def Obligations.time_commands : Prop :=
  ∀ (x : Exec) (s : State),
    let j := x.cmd.job
    let l := param x 8 8
    (Accepts x (rowTideConfig x) s → ∃ t, exec (.tideConfig x) s = .next t ∧ Replied x stOk 0 0 t ∧ t.tide.priority = param x 0 1 ∧
      t.tide.refEnable = bit (param x 1 1) 0 ∧ t.tide.count = s.tide.count ∧ t.jobs = s.jobs ∧ t.net = s.net ∧ t.hbm = s.hbm) ∧
    (Accepts x (rowTideQuery x) s → ∃ data, data.length = 64 ∧ bytesAt data 0 8 = le 8 s.tide.count.toNat ∧
      Done (.tideQuery x) x 0 0 data s s) ∧
    (Accepts x (rowLaunchAt x) s → l ≠ 0 → Done (.launchAt x) x 0 0 []
      { s with jobs := tabMod s.jobs j (fun y => { y with launch := .pending, l := BitVec.ofNat 64 l }) } s) ∧
    (Accepts x (rowLaunchAt x) s → l = 0 → Done (.launchAt x) x 0 0 []
      { s with jobs := tabMod s.jobs j (fun y => { y with launch := .unlaunched }) } s) ∧
    (Accepts x (rowDeterminismSet x) s → Done (.determinismSet x) x 0 0 [] { s with jobs := tabMod s.jobs j (fun y =>
      { y with replay := bit (param x 0 1) 0, seed := BitVec.ofNat 64 l }) } s) ∧
    (Accepts x (rowTopologySet x) s → Done (.topologySet x) x 0 0 [] { s with jobs := tabMod s.jobs j (fun y =>
      { y with topo := some ((List.range (min (field (desc x) 2 2) 8192)).map (parseTopo (desc x))), topoDigest := sha3 (desc x) }) } s)

/-- AFIQUE_SIGN and AUDIT_RING_WRITE (R150, R153, R154, R297, R360): the ML-DSA-87 engine signs the oldest item, a record then waiting
for the audit ring behind those before it, and a quote completing its ATTEST with 4,947 bytes; and the oldest signed record that fits
is written whole, units skipped where the ring's end cannot hold it, and AUD_TAIL passes it; a write that fails sets DMA_ERR, and the
record waits on (log entry 45).
The Audit commands (Table 12.13, R150, R154, R156, R157). AUDIT_RING_SET places the audit ring, enabled unless LOG2 is 0, with its
indices 0; AUDIT_SEAL queues one record for signature and takes the step's leaves from the context; AUDIT_PATH changes nothing. -/
def Obligations.audit_commands : Prop :=
  (∀ (s : State) (kind ctx step job : Nat) (body : List Byte) (r : Running) (items : List SignItem) (w : SignedRecord)
    (rest : List SignedRecord),
    (s.audit.signQueue = .record kind ctx step job body :: items → unitLost s .mldsa = false → ∃ t sig, exec .afiqueSign s = .next t ∧
      sig = le 4627 (Config.mldsaSign s.sys.aliasSeed (ascii "DZF-AFIQUE") body s.freeCount).toNat ∧
      t.audit = { signQueue := items, waiting := s.audit.waiting ++ [⟨kind, ctx, step, job, body ++ sig⟩] } ∧
      t.quiet = { s with audit := t.audit }.quiet ∧ t.outbox = s.outbox) ∧
    (s.audit.signQueue = .quote r body :: items → unitLost s .mldsa = false → r.orphan = false → ∃ t sig, exec .afiqueSign s = .next t ∧
      sig = le 4627 (Config.mldsaSign s.sys.aliasSeed (ascii "DZF-ATTEST") body s.freeCount).toNat ∧
      Answered r.x stOk 4947 0 (body ++ sig) s t ∧ t.quiet = { s with audit := { s.audit with signQueue := items } }.quiet) ∧
    (let size := 2 ^ s.host.aud.ctrl.log2
     let units := ceilDiv w.bytes.length 64
     let start := s.host.aud.tail.toNat % size
     let skip := if size - start < units then size - start else 0
     s.audit.waiting = w :: rest → s.host.linkUp = true → s.host.aud.ctrl.enable = true →
     (s.host.aud.tail - s.host.aud.head).toNat + skip + units ≤ size →
     (∃ t, exec (.auditRingWrite false) s = .next t ∧ t.audit = s.audit ∧ t.host.aud.status.dmaErr = true ∧
       t.host.aud.tail = s.host.aud.tail ∧ t.quiet = { s with host := { s.host with aud := t.host.aud } }.quiet) ∧
     ∃ t, exec (.auditRingWrite true) s = .next t ∧ t.audit = { s.audit with waiting := rest } ∧
       t.host.aud.tail = s.host.aud.tail + BitVec.ofNat 32 (skip + units) ∧ t.host.aud.head = s.host.aud.head ∧
       Output.hostWrite (s.host.aud.base + 64 * ((start + skip) % size)) (fit (64 * units) w.bytes) ∈ t.outbox ∧
       t.flt = s.flt ∧ t.jobs = s.jobs ∧ t.hbm = s.hbm)) ∧
  (∀ (x : Exec) (s : State) (r : Rctx),
    let ctx := param x 0 2
    let step := param x 8 8
    let lg := param x 0 1
    (Accepts x (rowAuditRingSet x) s → Done (.auditRingSet x) x 0 0 [] { s with host := { s.host with aud := { s.host.aud with
      base := param x 8 8, wb := param x 16 8, head := 0, tail := 0, unsignalled := 0,
      ctrl := { s.host.aud.ctrl with enable := lg != 0, log2 := lg },
      status := { s.host.aud.status with idle := lg == 0 } } } } s) ∧
    (Accepts x (rowAuditSeal x) s → tabGet? s.rctxs ctx = some r → ∃ t r', exec (.auditSeal x) s = .next t ∧
      Answered x stOk 0 0 [] s t ∧ t.audit.signQueue.length = s.audit.signQueue.length + 1 ∧ tabGet? t.rctxs ctx = some r' ∧
      r'.leaves = r.leaves.filter (fun l => l.step != step) ∧ r'.reforms = [] ∧ r'.positions = r.positions ∧ t.jobs = s.jobs ∧
      t.hbm = s.hbm) ∧
    (Accepts x (rowAuditPath x) s → ∃ data, Done (.auditPath x) x 0 0 data s s))

/-- The Fault commands (R335, R338, R341, R343, R354) on a part with no discarded event to report. FAULT_READ changes nothing;
FAULT_ACK makes the named record ACKNOWLEDGED and FAULT_CLEAR makes it CLEARED, every other record as it was; FAULT_MODE_SET sets the
mode; FAULT_INJECT is DENIED.
PURSER_READ (R349): values, then SAT bits; with CLEAR the counters read return to 0. -/
def Obligations.fault_commands : Prop :=
  (∀ (x : Exec) (s : State) (f : FaultRecord), s.host.evLost = 0 → x.entryOk = true →
    let num := param x 0 4
    let put (st : Nat) : List FaultRecord := s.flt.records.map (fun y => if y.num = f.num then { f with state := st } else y)
    (Accepts x (rowFaultRead x) s → ∃ recs, recs = faultsFrom s num (param x 4 2) (bit (param x 6 1) 0) ∧
      Done (.faultRead x) x recs.length 0 (recs.map (faultBytes s)).flatten s s) ∧
    (Accepts x (rowFaultAck x) s → faultNumbered s num = some f → ∃ t, exec (.faultAck x) s = .next t ∧ Answered x stOk 0 0 [] s t ∧
      t.flt = { s.flt with records := put 1 } ∧ t.quiet = s.quiet) ∧
    (Accepts x (rowFaultClear x) s → faultNumbered s num = some f → s.host.evQueue.length < 4096 → ∃ t, exec (.faultClear x) s = .next t ∧
      Answered x stOk 0 0 [] s t ∧ t.flt.records = put 2 ∧ t.quiet = s.quiet ∧ f.state = 1 ∧
      persists s f.cls f.cause f.unit f.detail = false) ∧
    (Accepts x (rowFaultModeSet x) s → ∃ t, exec (.faultModeSet x) s = .next t ∧ Answered x stOk 0 0 [] s t ∧
      t.flt = { s.flt with merge := param x 0 1 == 1 } ∧ anyUncleared s = false) ∧
    (∀ r s', admitCmd x 0x0A04 s = some (r, s') → r.orphan = false → ∃ t, exec (.faultInject x) s = .next t ∧
      Answered x stDenied 0 0 [] s t ∧ t.quiet = s.quiet ∧ t.flt = s.flt)) ∧
  (∀ (x : Exec) (s : State), Accepts x (rowPurserRead x) s →
    let first := param x 0 4
    let n := param x 4 4
    ∃ data, Done (.purserRead x) x 0 0 data s s ∧ data.length = 8 * n + 8 * ceilDiv n 64 ∧
      (∀ i < n, field data (8 * i) 8 = (tabGet s.purser (first + i) zeroCounter).value % 2 ^ 64) ∧
      (s.host.evLost = 0 → x.resultOk = true → x.entryOk = true → bit (param x 8 1) 0 = true → ∃ t, exec (.purserRead x) s = .next t ∧
        t.purser = s.purser.filter (fun p => p.1 < first || first + n ≤ p.1)))

/-- The Security commands (Table 12.14, R356, R360, R361, R368, R371). ATTEST's quote waits for the ML-DSA-87 engine; CERT_READ and
IMAGE_QUERY change nothing; ACTIVATE makes its slot the next to boot. -/
def Obligations.security_commands : Prop :=
  ∀ (x : Exec) (s : State),
    let cert := if param x 0 1 = 0 then identityCert else s.sys.aliasCert
    (Accepts x (rowAttest x) s → ∃ t r, exec (.attest x) s = .next t ∧ r.x = x ∧
      t.audit = { s.audit with signQueue := s.audit.signQueue ++ [.quote r (quoteBody s x.cmd.params)] } ∧
      t.quiet = { s with audit := t.audit }.quiet ∧ t.outbox = s.outbox) ∧
    (Accepts x (rowCertRead x) s → Done (.certRead x) x cert.length 0
      ((cert.drop (param x 4 4)).take (if overService x = true then min x.cmd.resultLen 1368 else x.cmd.resultLen)) s s) ∧
    (Accepts x (rowImageQuery x) s → ∃ data, data.length = 128 ∧ bytesAt data 0 1 = le 1 s.aon.boot.slot ∧
      bytesAt data 1 1 = le 1 s.aon.nextSlot ∧ Done (.imageQuery x) x 0 0 data s s) ∧
    (Accepts x (rowActivate x) s → Done (.activate x) x 0 0 [] { s with aon := { s.aon with nextSlot := param x 0 1 } } s)


/-! ### Mailbox, service port, image transfer, SMBus -/

/-- The mailbox (R299, Table 11.9), where the host reaches it: every command is answered at once. IDENTIFY names the device and SERIAL;
IDENTIFY_MEMORY_DEVICE 480 GiB, all volatile, no partitions and no label storage area; GET_HEALTH_INFO's bit 0 is 1 while an uncleared
fault has level 3 or above; log 0 is the one log; other commands are answered Unsupported. Payload offsets are CXL's (log entry 35).
Where the host does not reach the mailbox, its rows change nothing. -/
def Obligations.mailbox_commands : Prop :=
  (∀ (s : State) (log offset length value opcode : Nat) (all : Bool) (handles : List Nat) (bs : List Byte),
    let answers (c : Instr) (s' : State) (ok : List Byte → Prop) : Prop :=
      ∃ data, exec c s = .next (settle { s' with outbox := s'.outbox ++ [.mailbox false data] }) ∧ ok data
    let drawn : State := { s with freeCount := s.freeCount + 1 }
    let kept (b : Bool) : List (Nat × List Byte) :=
      s.mbox.records.filter (fun r => !(r.1 == log && (b || handles.contains (field r.2 20 2))))
    (mailboxOpen s = true →
      answers .identify s (fun d => d.length = 18 ∧ bytesAt d 2 2 = le 2 0x384 ∧ bytesAt d 8 8 = le 8 serial64) ∧
      answers .identifyMemoryDevice s (fun d => d.length = 69 ∧ bytesAt d 16 8 = le 8 1920 ∧ bytesAt d 24 8 = le 8 1920 ∧
        bytesAt d 32 8 = zeros 8 ∧ bytesAt d 40 8 = zeros 8 ∧ bytesAt d 56 4 = zeros 4) ∧
      answers .getSupportedLogs s (fun d => bytesAt d 0 2 = le 2 1) ∧
      answers (.getLog 0 offset length) s (fun d => d = (effectsLog.drop offset).take length) ∧
      answers (.getEventRecords log) drawn (fun d =>
        let rs := s.mbox.records.filter (fun r => r.1 == log)
        bytesAt d 20 2 = le 2 rs.length ∧ d.drop 32 = (rs.map Prod.snd).flatten) ∧
      answers (.clearEventRecords log all handles) { s with mbox := { s.mbox with records := kept all } } (fun d => d = []) ∧
      answers .getEventInterruptPolicy s (fun d => d = fit 4 s.mbox.policy) ∧
      answers (.setEventInterruptPolicy bs) { s with mbox := { s.mbox with policy := fit 4 bs } } (fun d => d = []) ∧
      answers .getHealthInfo s (fun d => d = healthBytes s ∧ d.length = 18 ∧ bit (field d 0 1) 0 = decide (3 ≤ faultLevel s)) ∧
      answers .getAlertConfiguration s (fun d => d = alertImage s) ∧
      answers (.setAlertConfiguration bs) { s with mbox := { s.mbox with alerts := setAlerts (fit 12 bs) (alertImage s) } }
        (fun d => d = []) ∧
      (s.mbox.timestamp = none → answers .getTimestamp s (fun d => d = zeros 8)) ∧
      (∀ v, s.mbox.timestamp = some v → answers .getTimestamp drawn (fun d => d.length = 8)) ∧
      answers (.setTimestamp value) { s with mbox := { s.mbox with timestamp := some value } } (fun d => d = []) ∧
      answers .getFwInfo s (fun d => d.length = 80 ∧ bytesAt d 0 1 = le 1 2) ∧
      (log ≠ 0 → exec (.getLog log offset length) s = .next (settle (emit (.mailbox true []) s))) ∧
      exec (.mailboxUnsupported opcode) s = .next (settle (emit (.mailbox true []) s)))) ∧
  (∀ (s : State) (c : Instr) (log offset length value opcode : Nat) (all : Bool) (handles : List Nat) (bs : List Byte),
    mailboxOpen s = false →
    c ∈ [.identify, .identifyMemoryDevice, .getSupportedLogs, .getLog log offset length, .getEventRecords log,
      .clearEventRecords log all handles, .getEventInterruptPolicy, .setEventInterruptPolicy bs, .getHealthInfo,
      .getAlertConfiguration, .setAlertConfiguration bs, .getTimestamp, .setTimestamp value, .getFwInfo, .mailboxUnsupported opcode] →
    exec c s = .next (settle s))

/-- The service port (R300 to R303, R305), where it answers. DISCOVER to its MAC or to the broadcast address answers SERIAL and DEV_STATUS,
under ROM recovery too; a frame that breaks the rules is discarded and counted (purser 0x0004). A command frame starts one command, or
holds it back while FENCE does, or is answered again from the completion kept; while 8 run, and under recovery, it is discarded and
counted. SUBSCRIBE holds at most 4 clients. -/
def Obligations.service_port : Prop :=
  ∀ (s : State) (f : FrameHdr) (payload : List Byte) (on : Bool) (k : KeptCompletion), portUp s = true →
    let x := frameExec f payload
    let mac := f.src
    let discards (c : Instr) : Prop := exec c s = .next (settle (countPurser 0x0004 1 s))
    let runs : Prop := frameFor 1 f = true ∧ 64 ≤ payload.length ∧ payload.length ≤ 1400 ∧ s.sys.phase ≠ .recovery ∧ serviceRunning s < 8
    let found := s.svc.kept.find? (fun k => k.mac == mac && k.tag == x.cmd.tag)
    let free : Prop := fenceAllows (runningFor s mac) x = true ∧ ∀ y ∈ s.svc.waiting, y.src ≠ x.src
    let svc (cs : List Nat) : State := { s with svc := { s.svc with clients := cs } }
    let joins : Prop := frameFor 5 f = true ∧ s.sys.phase ≠ .recovery
    (frameFor 0 f = true ∨ broadcastDiscover f = true → exec (.discover f) s = .next (settle (emit
      (.serviceFrame mac 0 0 (le 8 serial64 ++ le 4 (devStatus (settle s)) ++ le 2 0x384 ++ zeros 2)) s))) ∧
    (frameFor 0 f = false → broadcastDiscover f = false → discards (.discover f)) ∧
    (frameAccepted f = false → discards (.serviceFrameDiscard f)) ∧
    (frameAccepted f = true → exec (.serviceFrameDiscard f) s = .next (settle s)) ∧
    (¬ runs → discards (.serviceCommand f.dst f.src f.toServiceHdr payload)) ∧
    (¬ joins → discards (.subscribe f on)) ∧
    (runs → found = some k → k.answer = none → discards (.serviceCommand f.dst f.src f.toServiceHdr payload)) ∧
    (∀ a, runs → found = some k → k.answer = some a →
      exec (.serviceCommand f.dst f.src f.toServiceHdr payload) s = .next (settle (emit (.serviceFrame mac 2 0 a) s))) ∧
    (runs → found = none → opcodeAssigned x.cmd.opcode = true → free → ∃ t core, exec (.serviceCommand f.dst f.src f.toServiceHdr payload) s = .next t ∧
      t.host.running = s.host.running ++ [{ x := x, core := core, orphan := false }] ∧ t.outbox = s.outbox ∧ t.quiet = s.quiet) ∧
    (runs → found = none → opcodeAssigned x.cmd.opcode = true → ¬ free → ∃ t, exec (.serviceCommand f.dst f.src f.toServiceHdr payload) s = .next t ∧
      t.svc.waiting = s.svc.waiting ++ [x] ∧ t.host = s.host ∧ t.outbox = s.outbox ∧ t.quiet = s.quiet) ∧
    (runs → found = none → opcodeAssigned x.cmd.opcode = false →
      ∃ t, exec (.serviceCommand f.dst f.src f.toServiceHdr payload) s = .next t ∧ Answered x stBadOpcode 0 0 [] s t ∧ t.quiet = s.quiet) ∧
    (joins → exec (.subscribe f false) s = .next (settle (svc (s.svc.clients.filter (fun m => m != mac))))) ∧
    (joins → mac ∈ s.svc.clients → exec (.subscribe f true) s = .next (settle s)) ∧
    (joins → mac ∉ s.svc.clients → s.svc.clients.length < 4 → exec (.subscribe f true) s = .next (settle (svc (s.svc.clients ++ [mac])))) ∧
    (joins → mac ∉ s.svc.clients → 4 ≤ s.svc.clients.length → ∃ a, a.length = 32 ∧ bytesAt a 2 2 = le 2 stNoResource ∧
      bytesAt a 4 1 = le 1 0xFF ∧ exec (.subscribe f true) s =
        .next (settle { s with freeCount := s.freeCount + 1, outbox := s.outbox ++ [.serviceFrame mac 2 0 a] }))

/-- The transfer of an image (R369, R370, Table 15.8). IMAGE_BEGIN of a slot that may be written starts its erasure, NEXT_SLOT moving
off it; SLOT_ERASE_DONE makes it RECEIVING and answers OK; IMAGE_DATA writes the units not yet received and answers the first one
missing; IMAGE_END verifies the slot and ends the transfer; IMAGE_ABORT and TRANSFER_SILENCE end it, the slot EMPTY, a BEGIN whose
erasure they cut short answered with a status the manual does not give (log entry 53). -/
def Obligations.image_transfer : Prop :=
  ∀ (s : State) (f : ImageFrame) (t : Transfer),
    let recovery : Bool := s.sys.phase == .recovery
    let x := getSlot s t.slot
    let setSlot (y : ImageSlot) (tr : Option Transfer) (next : Nat) : State :=
      { s with aon := { s.aon with slots := tabPut s.aon.slots t.slot y, transfer := tr, nextSlot := next, lastEnd := none } }
    let status (mac : Nat) (st miss detail : Nat) : Output := .serviceFrame mac 4 0 (le 1 4 ++ le 1 t.slot ++ le 2 st ++ le 4 t.id ++
      le 4 miss ++ zeros 2 ++ le 1 detail ++ zeros 1)
    (portUp s = true → frameFor 4 f.hdr = true → f.hdr.src = t.owner →
      f = { hdr := f.hdr, slot := t.slot, transferId := t.id, value := t.imageLen, data := [], malformed := false } →
      t.slot ≤ 1 → t.id ≠ 0 → 5376 ≤ t.imageLen → t.imageLen ≤ 50331648 → s.aon.transfer = none →
      recovery = true ∨ t.slot ≠ s.aon.boot.slot → t.erasing = true →
      exec (.imageBegin f) s = .next (settle (setSlot ImageSlot.empty (some t)
        (if recovery = false ∧ s.aon.nextSlot = t.slot then s.aon.boot.slot else s.aon.nextSlot)))) ∧
    (s.aon.transfer = some t → t.erasing = true → ∃ u, exec .slotEraseDone s = .next u ∧
      getSlot u t.slot = { ImageSlot.empty with state := 1, imageLen := t.imageLen } ∧ (∀ i, i ≠ t.slot → getSlot u i = getSlot s i) ∧
      u.aon.transfer = some { t with erasing := false } ∧ u.outbox = s.outbox ++ [status t.owner stOk 0 0]) ∧
    (portUp s = true → frameFor 4 f.hdr = true → frameTransfer f s = some t → t.erasing = false → dataFrameOk f (some t) = true →
      f.value + f.data.length ≤ t.imageLen → ∃ u, exec (.imageData f) s = .next u ∧
        (∀ n, tabGet? (getSlot u t.slot).bytes n = (tabGet? x.bytes n).or
          (if n < f.value / 64 then none else (chunksOf (f.data.length + 1) 64 f.data)[n - f.value / 64]?)) ∧
        (∀ i, i ≠ t.slot → getSlot u i = getSlot s i) ∧ u.aon.transfer = s.aon.transfer ∧
        u.outbox = s.outbox ++ [status f.hdr.src stOk (nextMissing (getSlot u t.slot)) 0]) ∧
    (portUp s = true → frameFor 4 f.hdr = true → frameTransfer f s = some t → t.erasing = false → closeFrameOk f = true →
      ∃ u, exec (.imageEnd f) s = .next u ∧ getSlot u t.slot = judgeSlot s x ∧ u.aon.transfer = none ∧
        (getSlot u t.slot).state = (if verifySlot s x = 0 then 2 else 3) ∧ (∀ i, i ≠ t.slot → getSlot u i = getSlot s i) ∧
        u.outbox = s.outbox ++ [status f.hdr.src (if verifySlot s x = 0 then stOk else stDenied) (nextMissing x) (verifySlot s x)]) ∧
    (portUp s = true → frameFor 4 f.hdr = true → frameTransfer f s = some t → closeFrameOk f = true →
      ∃ u st, exec (.imageAbort f) s = .next u ∧
        getSlot u t.slot = ImageSlot.empty ∧ (∀ i, i ≠ t.slot → getSlot u i = getSlot s i) ∧ u.aon.transfer = none ∧
        u.outbox = s.outbox ++ (if t.erasing = true then [status t.owner st 0 0, status f.hdr.src stOk 0 0]
          else [status f.hdr.src stOk (nextMissing x) 0])) ∧
    (s.aon.transfer = some t → t.erasing = false →
      exec .transferSilence s = .next (settle (setSlot ImageSlot.empty none s.aon.nextSlot))) ∧
    (s.aon.transfer = some t → t.erasing = true → ∃ u st, exec .transferSilence s = .next u ∧ getSlot u t.slot = ImageSlot.empty ∧
      (∀ i, i ≠ t.slot → getSlot u i = getSlot s i) ∧ u.aon.transfer = none ∧ u.outbox = s.outbox ++ [status t.owner st 0 0])

/-- The SMBus target (R392, R393) on a part whose rails are on: monitor records 0x00 to 0x6F, DEV_STATUS, SERIAL, the input's power and
current and the throttle state are answered; another command is not acknowledged; and a clock held low too long releases the bus.
Nothing else changes. Before its power it does not answer. -/
def Obligations.smbus_target : Prop :=
  ∀ (s : State) (n : Nat),
    (s.aon.stage = .railsOn →
      exec (.smbusMonitorRead n) s = .next (settle (emit (if n < 112 then .smbusReply (monitorBytes s n) else .smbusNack) s)) ∧
      exec .smbusDevStatusRead s = .next (settle (emit (.smbusReply (le 4 (devStatus (settle s)))) s)) ∧
      exec .smbusSerialRead s = .next (settle (emit (.smbusReply (le 8 serial64)) s)) ∧
      exec .smbusPowerRead s = .next (settle (emit (.smbusReply (le 2 s.aon.inputPower ++ le 2 s.aon.inputCurrent)) s)) ∧
      exec .smbusThrottleRead s = .next (settle (emit (.smbusReply (le 1 s.pwr.k ++
        le 1 ((if s.pwr.k = 16 then 0 else 1) + (if s.aon.tripped = true then 2 else 0)))) s)) ∧
      exec (.smbusNack n) s = .next (settle (emit .smbusNack s)) ∧
      exec .smbusTimeout s = .next (settle (emit .smbusRelease s))) ∧
    (s.aon.stage = .off ∨ s.aon.stage = .inputOn →
      ∀ c ∈ [.smbusMonitorRead n, .smbusDevStatusRead, .smbusSerialRead, .smbusPowerRead, .smbusThrottleRead, .smbusNack n, .smbusTimeout],
        exec c s = .next (settle s))

/-! ### Monitors, throttling, idle units -/

/-- MONITOR_SAMPLE and VOLTAGE_WINDOW_TIMEOUT (R325, R326, R327): each monitor takes its reading with the bits that its threshold or
window gives; a temperature out of range, or a sensor that does not answer, is INVALID; and a monitor outside its window for eleven
samples, 100 us, raises VOLTAGE cause 0, once for each time it leaves the window.
Throttling (R328): every tick of it, k falls by 1, to no less than 8, while a valid sensor is at its threshold or the input power
lies above POWER_CAP; rises by 1, to no more than 16, once every sensor has been cool and the power low for long enough; and else stays.
THERMAL_TRIP (R329) drops the power of the data domains: their contexts, crossings, slips and memory are lost, jobs stay. -/
def Obligations.monitors_and_throttling : Prop :=
  (∀ (s : State) (samples : List Sample) (power current n i : Nat) (v : Int),
    (s.aon.stage ≠ .off → ∃ t, exec (.monitorSample samples power current) s = .next t ∧ t.aon.inputPower = power ∧
      t.aon.inputCurrent = current ∧
      (n < 64 → samples[n]? = some (.reading v) → -4000 ≤ v → v ≤ 15000 → getMonitor t n =
        (getMonitor s n).take v (decide (throttleThreshold s n ≤ v)) false (decide ((if n < 56 then 12000 else 10500) ≤ v))) ∧
      (n < 64 → samples[n]? = some .noAnswer ∨ (samples[n]? = some (.reading v) ∧ (v < -4000 ∨ 15000 < v)) →
        (getMonitor t n).invalid = true) ∧
      (64 ≤ n → n < 96 → samples[n]? = some (.reading v) →
        getMonitor t n = (getMonitor s n).take v (aboveWindow (n - 64) v) (belowWindow (n - 64) v) false) ∧
      (96 ≤ n → n < 112 → samples[n]? = some (.reading v) → getMonitor t n = (getMonitor s n).take v false false false) ∧
      (112 ≤ n ∨ samples.length ≤ n → getMonitor t n = getMonitor s n) ∧
      t.jobs = s.jobs ∧ t.hbm = s.hbm ∧ t.slips = s.slips ∧ t.pwr = s.pwr) ∧
    (let m := getMonitor s (64 + i)
     (i < 32 → 11 ≤ m.outRun → m.outRaised = false → s.aon.collector = true → exec (.voltageWindowTimeout i) s =
       .next (settle (raiseFault 10 0 i (m.value % 65536).toNat 1 (setMonitor (64 + i) { m with outRaised := true } s)))) ∧
     (m.outRun < 11 ∨ m.outRaised = true → exec (.voltageWindowTimeout i) s = .next (settle s)))) ∧
  (∀ (s : State) (i : Nat),
    let heavy : Prop := (∃ j < 64, sensorHot s j = true) ∨ s.pwr.powerCap < s.aon.inputPower
    let k' (t : State) (k : Nat) : Prop := t.pwr = { s.pwr with k := k } ∧ t.quiet = { s with pwr := { s.pwr with k := k } }.quiet
    (s.clk.tide = .locked → heavy → ∃ t, exec .throttleTick s = .next t ∧ k' t (max (s.pwr.k - 1) 8)) ∧
    (s.clk.tide = .locked → ¬ heavy → 100 ≤ s.aon.coolRun → 1000 ≤ s.aon.lowRun →
      ∃ t, exec .throttleTick s = .next t ∧ k' t (min (s.pwr.k + 1) 16)) ∧
    (s.clk.tide = .locked → ¬ heavy → s.aon.coolRun < 100 ∨ s.aon.lowRun < 1000 → exec .throttleTick s = .next (settle s)) ∧
    (i < 64 → (getMonitor s i).trip = true → (getMonitor s i).invalid = false → s.aon.tripped = false → s.aon.stage = .railsOn →
      ∃ t, exec (.thermalTrip i) s = .next t ∧ t.aon.tripped = true ∧ t.clk.coreDiv4 = true ∧ t.clk.datapath = .stopped ∧
        t.rctxs = [] ∧ t.octxs = [] ∧ t.xings = [] ∧ t.slips = [] ∧ t.lands = [] ∧ t.hawsers = [] ∧ t.hbm.mem = [] ∧
        t.net = State.reset.net ∧ t.jobs = s.jobs ∧ t.tide = s.tide))

/-- Idle states (R321, R322): a unit that has met its idle condition for its dwell, and whose wake time fits its budget, enters its idle
state; a reason to work starts its wake; and when its wake is done it is active. No other unit changes. -/
def Obligations.idle_units : Prop :=
  ∀ (s : State) (u : PowerUnit),
    let p := powerOf s u
    (running s = true → powerUnitUp s u = true → p.idle = false → dwellMet s u = true → fitsBudget s u = true →
      ∃ t, exec (.unitIdleEntry u) s = .next t ∧ powerOf t u = { p with idle := true, waking := false } ∧
        (∀ v, v ≠ u → powerOf t v = powerOf s v) ∧ t.slips = s.slips ∧ t.hbm.mem = s.hbm.mem) ∧
    (powerUnitUp s u = true → ∃ t, exec (.unitWake u) s = .next t ∧ (powerOf t u).waking = (p.waking || p.idle) ∧
      (powerOf t u).idle = p.idle ∧ (powerOf t u).lastWork = s.tide.count ∧ (∀ v, v ≠ u → powerOf t v = powerOf s v) ∧
      t.slips = s.slips ∧ t.hbm.mem = s.hbm.mem) ∧
    (p.waking = true → ∃ t, exec (.unitWakeDone u) s = .next t ∧ powerOf t u = { p with idle := false, waking := false } ∧
      (∀ v, v ≠ u → powerOf t v = powerOf s v) ∧ t.slips = s.slips ∧ t.hbm.mem = s.hbm.mem)

/-! ### Lost units and parity -/

/-- A unit that gives no answer is lost (R347): noted with its detection, and what it held goes with it. A core's commands complete
with FAULTED (R294); an engine's slips may not train again, STATE 2 (R275); a stack's bytes are gone (R117); a landing originates
nothing more (R160). A unit that is lost already changes nothing. -/
def Obligations.lost_units : Prop :=
  ∀ (s : State) (u : UnitRef) (k : Nat) (r : Running) (laser : Bool),
    let lost (k : UnitRef) : Bool := unitLost s k
    (unitWatched s u = true → unitExists u = true → lost u = false → ∃ t, exec (.unitHeartbeatTimeout u) s = .next t ∧
      t.units = s.units ++ [(u, match u with | .engine _ => 0 | _ => 2)] ∧ t.jobs = s.jobs ∧ t.tide = s.tide) ∧
    (unitWatched s u = true → lost u = true → exec (.unitHeartbeatTimeout u) s = .next (settle s)) ∧
    (s.aon.collector = true → k < 16 → lost (.core k) = false → ∃ t, exec (.unitHeartbeatTimeout (.core k)) s = .next t ∧
      k ∉ coresUp t ∧ (coresUp t ≠ [] → ∀ y ∈ t.host.running, y.core ≠ k) ∧ t.hbm = s.hbm ∧ t.slips = s.slips ∧
      (r ∈ s.host.running → r.core = k → r.orphan = false → Replied r.x stFaulted 0 0 t)) ∧
    (s.aon.collector = true → k < 192 → lost (.sha3 k) = false → exec (.unitHeartbeatTimeout (.sha3 k)) s =
      .next (settle (raiseFault 13 0 k 0 0 { s with units := s.units ++ [(.sha3 k, 2)] }))) ∧
    (unitWatched s (.stack k) = true → k < 8 → lost (.stack k) = false → ∃ t, exec (.unitHeartbeatTimeout (.stack k)) s = .next t ∧
      (∀ c ∈ t.hbm.mem, stackOf c.1 ≠ k) ∧ (∀ a, stackOf a ≠ k → readByte t a = readByte s a)) ∧
    (unitWatched s (.landing k) = true → k < 8 → lost (.landing k) = false → ∃ t, exec (.unitHeartbeatTimeout (.landing k)) s = .next t ∧
      k ∉ landingsUp t ∧ t.hbm = s.hbm) ∧
    (unitWatched s (.engine k) = true → k < 48 → lost (.engine k) = false → ∃ t, exec (.engineLost k laser) s = .next t ∧
      t.units = s.units ++ [(.engine k, if laser = true then 1 else 0)] ∧ (getEngine t k).state = 2 ∧
      (∀ n, n / 8 = k → (getSlip t n).engineDead = true ∧ (getSlip t n).state = .down) ∧ t.hbm = s.hbm)

/-- PARITY_FAILURE (R345, R346, Table 14.6): what a stack's error correction reports is counted for its stack; a read that passes
changes nothing; one that passes on its repeat is counted (purser 0x0005); one that fails twice is counted (purser 0x0006) and disposed
of by its row: a queued packet leaves its queue, a table entry with a good copy is read again and counted (0x000B), a lane group or a
core is lost with detection 1, and a crossing whose copy or held packet was hit is DOWN. Every form completes, and touches neither the
jobs nor the tide. -/
def Obligations.parity_failures : Prop :=
  ∀ (s : State) (loc : ParityLoc) (r : ParityResult) (ecc : EccResult) (l e k lane : Nat) (x : Crossing),
    let noted := ((parityStack s loc).map (fun k => countEcc k ecc s)).getD s
    let s6 := countPurser 0x0006 1 s
    exec (.parityFailure loc .ok ecc) s = .next (settle noted) ∧
    exec (.parityFailure loc .retryOk ecc) s = .next (settle (countPurser 0x0005 1 noted)) ∧
    (∃ t, exec (.parityFailure loc r ecc) s = .next t ∧ t.jobs = s.jobs ∧ t.tide = s.tide ∧ t.pending = s.pending) ∧
    (∃ t, exec (.parityFailure (.queued l e) .failed ecc) s = .next t ∧ ∀ q ∈ (getLanding t l).voq, q.id ≠ e) ∧
    exec (.parityFailure (.tableEntry l e true) .failed ecc) s = .next (settle (countPurser 0x000B 1 s6)) ∧
    (k < 16 → unitLost s (.laneGroup k) = false → ∃ t, exec (.parityFailure (.laneGroup k) .failed ecc) s = .next t ∧
      t.units = s.units ++ [(.laneGroup k, 1)]) ∧
    (k < 16 → unitLost s (.core k) = false → ∃ t, exec (.parityFailure (.coreCache k) .failed ecc) s = .next t ∧
      t.units = s.units ++ [(.core k, 1)]) ∧
    (findXing s x.landing x.peer x.peerLanding = some x → x.state ≠ .down → ∃ t,
      exec (.parityFailure (.copyOrHeld x.landing x.peer x.peerLanding lane) .failed ecc) s = .next t ∧
      ∀ y ∈ t.xings, y.landing = x.landing → y.peer = x.peer → y.peerLanding = x.peerLanding → y.state = .down)


/-! ### Lanes -/

/-- What a command about one slip's lanes leaves as it was: every other slip, and everything but slips, events, counters and faults. -/
def LanesOnly (slip : Nat) (s t : State) : Prop :=
  t.quiet = { s with slips := t.slips }.quiet ∧ ∀ n, n ≠ slip → getSlip t n = getSlip s n

/-- A lane counter of a slip raised by n (R272). -/
def LaneCounted (slip k n : Nat) (s t : State) : Prop :=
  (tabGet (getSlip t slip).laneCnt k zeroCounter).value = satAdd 32 (tabGet (getSlip s slip).laneCnt k zeroCounter).value n

/-- A link counter of a slip raised by n (R251). -/
def LinkCounted (slip k n : Nat) (s t : State) : Prop :=
  (tabGet (getSlip t slip).linkCnt k zeroCounter).value = satAdd 32 (tabGet (getSlip s slip).linkCnt k zeroCounter).value n

/-- Bring-up (R263, R265, R267, Table 10.5). A training frame whose pattern is read counts for its lane position, and in step 3 fixes
lane order; one whose pattern is not read starts the count again. A step that is complete gives way to the next, and the last to
IDENTIFY; one past its limit is counted and bring-up starts again, as it does, uncounted, on a loss of light; in data mode a loss of
light takes the slip DOWN, but in NAP and SLEEP it is ignored. -/
def Obligations.lane_bringup : Prop :=
  ∀ (s : State) (slip : Nat) (rx : TrainRx),
    let p := getSlip s slip
    let seen := readPattern (bitsToNat ((rx.levels.map (fun l => decide (2 ≤ l))).take 48))
    (3 ≤ p.step → p.step ≤ 6 → ∃ t, exec (.trainingFrame slip rx) s = .next t ∧ LanesOnly slip s t ∧ (getSlip t slip).step = p.step ∧
      (getSlip t slip).state = p.state ∧
      (seen = none → (training (getSlip t slip) (if p.rx.reversed = true then 1 - rx.lane else rx.lane)).frames = 0) ∧
      (∀ pos inv, seen = some (pos, inv) → (training (getSlip t slip) pos).frames = (training p pos).frames + 1 ∧
        (getSlip t slip).rx.reversed = (if p.step = 3 then pos != rx.lane else p.rx.reversed))) ∧
    (p.step < 3 ∨ 6 < p.step → exec (.trainingFrame slip rx) s = .next (settle s)) ∧
    (1 ≤ p.step → p.step ≤ 8 → stepComplete p = true → tabGet? s.clk.serdes (slip / 8) = some .locked →
      ∃ t, exec (.bringupStepDone slip) s = .next t ∧ LanesOnly slip s t ∧ (getSlip t slip).step = p.step + 1 ∧
        (getSlip t slip).stepStart = s.tide.count ∧ (getSlip t slip).state = p.state) ∧
    (p.step = 9 → p.rx.fecLock = true → tabGet? s.clk.serdes (slip / 8) = some .locked →
      ∃ t, exec (.bringupStepDone slip) s = .next t ∧ (getSlip t slip).step = 10 ∧ (getSlip t slip).state = .identify ∧
        (getSlip t slip).ltx = LinkTx.reset ∧ (getSlip t slip).lrx = LinkRx.reset) ∧
    (2 ≤ p.step → p.step ≤ 9 → stepLimit p.step < tideSince p.stepStart s.tide.count →
      ∃ t, exec (.bringupStepTimeout slip) s = .next t ∧ LaneCounted slip 22 1 s t ∧ (getSlip t slip).state = p.state ∧
        (getSlip t slip).step = (if canTrain s slip = true then 1 else 0) ∧ (∀ n, n ≠ slip → getSlip t n = getSlip s n)) ∧
    (2 ≤ p.step → p.step ≤ 9 → ∃ t, exec (.lightLoss slip) s = .next t ∧ (getSlip t slip).laneCnt = p.laneCnt ∧
      (getSlip t slip).state = p.state ∧ (getSlip t slip).step = (if canTrain s slip = true then 1 else 0)) ∧
    (p.step = 10 → p.power ≤ 1 → ∃ t, exec (.lightLoss slip) s = .next t ∧ (getSlip t slip).state = .down) ∧
    (p.step = 10 → 1 < p.power → exec (.lightLoss slip) s = .next (settle s))

/-- What the lanes receive (R254 to R257, R261, R265, R267, R270). Good markers on both lanes set the lanes' state and the skew, and a run
of codewords starts; before both lanes' markers agree no codeword is taken; one in step 9 counts for FEC lock and goes no further; the
eighth uncorrectable one in a row in data mode is a bad frame and takes the slip DOWN; a test's mismatches are counted by lane position,
of framed codewords against those that were sent; and the far-end loopback sends back what it receives. -/
def Obligations.lane_reception : Prop :=
  ∀ (s : State) (slip lane : Nat) (lower upper levels : List Nat) (skew : Int) (inv0 inv1 : Bool) (n0 n1 : Nat),
    let p := getSlip s slip
    let w := receivedWord p.rx lower upper
    let d := rsDecode w.1
    let m := scramble p.rx.prbs (messageBits ((d.map Prod.fst).getD w.1))
    let pos := if p.rx.reversed = true then 1 - lane else lane
    let got := uninvert (if lane = 0 then p.rx.inverted0 else p.rx.inverted1) levels
    let errors := patternErrors p.pattern (if pos = 0 then p.pattern0 else p.pattern1) got
    let awaited := compareAwaited got (if pos = 0 then p.await0 else p.await1)
    let tests : Prop := p.loopback = 1 ∨ p.loopback = 2 ∨ p.loopback = 4
    (laneListens p = true → readMarker lower = some (0, inv0, n0) → readMarker upper = some (1, inv1, n1) → p.rx.amBad0 < 3 →
      p.rx.amBad1 < 3 → ∃ t, exec (.alignmentMarker slip lower upper skew) s = .next t ∧ LanesOnly slip s t ∧
        (getSlip t slip).rx.reversed = false ∧ (getSlip t slip).rx.inverted0 = inv0 ∧ (getSlip t slip).rx.inverted1 = inv1 ∧
        (getSlip t slip).rx.am0 = some n0 ∧ (getSlip t slip).rx.am1 = some n1 ∧ (getSlip t slip).rx.cwn = 0 ∧
        (getSlip t slip).rx.prbs = BitVec.allOnes 31 ∧ (getSlip t slip).tele.skew = skew ∧ (getSlip t slip).state = p.state) ∧
    (laneListens p = false → exec (.alignmentMarker slip lower upper skew) s = .next (settle s) ∧
      exec (.codewordReceive slip lower upper) s = .next (settle s)) ∧
    (1 ≤ p.step → p.step ≤ 8 → p.rx.am0 = none ∨ p.rx.am0 ≠ p.rx.am1 →
      exec (.codewordReceive slip lower upper) s = .next (settle s)) ∧
    (laneListens p = true → p.step = 9 → p.rx.amExpected = false → ∃ t, exec (.codewordReceive slip lower upper) s = .next t ∧
      (getSlip t slip).rx = p.rx.after m.2 w.2.1 w.2.2 (d.map (fun _ => bitsToNat (m.1.take 20))) ∧
      (getSlip t slip).tele.words = p.tele.words + 1 ∧ (getSlip t slip).step = 9 ∧ (getSlip t slip).state = p.state ∧
      LanesOnly slip s t ∧ (d = none → LaneCounted slip 1 1 s t)) ∧
    (laneListens p = true → p.step = 10 → p.rx.fecLock = true → p.rx.amExpected = false → d = none → 7 ≤ p.rx.badRun →
      ∃ t, exec (.codewordReceive slip lower upper) s = .next t ∧ (getSlip t slip).state = .down ∧ LinkCounted slip 0 1 s t) ∧
    (tests → p.pattern ≠ 2 → lane < 2 →
      ∃ t, exec (.patternSymbolReceive slip lane levels) s = .next t ∧ LanesOnly slip s t ∧ LaneCounted slip (24 + pos) errors.1 s t ∧
        (if pos = 0 then (getSlip t slip).pattern0 else (getSlip t slip).pattern1) = errors.2) ∧
    (tests → p.pattern = 2 → lane < 2 →
      ∃ t, exec (.patternSymbolReceive slip lane levels) s = .next t ∧ LanesOnly slip s t ∧ LaneCounted slip (24 + pos) awaited.1 s t ∧
        (if pos = 0 then (getSlip t slip).await0 else (getSlip t slip).await1) = awaited.2) ∧
    (p.loopback = 3 → p.power = 0 →
      exec (.patternSymbolReceive slip lane levels) s = .next (settle (emit (.symbols slip lane true levels) s))) ∧
    (p.loopback = 0 → exec (.patternSymbolReceive slip lane levels) s = .next (settle s))

/-- Replay and the start of packets (R191, R193, R224, R235, R236, R238, R239, R242, R244, R278). A NAK is acted on once and counted; a
timeout with frames held is counted too, keeps them, and the eighth in a row from one FSEQ takes the slip DOWN. PACKET_START sends the
packet that class service picks as DATA frames of its own under the hawser's next HSEQ, its credits consumed; a packet of the failover
goes first, with its own HSEQ; and where nothing may start, lanes that carry data send an IDLE frame, which is not kept for replay. -/
def Obligations.replay_and_packets : Prop :=
  ∀ (s : State) (slip l k : Nat) (f : HeldFrame) (fs : List HeldFrame) (q : Queued) (r : Replica) (fp : SentPkt),
    let p := getSlip s slip
    let h := hawserOf s slip
    let run := if p.ltx.replayFrom = some f.fseq then p.ltx.replayRun + 1 else 1
    let pkt := (stampTide (leaving s slip r) s).1
    let sends (t : State) (c : Nat) (y : SentPkt) : Prop :=
      (∃ new, (getSlip t slip).ltx.held = p.ltx.held ++ new ∧ ∀ z ∈ new, z.ftype = 0 ∧ z.pkts = [y]) ∧
        tabGet (getSlip t slip).ltx.consumed c 0 = tabGet p.ltx.consumed c 0 + BitVec.ofNat 24 (pktUnits y.pkt)
    (p.ltx.nakPending = true → ∃ t, exec (.nakReplay slip) s = .next t ∧ (getSlip t slip).ltx.nakPending = false ∧
      (getSlip t slip).ltx.nakActedOn = some (p.ltx.acked.getD 0xFFF) ∧
      (p.state ≠ .down → p.ltx.held ≠ [] → LinkCounted slip 4 1 s t) ∧
      (p.state ≠ .down → p.ltx.held = f :: fs → run < 8 →
        (getSlip t slip).ltx.held = p.ltx.held ∧ (getSlip t slip).ltx.ackChanged = p.ltx.ackChanged)) ∧
    (p.ltx.nakPending = false → exec (.nakReplay slip) s = .next (settle s)) ∧
    (p.state ≠ .down → p.ltx.held = f :: fs → 8000 ≤ tideSince p.ltx.ackChanged s.tide.count →
      ∃ t, exec (.replayTimeout slip) s = .next t ∧ LinkCounted slip 4 1 s t ∧ LinkCounted slip 5 1 s t ∧
        (8 ≤ run → (getSlip t slip).state = .down) ∧
        (run < 8 → (getSlip t slip).state = p.state ∧ (getSlip t slip).ltx.held = p.ltx.held ∧ (getSlip t slip).ltx.replayRun = run ∧
          (getSlip t slip).ltx.ackChanged = s.tide.count)) ∧
    (p.state = .down ∨ p.ltx.held = [] ∨ tideSince p.ltx.ackChanged s.tide.count < 8000 →
      exec (.replayTimeout slip) s = .next (settle s)) ∧
    ((getHawser s h).failover = [] → maySend s slip = true → (pickClass s slip).1 = some k → classHead s slip k = some (l, q, r) →
      framesFit s slip r.pkt = true → ∃ t, exec (.packetStart slip) s = .next t ∧
        sends t k { seq := (getHawser s h).txSeq, pkt := pkt, via := q.chargedSlip } ∧
        (getHawser t h).txSeq = (getHawser s h).txSeq + 1 ∧ t.jobs = s.jobs ∧ t.hbm = s.hbm ∧ t.net = s.net) ∧
    ((getHawser s h).failover ≠ [] → failoverHead s slip = some fp → framesFit s slip fp.pkt = true → maySend s slip = true →
      ∃ t, exec (.packetStart slip) s = .next t ∧ sends t fp.pkt.hdr.cls fp ∧ (getHawser t h).txSeq = (getHawser s h).txSeq ∧
        (getHawser t h).failover = (getHawser s h).failover.filter (fun x => x.seq != fp.seq)) ∧
    (maySend s slip = false → p.tx.data = true → p.power ≤ 1 ∨ p.waking = true →
      ∃ t b, exec (.packetStart slip) s = .next t ∧ LanesOnly slip s t ∧ Output.frame slip b ∈ t.outbox ∧
        (getSlip t slip).ltx = p.ltx ∧ (getSlip t slip).tx.powerReq = laneRequest s slip) ∧
    (maySend s slip = false → p.tx.data = false → exec (.packetStart slip) s = .next (settle s))

/-- The neighbour exchange (R246 to R249). IDENT_TIMER sends an IDENT while none has been received, or the widths last reported
disagree; an IDENT in IDENTIFY is judged, kept and answered, and a refused one quarantines the slip; one with a reserved bit set is
discarded and counted; a changed one in service takes the slip DOWN. An IDENT_ACK that refuses quarantines a slip in IDENTIFY. No IDENT
within 1 ms of entry is counted and DOWN. -/
def Obligations.neighbour_exchange : Prop :=
  ∀ (s : State) (slip : Nat) (m : Ident) (a : IdentAck),
    let p := getSlip s slip
    let r := identResult s slip m
    (p.state = .identify → p.ex.held = none → p.ex.accepted = none → p.ltx.held.length < 256 → ∃ t, exec (.identTimer slip) s = .next t ∧
      LanesOnly slip s t ∧ (∃ f, (getSlip t slip).ltx.held = p.ltx.held ++ [f] ∧ f.ftype = 2 ∧
        f.units = [(identBytes (ownIdent s slip)).take 64, (identBytes (ownIdent s slip)).drop 64]) ∧
      (getSlip t slip).state = .identify ∧ (getSlip t slip).ex.reported = some (widthUp s slip)) ∧
    (p.state = .identify → p.ex.held = some m → p.ex.accepted = some m → widthsAgree p m = false → ∃ t,
      exec (.identTimer slip) s = .next t ∧ (getSlip t slip).ex.reported = some (widthUp s slip)) ∧
    (p.state = .down → exec (.ident slip m) s = .next (settle s) ∧ exec (.identAck slip a) s = .next (settle s)) ∧
    (p.state ≠ .down → m.rsvd = true → exec (.ident slip m) s = .next (settle (countLink slip 10 1 s))) ∧
    (p.state ≠ .down → a.rsvd = true → exec (.identAck slip a) s = .next (settle (countLink slip 10 1 s))) ∧
    (p.state = .identify → m.rsvd = false → ∃ t, exec (.ident slip m) s = .next t ∧ (getSlip t slip).ex.held = some m ∧
      (getSlip t slip).ex.lastResult = r ∧ (getSlip t slip).ex.sentAck = some r ∧
      (r = 0 → (getSlip t slip).ex.accepted = some m) ∧ (r ≠ 0 → (getSlip t slip).state = .quarantine)) ∧
    (p.state = .inService → m.rsvd = false → p.ex.accepted = some m → exec (.ident slip m) s = .next (settle s)) ∧
    (p.state = .inService → m.rsvd = false → p.ex.accepted ≠ some m → ∃ t, exec (.ident slip m) s = .next t ∧
      (getSlip t slip).state = .down) ∧
    (p.state = .identify → a.rsvd = false → a.result ≠ 0 → ∃ t, exec (.identAck slip a) s = .next t ∧
      (getSlip t slip).state = .quarantine ∧ (getSlip t slip).ex.gotAck = some a.result) ∧
    (p.state = .identify → a.rsvd = false → a.result = 0 → p.ex.accepted = some m → p.ex.sentAck = some 0 →
      widthsAgree p m = true → ∃ t, exec (.identAck slip a) s = .next t ∧ (getSlip t slip).state = .inService ∧
        (getSlip t slip).ex.gotAck = some 0) ∧
    (p.state = .identify → p.ex.held = none → 1000000 ≤ tideSince p.ex.since s.tide.count → ∃ t,
      exec (.identTimeout slip) s = .next t ∧ LinkCounted slip 11 1 s t ∧ (getSlip t slip).state = .down)

/-- Lane power and optics (R274, R277 to R280). A slip in service without work, whose ends have both asked for deeper states in 16
codewords, enters the shallower of them; a reason to wake starts its wake, from NAP and SLEEP with a marker, which ends in ACTIVE once
its receiver is ready, or, past twice its wake time, takes the slip DOWN and is counted; on an awake slip its dwell starts again. An
alarm sets its bit once and raises OPTICS_ALARM; its end clears the bit and no other. -/
def Obligations.lane_power_and_optics : Prop :=
  ∀ (s : State) (slip k lane : Nat) (power : Bool),
    let p := getSlip s slip
    let e := getEngine s k
    let b := alarmBit lane power
    let deeper := min p.tx.powerReq p.rx.powerReq
    (p.state = .inService → p.waking = false → laneBusy s slip = false → 16 ≤ p.tx.powerRun → 16 ≤ p.rx.powerRun →
      p.power < deeper → deeper ≤ laneRequest s slip → ∃ t, exec (.laneIdleEntry slip) s = .next t ∧ LanesOnly slip s t ∧
        (getSlip t slip).power = deeper ∧ (getSlip t slip).state = .inService ∧ (1 < deeper → (getSlip t slip).rx.fecLock = false)) ∧
    (1 ≤ p.power → p.power ≤ 3 → p.waking = false → ∃ t, exec (.laneWake slip) s = .next t ∧ LanesOnly slip s t ∧
      (getSlip t slip).waking = true ∧ (getSlip t slip).wakeStart = s.tide.count ∧ (getSlip t slip).power = p.power ∧
      (getSlip t slip).tx.powerReq = 0 ∧ t.outbox = s.outbox ++ (if p.power = 1 then [] else [.marker slip p.tx.amCount])) ∧
    (p.power = 0 ∨ 3 < p.power ∨ p.waking = true → exec (.laneWake slip) s =
      .next (settle (modSlip slip (fun p => { p with lastWork := s.tide.count, tx := { p.tx with powerReq := 0 } }) s))) ∧
    (p.waking = true → (p.power = 1 ∧ 128 ≤ tideSince p.wakeStart s.tide.count) ∨
      (p.power ≠ 1 ∧ p.rx.fecLock = true ∧ p.rx.sawLocked = true) → ∃ t, exec (.laneWakeDone slip) s = .next t ∧ LanesOnly slip s t ∧
        (getSlip t slip).power = 0 ∧ (getSlip t slip).waking = false ∧ (getSlip t slip).state = p.state ∧
        (p.power = 3 → p.ltx.held.length < 256 → ∃ f, (getSlip t slip).ltx.held = p.ltx.held ++ [f] ∧ f.ftype = 2)) ∧
    (p.waking = true → 2 * laneWakeTime p.power < tideSince p.wakeStart s.tide.count → ∃ t, exec (.wakeFail slip) s = .next t ∧
      LaneCounted slip 23 1 s t ∧ (getSlip t slip).state = .down) ∧
    (lane < 16 → e.alarms.getLsbD b = false → e.state ≠ 2 → (power = true → (getSlip s (8 * k + lane / 2)).state = .inService) →
      ∃ t, exec (.opticsAlarm k lane power) s = .next t ∧ (getEngine t k).alarms.getLsbD b = true ∧
        (∀ i, i ≠ b → (getEngine t k).alarms.getLsbD i = e.alarms.getLsbD i) ∧ (∀ j, j ≠ k → getEngine t j = getEngine s j) ∧
        t.quiet = { s with optics := t.optics }.quiet ∧ t.slips = s.slips) ∧
    (e.alarms.getLsbD b = true → exec (.opticsAlarm k lane power) s = .next (settle s)) ∧
    (lane < 16 → ∃ t, exec (.opticsAlarmClear k lane power) s = .next t ∧ (getEngine t k).alarms.getLsbD b = false ∧
      (∀ i, i ≠ b → (getEngine t k).alarms.getLsbD i = e.alarms.getLsbD i) ∧ (∀ j, j ≠ k → getEngine t j = getEngine s j) ∧
      t.quiet = { s with optics := t.optics }.quiet)


/-! ### Fabric time -/

/-- An idle step is one tide tick (log entry 2): where the tide loop is locked the count rises by 1, modulo 2^64, and what the tick
before deferred is applied; routes are chosen by the slips' states as they stand then (R190); else nothing changes. TIDE_WRAP is the
tick that passes from 2^64 - 1 to 0 (R352). -/
def Obligations.tide_tick : Prop :=
  ∀ s : State,
    (s.pending = [] → s.clk.tide = .locked → ∃ t, step s = .next t ∧ t.tide.count = s.tide.count + 1 ∧ t.deferred = [] ∧
      t.tide.stepped = 0 ∧ (∀ n, (getSlip t n).startState = (getSlip s n).state) ∧ t.pending = [] ∧
      t.aon.slots = s.aon.slots ∧ t.host.qps = s.host.qps ∧ t.hbm.mem = s.hbm.mem) ∧
    (s.pending = [] → s.clk.tide ≠ .locked → step s = .next (settle s)) ∧
    (s.clk.tide = .locked → s.tide.count = BitVec.allOnes 64 → ∃ t, exec .tideWrap s = .next t ∧ t.tide.count = 0 ∧ t.hbm.mem = s.hbm.mem) ∧
    (s.tide.count ≠ BitVec.allOnes 64 → exec .tideWrap s = .next (settle s))

/-- The tide's messages (R140 to R142). ANNOUNCE_TIMER originates what this F384 announces on every peer slip; ANNOUNCE with HOPS below
16 is kept as heard now; SYNC_TIMER and SYNC_REQ originate their messages, which take their own times as they leave; SYNC_RESP gives
OFFSET and DELAY, and steps an unlocked count by a large offset or slews within 100 ppm, locking after 8 good ones; and a silent parent
is dropped. -/
def Obligations.tide_messages : Prop :=
  ∀ (s : State) (slip f4 f2 : Nat) (m a : TideMsg) (t2 t4 : Tide) (c : Candidate),
    let count := s.tide.count
    let up := (getSlip s slip).state
    let e := exchange m t4 f4
    let answered : Prop := s.tide.parent = some slip ∧ s.tide.master = false ∧ m.kind = 2 ∧ s.tide.sentT1.map Prod.fst = some m.seq
    let inW := if e.1.natAbs ≤ 1024 then s.tide.inWindow + 1 else 0
    let sentOn (n : Nat) (x : TideMsg) (t : State) : Prop := ∃ q ∈ (getLanding t (originLanding s (homeLanding n))).sources,
      q.pkt.body = .tide x ∧ q.pkt.hdr.cls = 0 ∧ ∃ y ∈ q.reps, y.dest = .slip n ∧ y.pkt = q.pkt
    let outW := if 2560 < e.1.natAbs then s.tide.outWindow + 1 else 0
    (announcement s = some a → s.clk.tide = .locked → ∃ t, exec .announceTimer s = .next t ∧
      (∀ n ∈ peerSlips s, sentOn n a t) ∧ t.tide = s.tide ∧ t.quiet = { s with lands := t.lands }.quiet) ∧
    (announcement s = none → exec .announceTimer s = .next (settle s)) ∧
    (slip < 384 → up = .inService → m.hops < 16 → m.kind = 0 → s.clk.tide = .locked → ∃ t, exec (.announce slip m) s = .next t ∧
      tabGet? t.tide.heard slip = some { msg := m, heard := count } ∧ t.tide.count = count ∧ t.jobs = s.jobs) ∧
    (16 ≤ m.hops → exec (.announce slip m) s = .next (settle (takeTide slip m s))) ∧
    (s.tide.parent = some slip → s.tide.master = false → up = .inService → ∃ t x, exec .syncTimer s = .next t ∧
      sentOn slip x t ∧ x.kind = 1 ∧ x.seq = (s.tide.seq + 1) % 256 ∧ t.tide.seq = (s.tide.seq + 1) % 256 ∧ t.tide.sentT1 = none ∧
      t.tide.count = count) ∧
    (slip < 384 → up = .inService → m.kind = 1 → ∃ t x, exec (.syncReq slip m t2 f2) s = .next t ∧
      sentOn slip x t ∧ x = { m with kind := 2, locked := s.tide.locked, t2 := t2, t2Frac := f2, t3 := 0, t3Frac := x.t3Frac } ∧
      t.tide = s.tide) ∧
    (answered → s.tide.locked = false → 512000 < e.1.natAbs → ∃ t, exec (.syncResp slip m t4 f4) s = .next t ∧
      t.tide.count = count + BitVec.ofInt 64 (e.1 / 512) ∧ t.tide.offset = e.1 / 2 ∧ t.tide.delay = e.2 / 2 ∧
      t.tide.inWindow = 0 ∧ (∀ j ∈ t.jobs, j.2.launch = .unlaunched)) ∧
    (answered → s.tide.locked = true ∨ e.1.natAbs ≤ 512000 → ∃ t, exec (.syncResp slip m t4 f4) s = .next t ∧
      t.tide.count = count ∧ t.tide.offset = e.1 / 2 ∧ t.tide.delay = e.2 / 2 ∧
      (if s.tide.locked = true then -100000 ≤ t.tide.rate ∧ t.tide.rate ≤ 100000 else t.tide.rate = s.tide.rate) ∧
      t.tide.locked = (if s.tide.locked = true then decide (outW < 4) else decide (8 ≤ inW)) ∧ t.jobs = s.jobs) ∧
    (s.tide.parent = some slip → tabGet? s.tide.heard slip = some c → 375000 ≤ tideSince c.heard count → arrivalsDue s = false →
      ∃ t, exec .parentSilence s = .next t ∧ t.tide.heard = s.tide.heard.filter (fun x => decide (tideSince x.2.heard count < 375000)) ∧
        t.tide.count = count ∧ t.jobs = s.jobs ∧
        (t.tide.heard = [] → s.tide.priority ≠ 255 → s.clk.tide = .locked → t.tide.master = true)) ∧
    (s.tide.parent = some slip → tabGet? s.tide.heard slip = some c → tideSince c.heard count < 375000 →
      exec .parentSilence s = .next (settle s))

/-- TIMING_IN (R144, R391), where REF_ENABLE is 1: an edge with a deviating reference, or outside its interval, a missing edge and a bad
cycle reject it; ten good edges in a row accept it again. Where REF_ENABLE is 0 nothing changes. -/
def Obligations.timing_input : Prop :=
  ∀ (s : State) (ns : Nat) (ok : Bool),
    let good : Prop := s.tide.refSeen = false ∨ (999950000 ≤ ns ∧ ns ≤ 1000050000)
    let rejects (c : Instr) : Prop := ∃ t, exec c s = .next t ∧ t.tide.refRejected = true ∧ t.tide.goodEdges = 0 ∧
      t.tide.count = s.tide.count ∧ t.jobs = s.jobs
    (s.tide.refEnable = true → rejects .ppsMissing ∧ rejects .badCycle ∧ rejects (.ppsEdge ns false) ∧
      (¬ good → rejects (.ppsEdge ns true))) ∧
    (s.tide.refEnable = true → good → s.tide.refRejected = false → exec (.ppsEdge ns true) s =
      .next (settle { s with tide := { s.tide with refSeen := true } })) ∧
    (s.tide.refEnable = true → good → s.tide.refRejected = true → s.tide.goodEdges < 9 → exec (.ppsEdge ns true) s =
      .next (settle { s with tide := { s.tide with refSeen := true, goodEdges := s.tide.goodEdges + 1 } })) ∧
    (s.tide.refEnable = true → good → s.tide.refRejected = true → 9 ≤ s.tide.goodEdges → ∃ t, exec (.ppsEdge ns true) s = .next t ∧
      t.tide.refRejected = false ∧ t.tide.goodEdges = 0 ∧ t.tide.count = s.tide.count ∧ t.flt = s.flt) ∧
    (s.tide.refEnable = false → exec (.ppsEdge ns ok) s = .next (settle s) ∧ exec .ppsMissing s = .next (settle s) ∧
      exec .badCycle s = .next (settle s))

/-- Times and changes of service that the fabric waits for (R146, R195, R207, R230). At L a pending job is LAUNCHED and LAUNCH enters
the sources for each local member; at BASE a pending tide table takes over; a packet queued for a hawser without slips in service at the
start of the tick is routed again; and the reachable bits of the ACTIVE bank follow the hawsers in service. -/
def Obligations.timed_changes : Prop :=
  ∀ (s : State) (job slip hawser : Nat) (j : Job) (table : TideTable),
    let p := getSlip s slip
    let bank := getBank s (activeBank s)
    (tabGet? s.jobs job = some j → j.launch = .pending → tideReached j.l s.tide.count = true → arrivalsDue s = false →
      ∃ t, exec (.jobLaunch job) s = .next t ∧
      tabGet? t.jobs job = some { j with launch := .launched } ∧ (∀ k, k ≠ job → tabGet? t.jobs k = tabGet? s.jobs k) ∧
      (∀ m ∈ localMembers s job, (rankAddr s job m.1).isSome = true → ∃ q ∈ (getLanding t (lowestLanding s)).sources,
        q.pkt.body = .launch j.l ∧ ∃ r ∈ q.reps, r.dest = .hawser m.2) ∧ t.net = s.net ∧ t.hbm = s.hbm) ∧
    (tabGet? s.jobs job = some j → j.launch ≠ .pending ∨ tideReached j.l s.tide.count = false ∨ arrivalsDue s = true →
      exec (.jobLaunch job) s = .next (settle s)) ∧
    (p.pendTable = some table → tideReached table.base (gateTide s) = true → exec (.tideTableInstall slip) s =
      .next (settle (modSlip slip (fun p =>
        { p with table := if table.entries = [] then none else some table, pendTable := none }) s))) ∧
    (p.pendTable = some table → tideReached table.base (gateTide s) = false → exec (.tideTableInstall slip) s = .next (settle s)) ∧
    (slipsAtStart s hawser = [] → ∃ t, exec (.reroute hawser) s = .next t ∧
      (∀ l, ∀ q ∈ (getLanding t l).voq, stranded t hawser q = false) ∧ t.net = s.net ∧ t.slips = s.slips) ∧
    (slipsAtStart s hawser ≠ [] → exec (.reroute hawser) s = .next (settle s)) ∧
    (s.net.serviceChanged = true → ∃ t, exec .partitionEvaluation s = .next t ∧ t.quiet = { s with net := { s.net with
      serviceChanged := false, reach := ((bank.routes.map Prod.fst).filter (hasRoute bank)).map (fun a => (a, reachable s bank a)) } }.quiet) ∧
    (s.net.serviceChanged = false → exec .partitionEvaluation s = .next (settle s))

/-! ### Transport -/

/-- XSYNC and XACK (R172, R175, R176, Table 06.8). XSYNC of a SYNCING crossing's incarnation opens it; of another incarnation resets it to
that one, also out of DOWN; at a DOWN crossing its own incarnation is counted. XACK of an OPEN crossing's incarnation releases the copies
it acknowledges and no other; a SYNCING crossing sends XSYNC, and a lane whose timer has run out sends XACK with its CUM. -/
def Obligations.crossing_messages : Prop :=
  ∀ (s s' : State) (a : Arrival) (x : Crossing) (inc : BitVec 2) (isOpen : Bool) (cum : Seq) (sack : BitVec 256) (lane : Nat) (t0 : Tide),
    let own := getInc s x.landing x.peer x.peerLanding
    let same (y : Crossing) : Prop := y.landing = x.landing ∧ y.peer = x.peer ∧ y.peerLanding = x.peerLanding
    let here : Prop := Arrives a s s' ∧ fromPeer s a = true ∧ a.pkt.hdr.hops < 2048 ∧ a.pkt.hdr.egress = ownAddr s
    let there := findXing s x.landing x.peer x.peerLanding = some x
    let l := getLane x a.pkt.hdr.lane
    (here → a.pkt.body = .xsync inc isOpen → xingOf s a.pkt = some x → x.state = .syncing → inc = own →
      ∃ t, exec (.xsync a) s = .next t ∧ (∀ y ∈ t.xings, same y → y.state = .opened) ∧ t.incs = s.incs ∧ t.net = s.net) ∧
    (here → a.pkt.body = .xsync inc isOpen → xingOf s a.pkt = some x → inc ≠ own →
      ∃ t, exec (.xsync a) s = .next t ∧ (∀ y ∈ t.xings, same y → y.state = .syncing ∧ y.lanes = List.replicate 4 XLane.fresh) ∧
        getInc t x.landing x.peer x.peerLanding = inc ∧ t.net = s.net) ∧
    (here → a.pkt.body = .xsync inc isOpen → xingOf s a.pkt = some x → x.state = .down → inc = own →
      exec (.xsync a) s = .next (settle (countLanding x.landing 8 s'))) ∧
    (here → a.pkt.body = .xack cum sack → xingOf s a.pkt = some x → x.state = .opened → a.pkt.hdr.inc = own →
      ∃ t y, exec (.xack a) s = .next t ∧ findXing t x.landing x.peer x.peerLanding = some y ∧
        (getLane y a.pkt.hdr.lane).copies = l.copies.filter (fun c => !acked cum sack c.seq) ∧
        (∀ k, k ≠ a.pkt.hdr.lane → getLane y k = getLane x k) ∧ y.state = .opened ∧ t.net = s.net) ∧
    (there → x.state = .syncing → ∃ t, exec (.xsyncTimer x.landing x.peer x.peerLanding) s = .next t ∧ t.xings = s.xings ∧
      ∃ q ∈ (getLanding t (originLanding s x.landing)).sources, q.pkt.body = .xsync own false ∧ q.pkt.hdr.egress = x.peer) ∧
    (there → x.state ≠ .syncing → exec (.xsyncTimer x.landing x.peer x.peerLanding) s = .next (settle s)) ∧
    (there → x.state = .opened → (getLane x lane).ackFrom = some t0 → 500 ≤ tideSince t0 s.tide.count → landingAwake s x.landing = true →
      arrivalsDue s = false → ∃ t y m, exec (.xackTimer x.landing x.peer x.peerLanding lane) s = .next t ∧
        findXing t x.landing x.peer x.peerLanding = some y ∧ getLane y lane = { getLane x lane with sinceAck := 0, ackFrom := none } ∧
        ∃ q ∈ (getLanding t (originLanding s x.landing)).sources, q.pkt.body = .xack (getLane x lane).cum m)

/-- What a crossing and a source send (R174, R177, R178, R214, R222). CROSSING_SEND gives the oldest waiting packet of a lane the next
sequence number and keeps a copy; a copy past its time goes again with its retries and XMIT counted, or, past the limit, the crossing is
DOWN; ORIGIN_SEND moves a packet from its source to its queue, after the packets received; and a multicast leaves its queue in the tick
after its residue time. -/
def Obligations.transport_sends : Prop :=
  ∀ (s : State) (x : Crossing) (lane l entry : Nat) (q : Queued) (r : Replica) (c : Copy) (z : Sourced) (t0 : Tide),
    let k := getLane x lane
    let found := findXing s x.landing x.peer x.peerLanding = some x
    let hdr : Header := { r.pkt.hdr with seq := k.nextSeq, xmit := 0, xland := x.landing, xing := true,
                                         inc := getInc s x.landing x.peer x.peerLanding, hops := 0, rte := activeBank s,
                                         ingress := ownAddr s, egress := x.peer, egressLanding := x.peerLanding, lane := lane }
    let route := pickRoute s x.landing { r.pkt with hdr := hdr } (q.chargedSlip.map (hawserOf s))
    let timers : Prop := arrivalsDue s = false ∧ landingAwake s x.landing = true
    (found → x.state = .opened → lane < x.lanes.length → nextForXing s x.landing x.peer x.peerLanding lane = some (q, r) →
      landingAwake s x.landing = true → switchDue s = false → windowOpen x k 0 = true → copyRoom s x.landing (pktUnits r.pkt) = true →
      route.isSome = true ∨ q.originated = true →
      ∃ t y d, exec (.crossingSend x.landing x.peer x.peerLanding lane) s = .next t ∧
        findXing t x.landing x.peer x.peerLanding = some y ∧ (getLane y lane).nextSeq = k.nextSeq + 1 ∧
        (getLane y lane).copies = k.copies ++ [d] ∧ d.seq = k.nextSeq ∧ d.pkt.hdr = hdr ∧ d.pkt.body = r.pkt.body ∧
        d.sentAt = s.tide.count ∧ d.retries = 0) ∧
    (found → timers → x.state = .opened → k.copies.find? (copyDue s x) = some c → c.retries < x.retryLimit →
      ∃ t y, exec (.retransmitTimeout x.landing x.peer x.peerLanding lane) s = .next t ∧
        findXing t x.landing x.peer x.peerLanding = some y ∧ y.retransmits = x.retransmits + 1 ∧ y.state = .opened ∧
        ∃ d ∈ (getLane y lane).copies, d.seq = c.seq ∧ d.retries = c.retries + 1 ∧ d.sentAt = s.tide.count ∧
          d.pkt.hdr.xmit = min 15 (c.retries + 1)) ∧
    (found → timers → x.state = .opened → k.copies.find? (copyDue s x) = some c → x.retryLimit ≤ c.retries →
      ∃ t, exec (.retransmitTimeout x.landing x.peer x.peerLanding lane) s = .next t ∧
        ∀ y ∈ t.xings, y.landing = x.landing → y.peer = x.peer → y.peerLanding = x.peerLanding → y.state = .down) ∧
    (landingAwake s l = true → switchDue s = false → arrivalsDue s = false → nextSourced s l [] [] (getLanding s l).sources = some z →
      ∃ t, exec (.originSend l) s = .next t ∧
      (getLanding t l).sources = (getLanding s l).sources.erase z ∧
      (z.reps ≠ [] → (∀ y ∈ z.reps, destTakes s l y = true) → pinnedKind z.pkt = false →
        ∃ e, (getLanding t l).voq = (getLanding s l).voq ++ [e] ∧ e.pkt = z.pkt ∧ e.reps = z.reps ∧ e.originated = true)) ∧
    (nextSourced s l [] [] (getLanding s l).sources = none → exec (.originSend l) s = .next (settle s)) ∧
    ((getLanding s l).voq.find? (fun y => y.id == entry) = some q → q.residueAt = some t0 → tideReached (t0 + 1) s.tide.count = true →
      ∃ t, exec (.mcastResidue l entry) s = .next t ∧ (getLanding t l).voq = (getLanding s l).voq.filter (fun y => y.id != entry) ∧
        t.xings = s.xings ∧ t.net = s.net)

/-- Where each kind of packet goes (Table 06.4, R164, R167 to R170, R189, R193). From a member it meets the checks of its ingress. From a
peer it passes on where its EGRESS is another F384, into the queue of the hawser its route picks, as TRANSIT_PACKET does; addressed to a
local member it enters the queue of that member's hawser; else it meets its consumer, at once or through its crossing; and with 2,048 hops
it is discarded and counted. A kind that Table 06.4 does not list is discarded and counted. -/
def Obligations.packets_arrive : Prop :=
  ∀ (s s' : State) (a : Arrival) (h m : Nat), Arrives a s s' →
    let home := homeLanding a.hawser
    let hdr := a.pkt.hdr
    let k := pktKind a.pkt
    let peer : Prop := fromPeer s' a = true ∧ hdr.hops < 2048
    let here : Prop := peer ∧ hdr.egress = ownAddr s'
    let routed : Prop := peer ∧ hdr.egress ≠ ownAddr s' ∧ (getBank s' hdr.rte).state ≠ .idle ∧
      pickRoute s' home a.pkt (some (hawserOf s' a.slip)) = some h
    let queued (t : State) (l d : Nat) (p : Packet) : Prop := ∃ e, (getLanding t l).voq = (getLanding s l).voq ++ [e] ∧
      e.pkt = p ∧ e.originated = false ∧ (∃ y, e.reps = [y] ∧ y.dest = .hawser d ∧ y.pkt = p) ∧ t.xings = s.xings ∧ t.hbm = s.hbm
    let passes (c : Instr) : Prop := routed → ∃ t, exec c s = .next t ∧ queued t home h a.pkt ∧ t.net = s.net
    let goes (n : Nat) (c : Instr) : Prop := k = n →
      passes c ∧
      (here → hdr.xing = false → localHawser s' hdr.dst = some m → slipsUp s' m ≠ [] → ∃ t, exec c s = .next t ∧
        queued t (homeLanding m) m (if n = 0x47 then nameReply m a.pkt s' else a.pkt) ∧ t.net = { s.net with asked := t.net.asked }) ∧
      (here → hdr.xing = false → exec c s = .next (settle (deliver a.pkt s'))) ∧
      (here → hdr.xing = true → ∀ x, xingOf s' a.pkt = some x → x.state = .opened → hdr.inc = getInc s' x.landing x.peer x.peerLanding →
        exec c s = .next (settle (receiveXing x a s'))) ∧
      (fromPeer s' a = true → 2048 ≤ hdr.hops → exec c s = .next (settle (countLanding home 2 s'))) ∧
      (fromPeer s' a = false → exec c s = .next (settle (memberIngress a s')))
    goes 0x40 (.write a) ∧ goes 0x01 (.contribute a) ∧ goes 0x41 (.contrib a) ∧ goes 0x42 (.scale a) ∧ goes 0x43 (.trailer a) ∧
    goes 0x44 (.pdesc a) ∧ goes 0x45 (.pdata a) ∧ goes 0x02 (.credit a) ∧ goes 0x03 (.resend a) ∧ goes 0x04 (.status a) ∧
    goes 0x0A (.ringStop a) ∧ goes 0x46 (.result a) ∧ goes 0x47 (.gather a) ∧ goes 0x05 (.gatherReq a) ∧ goes 0x06 (.drawReq a) ∧
    goes 0x48 (.beacon a) ∧ goes 0x49 (.norm a) ∧ goes 0x4A (.move a) ∧ goes 0x09 (.writeDoneArrival a) ∧
    (knownKind k = true → k ≠ 0x0B → passes (.transitPacket a)) ∧
    (knownKind k = false → ∃ t, exec (.unknownPacket a) s = .next t ∧ t = settle (countLanding home 0 s') ∧
      (∀ l, (getLanding t l).voq = (getLanding s l).voq) ∧ t.xings = s.xings ∧ t.net = s.net ∧ t.hbm = s.hbm)

/-- What a delivered packet does, where it reaches this F384 from a peer outside a crossing: each kind meets its consumer; a WRITE for a
local member enters the queue of its hawser; a CREDIT sets the limit and base of its residues (R55); RING_STOP stops the context (R82);
and element data of a partial are written to the pontoon (R58). -/
def Obligations.packets_take_effect : Prop :=
  ∀ (s s' : State) (a : Arrival) (h ctx num chunk bnum bchunk origin slot : Nat) (r : Rctx) (o : Operation), Arrives a s s' →
    let p := a.pkt
    let cr : Credit := { limOp := num, limChunk := chunk, baseOp := bnum, baseChunk := bchunk }
    let lh := longHdr p
    let q := positionOf r.d o lh.chunk
    let pos := (tabGet? r.positions q).getD (Position.openAt s.tide.count lh.opNum lh.chunk)
    fromPeer s a = true → p.hdr.hops < 2048 → p.hdr.egress = ownAddr s → p.hdr.xing = false →
    (localHawser s p.hdr.dst = none →
      (pktKind p = 0x02 → exec (.credit a) s = .next (settle (takeCredit p s'))) ∧
      (pktKind p = 0x03 → exec (.resend a) s = .next (settle (takeResend p s'))) ∧
      (pktKind p = 0x04 → exec (.status a) s = .next (settle (takeStatus p s'))) ∧
      (pktKind p = 0x05 → exec (.gatherReq a) s = .next (settle (takeGatherReq .peer p s'))) ∧
      (pktKind p = 0x0A → exec (.ringStop a) s = .next (settle (takeRingStop p s'))) ∧
      (pktKind p = 0x43 → exec (.trailer a) s = .next (settle (takeContribution .peer p s'))) ∧
      (pktKind p = 0x44 → exec (.pdesc a) s = .next (settle (takeContribution .peer p s'))) ∧
      (pktKind p = 0x45 → exec (.pdata a) s = .next (settle (takeContribution .peer p s'))) ∧
      (pktKind p = 0x46 → exec (.result a) s = .next (settle (takeResult p s'))) ∧
      (pktKind p = 0x47 → exec (.gather a) s = .next (settle (takeGather p s'))) ∧
      (pktKind p = 0x48 → exec (.beacon a) s = .next (settle (takeBeacon p s'))) ∧
      (pktKind p = 0x49 → exec (.norm a) s = .next (settle (takeNorm p s'))) ∧
      (pktKind p = 0x4A → exec (.move a) s = .next (settle (takeMove p s')))) ∧
    (localHawser s p.hdr.dst = some h → slipsUp s h ≠ [] → pktKind p = 0x40 → p.hdr.last = false → ∃ t e,
      exec (.write a) s = .next t ∧ (getLanding t (homeLanding h)).voq = (getLanding s (homeLanding h)).voq ++ [e] ∧ e.pkt = p ∧
        (∃ y, e.reps = [y] ∧ y.dest = .hawser h ∧ y.pkt = p ∧ y.follow = none) ∧ t.net = s.net ∧ t.hbm = s.hbm) ∧
    (localHawser s p.hdr.dst = none → p.body = .credit ctx num chunk bnum bchunk → tabGet? s.rctxs ctx = some r →
      r.d.job = p.hdr.job → creditResidues r.d p.hdr.src cr ≠ [] → ∃ t r', exec (.credit a) s = .next t ∧
        tabGet? t.rctxs ctx = some r' ∧ ∀ i ∈ creditResidues r.d p.hdr.src cr, tabGet? r'.credits i = some cr) ∧
    (localHawser s p.hdr.dst = none → p.body = .ringStop ctx origin → tabGet? s.rctxs ctx = some r → r.d.role = 4 →
      r.d.job = p.hdr.job → ∃ t r', exec (.ringStop a) s = .next t ∧ tabGet? t.rctxs ctx = some r' ∧ r'.state = .stopped ∧ r'.d = r.d) ∧
    (localHawser s p.hdr.dst = none → pktKind p = 0x45 → tabGet? s.rctxs lh.ctx = some r → r.state ≠ .stopped →
      senderSlot r .peer p = some slot → slotEnabled r slot = true → r.d.role ≠ 4 → knownOp r lh.opNum = some o →
      chunkIn r.d o lh.chunk = true → r.base ≤ q → q < r.base + r.w → q ∉ r.released → slot ∉ presentSlots pos →
      (∀ c, tabGet? pos.contribs slot = some c → presentValues pos + (c.desc.map (fun d => d.values)).getD 1 ≤ 65536) →
      formatOk r p = true → r.octx = none → r.d.stepped = false → shapeOk r o lh.chunk (decide (slot < r.d.m)) p = true →
      ∃ t r' pos' c, exec (.pdata a) s = .next t ∧ tabGet? t.rctxs lh.ctx = some r' ∧ tabGet? r'.positions q = some pos' ∧
        tabGet? pos'.contribs slot = some c ∧ tabGet? c.pkts lh.pkt = some (payloadOf p) ∧ pos'.op = pos.op ∧ pos'.chunk = pos.chunk)


/-! ### The deck, the windows and the optimizer's own acts -/

/-- Fold batches (R59 to R62). The deck takes a fold batch where that is its next sweep, at most 32 contributions in slot order, and its
position is in a sweep; when the batch is done the deck is free, the position's contributions of the batch are folded, and no other
position changes while contributions are still missing. Where the deck may start no sweep, nothing starts. -/
def Obligations.fold_batches : Prop :=
  ∀ (s : State) (c q : Nat) (w : Candidacy) (slots : List Nat) (r : Rctx) (p : Position),
    tabGet? s.rctxs c = some r → tabGet? r.positions q = some p →
    (nextSweep s = some w → w.sweep = .fold c q [] → ∃ t r', exec .foldBatch s = .next t ∧
      t.deck.sweep = some (.fold c q ((unfoldedSlots p).take 32)) ∧ tabGet? t.rctxs c = some r' ∧
      tabGet? r'.positions q = some { p with sweeping := true } ∧ (∀ k, k ≠ q → tabGet? r'.positions k = tabGet? r.positions k) ∧
      t.deck.queue = s.deck.queue ∧ t.hbm = s.hbm ∧ t.lands = s.lands) ∧
    (nextSweep s = none → exec .foldBatch s = .next (settle s)) ∧
    (s.deck.sweep = some (.fold c q slots) → p.sweeping = true → allPresent r p = false → ∃ t r' p', exec .foldBatchDone s = .next t ∧
      t.deck.sweep = none ∧ tabGet? t.rctxs c = some r' ∧ tabGet? r'.positions q = some p' ∧ p'.sweeping = false ∧
      p'.state = p.state ∧ (∀ i ∈ slots, i ∈ presentSlots p → i ∈ foldedSlots p') ∧
      (∀ k, k ≠ q → tabGet? r'.positions k = tabGet? r.positions k) ∧ t.hbm.mem = s.hbm.mem ∧ t.lands = s.lands) ∧
    (s.deck.sweep = some (.fold c q slots) → ∃ t, exec .foldBatchDone s = .next t ∧ t.deck.sweep = none)

/-- Lags, credits and releases (R55, R66, R74, R75, R82). The arrivals of the tick behind it, past the soft lag a chunk with missing
contributions becomes ready; past the hard lag its context stops; a due CREDIT leaves once the slot may be sent one; and an emitted
chunk of a root leaves the window. -/
def Obligations.window_timers : Prop :=
  ∀ (s : State) (ctx q slot : Nat) (r : Rctx) (p : Position), tabGet? s.rctxs ctx = some r →
    (tabGet? r.positions q = some p → r.state ≠ .stopped → p.state = .opened → p.softFired = false → missingSlots r p ≠ [] →
      lagDue s p r.d.softLag = true → arrivalsDue s = false → ∃ t r' p', exec (.softLagExpiry ctx q) s = .next t ∧ tabGet? t.rctxs ctx = some r' ∧
        tabGet? r'.positions q = some p' ∧ p' = { p with softFired := true, readyAt := p'.readyAt } ∧ t.hbm.mem = s.hbm.mem ∧
        t.lands = s.lands) ∧
    (tabGet? r.positions q = some p → r.state ≠ .stopped → p.state = .opened → missingSlots r p ≠ [] → lagDue s p r.d.hardLag = true →
      arrivalsDue s = false →
      ∃ t r', exec (.hardLagExpiry ctx q) s = .next t ∧ tabGet? t.rctxs ctx = some r' ∧ r'.state = .stopped ∧
        r'.positions = r.positions ∧ r'.d = r.d) ∧
    (slot ∈ r.creditDue → creditOpen s r slot = true → slotEnabled r slot = true → ∃ t r', exec (.creditSend ctx slot) s = .next t ∧
      tabGet? t.rctxs ctx = some r' ∧ r'.creditDue = r.creditDue.filter (fun i => i != slot) ∧
      tabGet? r'.creditSent slot = some s.tide.count ∧ r'.positions = r.positions) ∧
    (slot ∉ r.creditDue → exec (.creditSend ctx slot) s = .next (settle s)) ∧
    (tabGet? r.positions q = some p → p.state = .emitted → isRootOf r.d p.chunk = true → ∃ t r', exec (.chunkRelease ctx q) s = .next t ∧
      tabGet? t.rctxs ctx = some r' ∧ tabGet? r'.positions q = none ∧ (∀ k, k ≠ q → tabGet? r'.positions k = tabGet? r.positions k)) ∧
    (tabGet? r.positions q = some p → p.state ≠ .emitted → exec (.chunkRelease ctx q) s = .next (settle s))

/-- Sweeps of an optimizer context (R60, R96, R109, R119, R122). UPDATE_SWEEP takes the deck's next sweep, where that is an update, and
its new records wait to be written at their bank's place; RECORD_WRITE_DONE writes exactly those bytes; GATHER_SWEEP takes the next
sweep where that is a gather; and IMAGE_DIGEST_DONE completes an image with the digest of its bytes. -/
def Obligations.optimizer_sweeps : Prop :=
  ∀ (s : State) (e : Candidacy) (c q n seg j g b : Nat) (r : Rctx) (o : Octx) (p : Position) (op : Operation) (w : RecordWrite)
    (im : Image),
    let without (w : Sweep) : List ReadySweep := s.deck.queue.filter (fun y => y.sweep != w)
    (nextSweep s = some e → e.sweep = .update c q → tabGet? s.rctxs c = some r → tabGet? r.positions q = some p →
      r.octx = some n → tabGet? s.octxs n = some o → knownOp r p.op = some op → segmentOf r o op p.chunk = some (seg, j) →
      ∃ t r' p' x, exec .updateSweep s = .next t ∧ t.deck.queue = without e.sweep ∧ tabGet? t.rctxs c = some r' ∧
        tabGet? r'.positions q = some p' ∧ p'.queued = false ∧ p'.emitBegun = true ∧ t.hbm.writes = s.hbm.writes ++ [x] ∧
        x.octx = n ∧ x.seg = seg ∧ x.chunk = j ∧ x.step = o.s + 1 ∧
        x.addr = recordAddr o.d (segAt o.d seg) (j * r.d.elems) (o.s + 1) ∧ t.hbm.mem = s.hbm.mem ∧ t.jobs = s.jobs) ∧
    (nextSweep s = none → exec .updateSweep s = .next (settle s) ∧ exec .gatherSweep s = .next (settle s)) ∧
    (nextSweep s = some e → e.sweep = .gather n g j b → ∃ t, exec .gatherSweep s = .next t ∧
      t.deck.queue = without e.sweep ∧ t.hbm.mem = s.hbm.mem ∧ t.hbm.writes = s.hbm.writes ∧
      (tabGet? s.octxs n = none → ∀ y ∈ t.hbm.waits, waitsOn n g j b y = false)) ∧
    (s.hbm.writes.find? (fun w => w.octx == n && w.seg == seg && w.chunk == j) = some w →
      (∀ o, tabGet? s.octxs n = some o → o.state ≠ .committing ∨ o.fence = none) → ∃ t, exec (.recordWriteDone n seg j) s = .next t ∧
        readBytes t w.addr w.bytes.length = w.bytes ∧
        (∀ a, a < w.addr ∨ w.addr + w.bytes.length ≤ a → readByte t a = readByte s a) ∧ t.hbm.writes = s.hbm.writes.erase w ∧
        (Memory.wf s.hbm.mem → Memory.wf t.hbm.mem)) ∧
    ((stagedImages s).find? (fun y => y.octx == n && y.seg == seg && y.chunk == j && !y.complete) = some im →
      ∃ t, exec (.imageDigestDone n seg j) s = .next t ∧ t.hbm.mem = s.hbm.mem ∧
        { im with digest := sha3 (im.bytes ++ im.scales), complete := true } ∈ stagedImages t)

/-- The end of a commit and of a fence (R113, R123). Past its deadline an unsealed commit answers TIMEOUT and the context is OPEN again;
a sealed one whose peers do not all agree answers TIMEOUT too, the context SPLIT; and a fence with no move outstanding, out or in,
installs its tables and its epoch, the context OPEN, and the requests that wait are answered. -/
def Obligations.commit_and_fence_end : Prop :=
  ∀ (s : State) (n i : Nat) (o : Octx) (r : Rctx) (y : Running) (f : Fence), tabGet? s.octxs n = some o →
    (o.state = .committing → tideReached o.deadline s.tide.count = true → o.sealedStep = false → o.command = some y → y.orphan = false →
      ∃ t o', exec (.beaconTimeout n) s = .next t ∧ tabGet? t.octxs n = some o' ∧ o'.state = .opened ∧ o'.command = none ∧ o'.s = o.s ∧
        Answered y.x stTimeout 0 0 [] s t) ∧
    (o.state = .committing → tideReached o.deadline s.tide.count = true → o.sealedStep = true → i < o.d.peers.length →
      peerAgrees o (o.s + 1) i = false → o.command = some y → y.orphan = false →
      ∃ t o', exec (.beaconTimeout n) s = .next t ∧ tabGet? t.octxs n = some o' ∧ o'.state = .split ∧ o'.command = none ∧ o'.s = o.s ∧
        Replied y.x stTimeout 0 0 t) ∧
    (o.state ≠ .committing ∨ tideReached o.deadline s.tide.count = false → exec (.beaconTimeout n) s = .next (settle s)) ∧
    (o.fence = some f → o.state = .fenced → tabGet? s.rctxs o.d.rctx = some r → movesOut s f = false → movesIn r o f = false →
      ∃ t o', exec (.reshardInstall n) s = .next t ∧
      tabGet? t.octxs n = some o' ∧ o'.state = .opened ∧ o'.epoch = f.epoch ∧ o'.d.segments = f.segments ∧
      o'.d.layerEntries = f.layers ∧ o'.fence = none ∧ o'.s = o.s ∧ (∀ w ∈ t.hbm.waits, w.octx ≠ n) ∧ t.hbm.mem = s.hbm.mem) ∧
    (o.fence = none → exec (.reshardInstall n) s = .next (settle s))


/-! ### The memory and the neighbour's identity -/

/-- The state area keeps its canonical form, addresses strictly rising, over every step the model takes: no command, whatever it is, leaves
a byte of it listed twice or out of order. -/
def Obligations.memory_stays_canonical : Prop :=
  ∀ s t : State, Memory.wf s.hbm.mem → step s = .next t → Memory.wf t.hbm.mem

/-- Table 09.4: reading the 128 bytes of an IDENT gives back every field that the bytes were written from, at every value that its width
admits. -/
def Obligations.ident_round_trip : Prop :=
  ∀ m : Ident, m.role < 256 → m.protoMax < 256 → m.protoMin < 256 → m.arev < 256 → m.widthUp < 256 → m.slip < 2 ^ 16 →
    m.serial < 2 ^ 64 → m.hawser < 2 ^ 16 → m.width < 256 → m.fabricAddr < 2 ^ 16 → m.fwMeasurement.length = 64 → m.rsvd = false →
    (identBytes m).length = 128 ∧ parseIdent (identBytes m) = m
end

