-- ==== Sys2Proof/Laws/State.lean ====
section
/-!
SUPPORT. Each named update of the state, field by field: what it changes and that it changes nothing else.
-/
namespace Sys2Proof.Laws
open Sys2Proof.Machine

variable (s : State)

@[simp] theorem emit_fields (o : Output) :
    (emit o s).aon = s.aon ∧ (emit o s).sys = s.sys ∧ (emit o s).clk = s.clk ∧ (emit o s).pwr = s.pwr ∧ (emit o s).units = s.units ∧
    (emit o s).host = s.host ∧ (emit o s).mbox = s.mbox ∧ (emit o s).svc = s.svc ∧ (emit o s).flt = s.flt ∧
    (emit o s).purser = s.purser ∧ (emit o s).tide = s.tide ∧ (emit o s).jobs = s.jobs ∧ (emit o s).net = s.net ∧
    (emit o s).lands = s.lands ∧ (emit o s).sw = s.sw ∧ (emit o s).slips = s.slips ∧ (emit o s).hawsers = s.hawsers ∧
    (emit o s).optics = s.optics ∧ (emit o s).xings = s.xings ∧ (emit o s).incs = s.incs ∧ (emit o s).rctxs = s.rctxs ∧
    (emit o s).octxs = s.octxs ∧ (emit o s).deck = s.deck ∧ (emit o s).hbm = s.hbm ∧ (emit o s).audit = s.audit ∧
    (emit o s).deferred = s.deferred ∧ (emit o s).freeCount = s.freeCount ∧ (emit o s).outbox = s.outbox ++ [o] ∧
    (emit o s).pending = s.pending :=
  by and_intros <;> rfl

@[simp] theorem settle_fields :
    (settle s).aon = { s.aon with errorN := errorPin s } ∧ (settle s).sys = s.sys ∧ (settle s).clk = s.clk ∧ (settle s).pwr = s.pwr ∧
    (settle s).units = s.units ∧ (settle s).host = s.host ∧ (settle s).mbox = s.mbox ∧ (settle s).svc = s.svc ∧ (settle s).flt = s.flt ∧
    (settle s).purser = s.purser ∧ (settle s).tide = s.tide ∧ (settle s).jobs = s.jobs ∧ (settle s).net = s.net ∧
    (settle s).lands = s.lands ∧ (settle s).sw = s.sw ∧ (settle s).slips = s.slips ∧ (settle s).hawsers = s.hawsers ∧
    (settle s).optics = s.optics ∧ (settle s).xings = s.xings ∧ (settle s).incs = s.incs ∧ (settle s).rctxs = s.rctxs ∧
    (settle s).octxs = s.octxs ∧ (settle s).deck = s.deck ∧ (settle s).hbm = s.hbm ∧ (settle s).audit = s.audit ∧
    (settle s).deferred = s.deferred ∧ (settle s).freeCount = s.freeCount ∧ (settle s).outbox = s.outbox ∧
    (settle s).pending = s.pending :=
  by and_intros <;> rfl

@[simp] theorem fresh_fields (w : Nat) :
    ((fresh w s).2).aon = s.aon ∧ ((fresh w s).2).sys = s.sys ∧ ((fresh w s).2).clk = s.clk ∧ ((fresh w s).2).pwr = s.pwr ∧
    ((fresh w s).2).units = s.units ∧ ((fresh w s).2).host = s.host ∧ ((fresh w s).2).mbox = s.mbox ∧ ((fresh w s).2).svc = s.svc ∧
    ((fresh w s).2).flt = s.flt ∧ ((fresh w s).2).purser = s.purser ∧ ((fresh w s).2).tide = s.tide ∧ ((fresh w s).2).jobs = s.jobs ∧
    ((fresh w s).2).net = s.net ∧ ((fresh w s).2).lands = s.lands ∧ ((fresh w s).2).sw = s.sw ∧ ((fresh w s).2).slips = s.slips ∧
    ((fresh w s).2).hawsers = s.hawsers ∧ ((fresh w s).2).optics = s.optics ∧ ((fresh w s).2).xings = s.xings ∧
    ((fresh w s).2).incs = s.incs ∧ ((fresh w s).2).rctxs = s.rctxs ∧ ((fresh w s).2).octxs = s.octxs ∧ ((fresh w s).2).deck = s.deck ∧
    ((fresh w s).2).hbm = s.hbm ∧ ((fresh w s).2).audit = s.audit ∧ ((fresh w s).2).deferred = s.deferred ∧
    ((fresh w s).2).freeCount = s.freeCount + 1 ∧ ((fresh w s).2).outbox = s.outbox ∧ ((fresh w s).2).pending = s.pending :=
  by and_intros <;> rfl

@[simp] theorem modSlip_fields (n : Nat) (f : Slip → Slip) :
    (modSlip n f s).aon = s.aon ∧ (modSlip n f s).sys = s.sys ∧ (modSlip n f s).clk = s.clk ∧ (modSlip n f s).pwr = s.pwr ∧
    (modSlip n f s).units = s.units ∧ (modSlip n f s).host = s.host ∧ (modSlip n f s).mbox = s.mbox ∧ (modSlip n f s).svc = s.svc ∧
    (modSlip n f s).flt = s.flt ∧ (modSlip n f s).purser = s.purser ∧ (modSlip n f s).tide = s.tide ∧ (modSlip n f s).jobs = s.jobs ∧
    (modSlip n f s).net = s.net ∧ (modSlip n f s).lands = s.lands ∧ (modSlip n f s).sw = s.sw ∧
    (modSlip n f s).slips = tabPut s.slips n (f (getSlip s n)) ∧ (modSlip n f s).hawsers = s.hawsers ∧
    (modSlip n f s).optics = s.optics ∧ (modSlip n f s).xings = s.xings ∧ (modSlip n f s).incs = s.incs ∧
    (modSlip n f s).rctxs = s.rctxs ∧ (modSlip n f s).octxs = s.octxs ∧ (modSlip n f s).deck = s.deck ∧ (modSlip n f s).hbm = s.hbm ∧
    (modSlip n f s).audit = s.audit ∧ (modSlip n f s).deferred = s.deferred ∧ (modSlip n f s).freeCount = s.freeCount ∧
    (modSlip n f s).outbox = s.outbox ∧ (modSlip n f s).pending = s.pending :=
  by and_intros <;> rfl

@[simp] theorem modLanding_fields (l : Nat) (f : Landing → Landing) :
    (modLanding l f s).aon = s.aon ∧ (modLanding l f s).sys = s.sys ∧ (modLanding l f s).clk = s.clk ∧ (modLanding l f s).pwr = s.pwr ∧
    (modLanding l f s).units = s.units ∧ (modLanding l f s).host = s.host ∧ (modLanding l f s).mbox = s.mbox ∧
    (modLanding l f s).svc = s.svc ∧ (modLanding l f s).flt = s.flt ∧ (modLanding l f s).purser = s.purser ∧
    (modLanding l f s).tide = s.tide ∧ (modLanding l f s).jobs = s.jobs ∧ (modLanding l f s).net = s.net ∧ (modLanding l f s).sw = s.sw ∧
    (modLanding l f s).slips = s.slips ∧ (modLanding l f s).hawsers = s.hawsers ∧ (modLanding l f s).optics = s.optics ∧
    (modLanding l f s).xings = s.xings ∧ (modLanding l f s).incs = s.incs ∧ (modLanding l f s).rctxs = s.rctxs ∧
    (modLanding l f s).octxs = s.octxs ∧ (modLanding l f s).deck = s.deck ∧ (modLanding l f s).hbm = s.hbm ∧
    (modLanding l f s).audit = s.audit ∧ (modLanding l f s).deferred = s.deferred ∧ (modLanding l f s).freeCount = s.freeCount ∧
    (modLanding l f s).outbox = s.outbox ∧ (modLanding l f s).pending = s.pending :=
  by and_intros <;> rfl

@[simp] theorem modEngine_fields (k : Nat) (f : Engine → Engine) :
    (modEngine k f s).aon = s.aon ∧ (modEngine k f s).sys = s.sys ∧ (modEngine k f s).clk = s.clk ∧ (modEngine k f s).pwr = s.pwr ∧
    (modEngine k f s).units = s.units ∧ (modEngine k f s).host = s.host ∧ (modEngine k f s).mbox = s.mbox ∧
    (modEngine k f s).svc = s.svc ∧ (modEngine k f s).flt = s.flt ∧ (modEngine k f s).purser = s.purser ∧
    (modEngine k f s).tide = s.tide ∧ (modEngine k f s).jobs = s.jobs ∧ (modEngine k f s).net = s.net ∧
    (modEngine k f s).lands = s.lands ∧ (modEngine k f s).sw = s.sw ∧ (modEngine k f s).slips = s.slips ∧
    (modEngine k f s).hawsers = s.hawsers ∧ (modEngine k f s).optics = tabPut s.optics k (f (getEngine s k)) ∧
    (modEngine k f s).xings = s.xings ∧ (modEngine k f s).incs = s.incs ∧ (modEngine k f s).rctxs = s.rctxs ∧
    (modEngine k f s).octxs = s.octxs ∧ (modEngine k f s).deck = s.deck ∧ (modEngine k f s).hbm = s.hbm ∧
    (modEngine k f s).audit = s.audit ∧ (modEngine k f s).deferred = s.deferred ∧ (modEngine k f s).freeCount = s.freeCount ∧
    (modEngine k f s).outbox = s.outbox ∧ (modEngine k f s).pending = s.pending :=
  by and_intros <;> rfl

@[simp] theorem modHost_fields (f : HostIf → HostIf) :
    (modHost f s).aon = s.aon ∧ (modHost f s).sys = s.sys ∧ (modHost f s).clk = s.clk ∧ (modHost f s).pwr = s.pwr ∧
    (modHost f s).units = s.units ∧ (modHost f s).host = f s.host ∧ (modHost f s).mbox = s.mbox ∧ (modHost f s).svc = s.svc ∧
    (modHost f s).flt = s.flt ∧ (modHost f s).purser = s.purser ∧ (modHost f s).tide = s.tide ∧ (modHost f s).jobs = s.jobs ∧
    (modHost f s).net = s.net ∧ (modHost f s).lands = s.lands ∧ (modHost f s).sw = s.sw ∧ (modHost f s).slips = s.slips ∧
    (modHost f s).hawsers = s.hawsers ∧ (modHost f s).optics = s.optics ∧ (modHost f s).xings = s.xings ∧ (modHost f s).incs = s.incs ∧
    (modHost f s).rctxs = s.rctxs ∧ (modHost f s).octxs = s.octxs ∧ (modHost f s).deck = s.deck ∧ (modHost f s).hbm = s.hbm ∧
    (modHost f s).audit = s.audit ∧ (modHost f s).deferred = s.deferred ∧ (modHost f s).freeCount = s.freeCount ∧
    (modHost f s).outbox = s.outbox ∧ (modHost f s).pending = s.pending :=
  by and_intros <;> rfl

@[simp] theorem modStack_fields (k : Nat) (f : Stack → Stack) :
    (modStack k f s).aon = s.aon ∧ (modStack k f s).sys = s.sys ∧ (modStack k f s).clk = s.clk ∧ (modStack k f s).pwr = s.pwr ∧
    (modStack k f s).units = s.units ∧ (modStack k f s).host = s.host ∧ (modStack k f s).mbox = s.mbox ∧ (modStack k f s).svc = s.svc ∧
    (modStack k f s).flt = s.flt ∧ (modStack k f s).purser = s.purser ∧ (modStack k f s).tide = s.tide ∧ (modStack k f s).jobs = s.jobs ∧
    (modStack k f s).net = s.net ∧ (modStack k f s).lands = s.lands ∧ (modStack k f s).sw = s.sw ∧ (modStack k f s).slips = s.slips ∧
    (modStack k f s).hawsers = s.hawsers ∧ (modStack k f s).optics = s.optics ∧ (modStack k f s).xings = s.xings ∧
    (modStack k f s).incs = s.incs ∧ (modStack k f s).rctxs = s.rctxs ∧ (modStack k f s).octxs = s.octxs ∧
    (modStack k f s).deck = s.deck ∧ (modStack k f s).hbm = { s.hbm with stk := tabPut s.hbm.stk k (f (getStack s k)) } ∧
    (modStack k f s).audit = s.audit ∧ (modStack k f s).deferred = s.deferred ∧ (modStack k f s).freeCount = s.freeCount ∧
    (modStack k f s).outbox = s.outbox ∧ (modStack k f s).pending = s.pending :=
  by and_intros <;> rfl

@[simp] theorem modRctx_fields (c : Nat) (f : Rctx → Rctx) :
    (modRctx c f s).aon = s.aon ∧ (modRctx c f s).sys = s.sys ∧ (modRctx c f s).clk = s.clk ∧ (modRctx c f s).pwr = s.pwr ∧
    (modRctx c f s).units = s.units ∧ (modRctx c f s).host = s.host ∧ (modRctx c f s).mbox = s.mbox ∧ (modRctx c f s).svc = s.svc ∧
    (modRctx c f s).flt = s.flt ∧ (modRctx c f s).purser = s.purser ∧ (modRctx c f s).tide = s.tide ∧ (modRctx c f s).jobs = s.jobs ∧
    (modRctx c f s).net = s.net ∧ (modRctx c f s).lands = s.lands ∧ (modRctx c f s).sw = s.sw ∧ (modRctx c f s).slips = s.slips ∧
    (modRctx c f s).hawsers = s.hawsers ∧ (modRctx c f s).optics = s.optics ∧ (modRctx c f s).xings = s.xings ∧
    (modRctx c f s).incs = s.incs ∧ (modRctx c f s).rctxs = tabMod s.rctxs c f ∧ (modRctx c f s).octxs = s.octxs ∧
    (modRctx c f s).deck = s.deck ∧ (modRctx c f s).hbm = s.hbm ∧ (modRctx c f s).audit = s.audit ∧
    (modRctx c f s).deferred = s.deferred ∧ (modRctx c f s).freeCount = s.freeCount ∧ (modRctx c f s).outbox = s.outbox ∧
    (modRctx c f s).pending = s.pending :=
  by and_intros <;> rfl

@[simp] theorem modOctx_fields (c : Nat) (f : Octx → Octx) :
    (modOctx c f s).aon = s.aon ∧ (modOctx c f s).sys = s.sys ∧ (modOctx c f s).clk = s.clk ∧ (modOctx c f s).pwr = s.pwr ∧
    (modOctx c f s).units = s.units ∧ (modOctx c f s).host = s.host ∧ (modOctx c f s).mbox = s.mbox ∧ (modOctx c f s).svc = s.svc ∧
    (modOctx c f s).flt = s.flt ∧ (modOctx c f s).purser = s.purser ∧ (modOctx c f s).tide = s.tide ∧ (modOctx c f s).jobs = s.jobs ∧
    (modOctx c f s).net = s.net ∧ (modOctx c f s).lands = s.lands ∧ (modOctx c f s).sw = s.sw ∧ (modOctx c f s).slips = s.slips ∧
    (modOctx c f s).hawsers = s.hawsers ∧ (modOctx c f s).optics = s.optics ∧ (modOctx c f s).xings = s.xings ∧
    (modOctx c f s).incs = s.incs ∧ (modOctx c f s).rctxs = s.rctxs ∧ (modOctx c f s).octxs = tabMod s.octxs c f ∧
    (modOctx c f s).deck = s.deck ∧ (modOctx c f s).hbm = s.hbm ∧ (modOctx c f s).audit = s.audit ∧
    (modOctx c f s).deferred = s.deferred ∧ (modOctx c f s).freeCount = s.freeCount ∧ (modOctx c f s).outbox = s.outbox ∧
    (modOctx c f s).pending = s.pending :=
  by and_intros <;> rfl

@[simp] theorem modJob_fields (j : Nat) (f : Job → Job) :
    (modJob j f s).aon = s.aon ∧ (modJob j f s).sys = s.sys ∧ (modJob j f s).clk = s.clk ∧ (modJob j f s).pwr = s.pwr ∧
    (modJob j f s).units = s.units ∧ (modJob j f s).host = s.host ∧ (modJob j f s).mbox = s.mbox ∧ (modJob j f s).svc = s.svc ∧
    (modJob j f s).flt = s.flt ∧ (modJob j f s).purser = s.purser ∧ (modJob j f s).tide = s.tide ∧
    (modJob j f s).jobs = tabMod s.jobs j f ∧ (modJob j f s).net = s.net ∧ (modJob j f s).lands = s.lands ∧ (modJob j f s).sw = s.sw ∧
    (modJob j f s).slips = s.slips ∧ (modJob j f s).hawsers = s.hawsers ∧ (modJob j f s).optics = s.optics ∧
    (modJob j f s).xings = s.xings ∧ (modJob j f s).incs = s.incs ∧ (modJob j f s).rctxs = s.rctxs ∧ (modJob j f s).octxs = s.octxs ∧
    (modJob j f s).deck = s.deck ∧ (modJob j f s).hbm = s.hbm ∧ (modJob j f s).audit = s.audit ∧ (modJob j f s).deferred = s.deferred ∧
    (modJob j f s).freeCount = s.freeCount ∧ (modJob j f s).outbox = s.outbox ∧ (modJob j f s).pending = s.pending :=
  by and_intros <;> rfl

@[simp] theorem modHawser_fields (h : Nat) (f : Hawser → Hawser) :
    (modHawser h f s).aon = s.aon ∧ (modHawser h f s).sys = s.sys ∧ (modHawser h f s).clk = s.clk ∧ (modHawser h f s).pwr = s.pwr ∧
    (modHawser h f s).units = s.units ∧ (modHawser h f s).host = s.host ∧ (modHawser h f s).mbox = s.mbox ∧
    (modHawser h f s).svc = s.svc ∧ (modHawser h f s).flt = s.flt ∧ (modHawser h f s).purser = s.purser ∧
    (modHawser h f s).tide = s.tide ∧ (modHawser h f s).jobs = s.jobs ∧ (modHawser h f s).net = s.net ∧
    (modHawser h f s).lands = s.lands ∧ (modHawser h f s).sw = s.sw ∧ (modHawser h f s).slips = s.slips ∧
    (modHawser h f s).hawsers = tabPut s.hawsers h (f (getHawser s h)) ∧ (modHawser h f s).optics = s.optics ∧
    (modHawser h f s).xings = s.xings ∧ (modHawser h f s).incs = s.incs ∧ (modHawser h f s).rctxs = s.rctxs ∧
    (modHawser h f s).octxs = s.octxs ∧ (modHawser h f s).deck = s.deck ∧ (modHawser h f s).hbm = s.hbm ∧
    (modHawser h f s).audit = s.audit ∧ (modHawser h f s).deferred = s.deferred ∧ (modHawser h f s).freeCount = s.freeCount ∧
    (modHawser h f s).outbox = s.outbox ∧ (modHawser h f s).pending = s.pending :=
  by and_intros <;> rfl

@[simp] theorem modXing_fields (l p pl : Nat) (f : Crossing → Crossing) :
    (modXing l p pl f s).aon = s.aon ∧ (modXing l p pl f s).sys = s.sys ∧ (modXing l p pl f s).clk = s.clk ∧
    (modXing l p pl f s).pwr = s.pwr ∧ (modXing l p pl f s).units = s.units ∧ (modXing l p pl f s).host = s.host ∧
    (modXing l p pl f s).mbox = s.mbox ∧ (modXing l p pl f s).svc = s.svc ∧ (modXing l p pl f s).flt = s.flt ∧
    (modXing l p pl f s).purser = s.purser ∧ (modXing l p pl f s).tide = s.tide ∧ (modXing l p pl f s).jobs = s.jobs ∧
    (modXing l p pl f s).net = s.net ∧ (modXing l p pl f s).lands = s.lands ∧ (modXing l p pl f s).sw = s.sw ∧
    (modXing l p pl f s).slips = s.slips ∧ (modXing l p pl f s).hawsers = s.hawsers ∧ (modXing l p pl f s).optics = s.optics ∧
    (modXing l p pl f s).incs = s.incs ∧ (modXing l p pl f s).rctxs = s.rctxs ∧ (modXing l p pl f s).octxs = s.octxs ∧
    (modXing l p pl f s).deck = s.deck ∧ (modXing l p pl f s).hbm = s.hbm ∧ (modXing l p pl f s).audit = s.audit ∧
    (modXing l p pl f s).deferred = s.deferred ∧ (modXing l p pl f s).freeCount = s.freeCount ∧ (modXing l p pl f s).outbox = s.outbox ∧
    (modXing l p pl f s).pending = s.pending :=
  by and_intros <;> rfl

@[simp] theorem putInc_fields (l p pl : Nat) (v : BitVec 2) :
    (putInc l p pl v s).aon = s.aon ∧ (putInc l p pl v s).sys = s.sys ∧ (putInc l p pl v s).clk = s.clk ∧
    (putInc l p pl v s).pwr = s.pwr ∧ (putInc l p pl v s).units = s.units ∧ (putInc l p pl v s).host = s.host ∧
    (putInc l p pl v s).mbox = s.mbox ∧ (putInc l p pl v s).svc = s.svc ∧ (putInc l p pl v s).flt = s.flt ∧
    (putInc l p pl v s).purser = s.purser ∧ (putInc l p pl v s).tide = s.tide ∧ (putInc l p pl v s).jobs = s.jobs ∧
    (putInc l p pl v s).net = s.net ∧ (putInc l p pl v s).lands = s.lands ∧ (putInc l p pl v s).sw = s.sw ∧
    (putInc l p pl v s).slips = s.slips ∧ (putInc l p pl v s).hawsers = s.hawsers ∧ (putInc l p pl v s).optics = s.optics ∧
    (putInc l p pl v s).xings = s.xings ∧ (putInc l p pl v s).rctxs = s.rctxs ∧ (putInc l p pl v s).octxs = s.octxs ∧
    (putInc l p pl v s).deck = s.deck ∧ (putInc l p pl v s).hbm = s.hbm ∧ (putInc l p pl v s).audit = s.audit ∧
    (putInc l p pl v s).deferred = s.deferred ∧ (putInc l p pl v s).freeCount = s.freeCount ∧ (putInc l p pl v s).outbox = s.outbox ∧
    (putInc l p pl v s).pending = s.pending :=
  by and_intros <;> rfl

@[simp] theorem modTide_fields (f : TideUnit → TideUnit) :
    (modTide f s).aon = s.aon ∧ (modTide f s).sys = s.sys ∧ (modTide f s).clk = s.clk ∧ (modTide f s).pwr = s.pwr ∧
    (modTide f s).units = s.units ∧ (modTide f s).host = s.host ∧ (modTide f s).mbox = s.mbox ∧ (modTide f s).svc = s.svc ∧
    (modTide f s).flt = s.flt ∧ (modTide f s).purser = s.purser ∧ (modTide f s).tide = f s.tide ∧ (modTide f s).jobs = s.jobs ∧
    (modTide f s).net = s.net ∧ (modTide f s).lands = s.lands ∧ (modTide f s).sw = s.sw ∧ (modTide f s).slips = s.slips ∧
    (modTide f s).hawsers = s.hawsers ∧ (modTide f s).optics = s.optics ∧ (modTide f s).xings = s.xings ∧ (modTide f s).incs = s.incs ∧
    (modTide f s).rctxs = s.rctxs ∧ (modTide f s).octxs = s.octxs ∧ (modTide f s).deck = s.deck ∧ (modTide f s).hbm = s.hbm ∧
    (modTide f s).audit = s.audit ∧ (modTide f s).deferred = s.deferred ∧ (modTide f s).freeCount = s.freeCount ∧
    (modTide f s).outbox = s.outbox ∧ (modTide f s).pending = s.pending :=
  by and_intros <;> rfl

@[simp] theorem setBank_fields (b : Nat) (f : Bank → Bank) :
    (setBank b f s).aon = s.aon ∧ (setBank b f s).sys = s.sys ∧ (setBank b f s).clk = s.clk ∧ (setBank b f s).pwr = s.pwr ∧
    (setBank b f s).units = s.units ∧ (setBank b f s).host = s.host ∧ (setBank b f s).mbox = s.mbox ∧ (setBank b f s).svc = s.svc ∧
    (setBank b f s).flt = s.flt ∧ (setBank b f s).purser = s.purser ∧ (setBank b f s).tide = s.tide ∧ (setBank b f s).jobs = s.jobs ∧
    (setBank b f s).lands = s.lands ∧ (setBank b f s).sw = s.sw ∧ (setBank b f s).slips = s.slips ∧ (setBank b f s).hawsers = s.hawsers ∧
    (setBank b f s).optics = s.optics ∧ (setBank b f s).xings = s.xings ∧ (setBank b f s).incs = s.incs ∧
    (setBank b f s).rctxs = s.rctxs ∧ (setBank b f s).octxs = s.octxs ∧ (setBank b f s).deck = s.deck ∧ (setBank b f s).hbm = s.hbm ∧
    (setBank b f s).audit = s.audit ∧ (setBank b f s).deferred = s.deferred ∧ (setBank b f s).freeCount = s.freeCount ∧
    (setBank b f s).outbox = s.outbox ∧ (setBank b f s).pending = s.pending :=
  by unfold setBank; split <;> and_intros <;> rfl

@[simp] theorem modAon_fields (f : AlwaysOn → AlwaysOn) :
    (modAon f s).aon = f s.aon ∧ (modAon f s).sys = s.sys ∧ (modAon f s).clk = s.clk ∧ (modAon f s).pwr = s.pwr ∧
    (modAon f s).units = s.units ∧ (modAon f s).host = s.host ∧ (modAon f s).mbox = s.mbox ∧ (modAon f s).svc = s.svc ∧
    (modAon f s).flt = s.flt ∧ (modAon f s).purser = s.purser ∧ (modAon f s).tide = s.tide ∧ (modAon f s).jobs = s.jobs ∧
    (modAon f s).net = s.net ∧ (modAon f s).lands = s.lands ∧ (modAon f s).sw = s.sw ∧ (modAon f s).slips = s.slips ∧
    (modAon f s).hawsers = s.hawsers ∧ (modAon f s).optics = s.optics ∧ (modAon f s).xings = s.xings ∧ (modAon f s).incs = s.incs ∧
    (modAon f s).rctxs = s.rctxs ∧ (modAon f s).octxs = s.octxs ∧ (modAon f s).deck = s.deck ∧ (modAon f s).hbm = s.hbm ∧
    (modAon f s).audit = s.audit ∧ (modAon f s).deferred = s.deferred ∧ (modAon f s).freeCount = s.freeCount ∧
    (modAon f s).outbox = s.outbox ∧ (modAon f s).pending = s.pending :=
  by and_intros <;> rfl

@[simp] theorem modSys_fields (f : Sys → Sys) :
    (modSys f s).aon = s.aon ∧ (modSys f s).sys = f s.sys ∧ (modSys f s).clk = s.clk ∧ (modSys f s).pwr = s.pwr ∧
    (modSys f s).units = s.units ∧ (modSys f s).host = s.host ∧ (modSys f s).mbox = s.mbox ∧ (modSys f s).svc = s.svc ∧
    (modSys f s).flt = s.flt ∧ (modSys f s).purser = s.purser ∧ (modSys f s).tide = s.tide ∧ (modSys f s).jobs = s.jobs ∧
    (modSys f s).net = s.net ∧ (modSys f s).lands = s.lands ∧ (modSys f s).sw = s.sw ∧ (modSys f s).slips = s.slips ∧
    (modSys f s).hawsers = s.hawsers ∧ (modSys f s).optics = s.optics ∧ (modSys f s).xings = s.xings ∧ (modSys f s).incs = s.incs ∧
    (modSys f s).rctxs = s.rctxs ∧ (modSys f s).octxs = s.octxs ∧ (modSys f s).deck = s.deck ∧ (modSys f s).hbm = s.hbm ∧
    (modSys f s).audit = s.audit ∧ (modSys f s).deferred = s.deferred ∧ (modSys f s).freeCount = s.freeCount ∧
    (modSys f s).outbox = s.outbox ∧ (modSys f s).pending = s.pending :=
  by and_intros <;> rfl

@[simp] theorem writeBytes_fields (a : Nat) (bs : List Byte) :
    (writeBytes a bs s).aon = s.aon ∧ (writeBytes a bs s).sys = s.sys ∧ (writeBytes a bs s).clk = s.clk ∧
    (writeBytes a bs s).pwr = s.pwr ∧ (writeBytes a bs s).units = s.units ∧ (writeBytes a bs s).host = s.host ∧
    (writeBytes a bs s).mbox = s.mbox ∧ (writeBytes a bs s).svc = s.svc ∧ (writeBytes a bs s).flt = s.flt ∧
    (writeBytes a bs s).purser = s.purser ∧ (writeBytes a bs s).tide = s.tide ∧ (writeBytes a bs s).jobs = s.jobs ∧
    (writeBytes a bs s).net = s.net ∧ (writeBytes a bs s).lands = s.lands ∧ (writeBytes a bs s).sw = s.sw ∧
    (writeBytes a bs s).slips = s.slips ∧ (writeBytes a bs s).hawsers = s.hawsers ∧ (writeBytes a bs s).optics = s.optics ∧
    (writeBytes a bs s).xings = s.xings ∧ (writeBytes a bs s).incs = s.incs ∧ (writeBytes a bs s).rctxs = s.rctxs ∧
    (writeBytes a bs s).octxs = s.octxs ∧ (writeBytes a bs s).deck = s.deck ∧
    (writeBytes a bs s).hbm = { s.hbm with mem := writeCells s.hbm.mem a bs } ∧ (writeBytes a bs s).audit = s.audit ∧
    (writeBytes a bs s).deferred = s.deferred ∧ (writeBytes a bs s).freeCount = s.freeCount ∧ (writeBytes a bs s).outbox = s.outbox ∧
    (writeBytes a bs s).pending = s.pending :=
  by and_intros <;> rfl

end Sys2Proof.Laws
end

