-- ==== Sys2Proof/Laws/Ops.lean ====
section
/-!
SUPPORT. The shared operations that events, faults, counters and completions go through: what each leaves alone (the quiet part of
the state), and that what has left the part only grows.
-/
namespace Sys2Proof.Laws
open Sys2Proof.Machine

variable (s : State)

/-! ### Reading the quiet part -/

@[simp] theorem quiet_emit (o : Output) : (emit o s).quiet = s.quiet := rfl
@[simp] theorem quiet_settle : (settle s).quiet = s.quiet := rfl
@[simp] theorem quiet_fresh (w : Nat) : (fresh w s).2.quiet = s.quiet := rfl

@[simp] theorem quiet_ite (c : Prop) [Decidable c] (a b : State) :
    (if c then a else b).quiet = if c then a.quiet else b.quiet := apply_ite State.quiet c a b

theorem quiet_modHost (f : HostIf → HostIf) (h : (f s.host).quiet = s.host.quiet) : (modHost f s).quiet = s.quiet := by
  unfold modHost State.quiet
  simp only [h]

@[simp] theorem quiet_modQp (q : Nat) (f : QueuePair → QueuePair) : (modQp q f s).quiet = s.quiet := rfl

@[simp] theorem quiet_raiseVector (v : Nat) : (raiseVector v s).quiet = s.quiet := by
  unfold raiseVector
  split <;> rfl

@[simp] theorem quiet_qpWriteBack (q : Nat) : (qpWriteBack q s).quiet = s.quiet := by
  unfold qpWriteBack
  dsimp only
  split <;> simp

@[simp] theorem quiet_evWriteBack : (evWriteBack s).quiet = s.quiet := by
  unfold evWriteBack
  dsimp only
  split
  · simp only [quiet_raiseVector]
    rfl
  · simp

theorem quiet_foldl {α : Type} (f : State → α → State) (h : ∀ s a, (f s a).quiet = s.quiet) (l : List α) :
    ∀ s, (l.foldl f s).quiet = s.quiet := by
  induction l with
  | nil => exact fun _ => rfl
  | cons a l ih => exact fun s => (ih (f s a)).trans (h s a)

@[simp] theorem quiet_sendEventFrames (e : Event) : (sendEventFrames e s).quiet = s.quiet := by
  unfold sendEventFrames
  split
  · rfl
  · exact quiet_foldl (fun s mac => emit (.serviceFrame mac 3 s.svc.eventSeq e.bytes) s) (fun _ _ => rfl) s.svc.clients s

@[simp] theorem quiet_settleEvents : (settleEvents s).quiet = s.quiet := by
  unfold settleEvents
  exact quiet_foldl _ (fun s e => quiet_sendEventFrames s e) _ _

@[simp] theorem quiet_raiseRaw (code : Nat) (job : Option Nat) (params : List Byte) : (raiseRaw code job params s).quiet = s.quiet := by
  unfold raiseRaw
  dsimp only
  split
  · rw [quiet_modHost, quiet_sendEventFrames, quiet_settleEvents]
    rfl
  · exact quiet_modHost _ _ rfl

@[simp] theorem quiet_bumpPurser (i n : Nat) : (bumpPurser i n s).1.quiet = s.quiet := rfl

@[simp] theorem quiet_raiseEvent (code : Nat) (job : Option Nat) (params : List Byte) :
    (raiseEvent code job params s).quiet = s.quiet := by
  unfold raiseEvent raiseSaturated
  dsimp only
  split
  · split <;> simp
  · simp

@[simp] theorem quiet_countPurser (i n : Nat) : (countPurser i n s).quiet = s.quiet := by
  unfold countPurser
  dsimp only
  split <;> simp

@[simp] theorem quiet_ringError (q tag reason : Nat) : (ringError q tag reason s).quiet = s.quiet := by
  unfold ringError
  simp

@[simp] theorem quiet_noteFault (cls level : Nat) : (noteFault cls level s).quiet = s.quiet := by
  unfold noteFault State.quiet
  simp [List.map_map, Function.comp_def]

@[simp] theorem quiet_keepFatal (r : FaultRecord) : (keepFatal r s).quiet = s.quiet := by
  unfold keepFatal
  split <;> rfl

@[simp] theorem quiet_raiseFaultEvent (r : FaultRecord) : (raiseFaultEvent r s).quiet = s.quiet := by
  unfold raiseFaultEvent
  simp

@[simp] theorem quiet_addRecord (r : FaultRecord) : (addRecord r s).quiet = s.quiet := by
  unfold addRecord
  dsimp only
  split
  · rw [quiet_raiseFaultEvent, quiet_keepFatal]
    rfl
  · rw [quiet_raiseFaultEvent, quiet_countPurser, quiet_keepFatal]

@[simp] theorem quiet_putRecord (r : FaultRecord) : (putRecord r s).quiet = s.quiet := rfl

/-- A fault touches nothing outside the records, the events and the accounts of the audit records. -/
@[simp] theorem quiet_raiseFault (cls cause unit detail level : Nat) : (raiseFault cls cause unit detail level s).quiet = s.quiet := by
  unfold raiseFault
  dsimp only
  split
  · split <;> simp
  · split <;> simp

@[simp] theorem quiet_placeLost : (placeLost s).quiet = s.quiet := by
  unfold placeLost
  split
  · rfl
  · dsimp only
    rw [quiet_raiseFault, quiet_modHost, quiet_sendEventFrames, quiet_settleEvents]
    rfl

@[simp] theorem quiet_writeEvent : (writeEvent s).quiet = s.quiet := by
  unfold writeEvent
  dsimp only
  split
  · simp
  · split
    · rw [quiet_placeLost, quiet_evWriteBack, quiet_modHost]
      · simp
      · rfl
    · simp

@[simp] theorem quiet_drainEvents : (drainEvents s).quiet = s.quiet := by
  unfold drainEvents
  generalize List.range (s.host.evQueue.length + 1) = l
  induction l generalizing s with
  | nil => rfl
  | cons _ l ih => exact (ih (writeEvent s)).trans (quiet_writeEvent s)

@[simp] theorem quiet_linkError : (linkError s).quiet = s.quiet := by
  unfold linkError
  dsimp only
  rw [quiet_ite, quiet_emit, quiet_modHost _ _ rfl, quiet_fresh, ite_self]

@[simp] theorem quiet_dmaError (q tag : Nat) : (dmaError q tag s).quiet = s.quiet := by
  unfold dmaError
  simp

@[simp] theorem quiet_pushCompletion (q : Nat) (e : List Byte) : (pushCompletion q e s).quiet = s.quiet := by
  unfold pushCompletion
  simp

@[simp] theorem quiet_keepCompletion (mac tag : Nat) (a : Option (List Byte)) : (keepCompletion mac tag a s).quiet = s.quiet := by
  simp [keepCompletion, State.quiet]

@[simp] theorem quiet_startOn (x : Exec) : (startOn x s).quiet = s.quiet := rfl

theorem foldl_snd {α : Type} (P : State → Prop) (f : Bool × State → α → Bool × State) (h : ∀ a x, P a.2 → P (f a x).2) (l : List α) :
    ∀ a, P a.2 → P (l.foldl f a).2 := by
  induction l with
  | nil => exact fun _ ha => ha
  | cons x l ih => exact fun a ha => ih _ (h a x ha)

/-- Held-back commands start with what a draw of a core and the queues of commands change, and no more. -/
theorem startWaiting_keeps (mac : Nat) : (startWaiting mac s).quiet = s.quiet ∧ (startWaiting mac s).outbox = s.outbox := by
  unfold startWaiting
  refine foldl_snd (fun u => u.quiet = s.quiet ∧ u.outbox = s.outbox) _ ?_ _ _ ⟨rfl, rfl⟩
  intro a x ha
  dsimp only
  split <;> exact ha

@[simp] theorem quiet_startWaiting (mac : Nat) : (startWaiting mac s).quiet = s.quiet := (startWaiting_keeps s mac).1

/-- A completion touches only what the quiet part leaves out. -/
@[simp] theorem quiet_complete (r : Running) (status r0 r1 : Nat) (data : List Byte) :
    (complete r status r0 r1 data s).quiet = s.quiet := by
  unfold complete
  dsimp only
  split
  · simp
  · split
    · rw [quiet_countPurser]
    · rw [quiet_pushCompletion]
      split <;> split <;> simp

/-- A dispatch in the same step takes at most a fetched command. -/
theorem dispatchNow_state {x : Exec} {s s' : State} (h : dispatchNow x s = some s') :
    ∃ l, s' = { s with host := { s.host with qps := l } } := by
  unfold dispatchNow at h
  split at h
  · split at h
    · split at h
      · split at h <;> cases h
        exact ⟨_, rfl⟩
      · split at h <;> cases h
        exact ⟨_, rfl⟩
    · cases h
  · split at h <;> cases h
    exact ⟨_, rfl⟩

theorem quiet_dispatchNow {x : Exec} {s s' : State} (h : dispatchNow x s = some s') : s'.quiet = s.quiet := by
  obtain ⟨l, rfl⟩ := dispatchNow_state h
  rfl

/-- Admission draws a core or takes the command from those that run. -/
theorem quiet_admitCmd {x : Exec} {op : Nat} {s s' : State} {r : Running} (h : admitCmd x op s = some (r, s')) : s'.quiet = s.quiet := by
  unfold admitCmd at h
  split at h
  · cases h
  · split at h
    · split at h <;> cases h
      rfl
    · split at h
      · cases h
      · obtain ⟨u, hu, he⟩ := Option.map_eq_some_iff.mp h
        cases he
        exact (quiet_fresh u 16).trans (quiet_dispatchNow hu)

end Sys2Proof.Laws
end

