-- ==== Sys2Proof/Laws/Commands.lean ====
section
/-!
SUPPORT. What has left the part only grows through events, faults and completions; a completion answers; and what a command that is
admitted and passes its checks gives.
-/
namespace Sys2Proof.Laws
open Sys2Proof.Machine

/-- What has left the part is kept. -/
def Grows (s t : State) : Prop := s.outbox <+: t.outbox

theorem Grows.refl (s : State) : Grows s s := List.prefix_refl _
theorem Grows.trans {s t u : State} (a : Grows s t) (b : Grows t u) : Grows s u := List.IsPrefix.trans a b
theorem Grows.of_eq {s t : State} (h : t.outbox = s.outbox) : Grows s t := by rw [Grows, h]

theorem Grows.of_append {s t : State} {out : List Output} (h : t.outbox = s.outbox ++ out) : Grows s t := ⟨out, h.symm⟩

theorem grows_emit (s : State) (o : Output) : Grows s (emit o s) := List.prefix_append _ _

theorem grows_raiseVector (s : State) (v : Nat) : Grows s (raiseVector v s) := by
  unfold raiseVector
  split
  · exact .of_eq rfl
  · exact grows_emit s _

theorem grows_qpWriteBack (s : State) (q : Nat) : Grows s (qpWriteBack q s) := by
  unfold qpWriteBack
  dsimp only
  split
  · refine Grows.trans ?_ (grows_raiseVector _ _)
    exact .of_append rfl
  · exact grows_emit s _

theorem grows_evWriteBack (s : State) : Grows s (evWriteBack s) := by
  unfold evWriteBack
  dsimp only
  split
  · refine Grows.trans ?_ (grows_raiseVector _ _)
    exact .of_append rfl
  · exact grows_emit s _

theorem grows_foldl {α : Type} (f : State → α → State) (h : ∀ s a, Grows s (f s a)) (l : List α) : ∀ s, Grows s (l.foldl f s) := by
  induction l with
  | nil => exact fun s => .refl s
  | cons a l ih => exact fun s => (h s a).trans (ih _)

theorem grows_sendEventFrames (s : State) (e : Event) : Grows s (sendEventFrames e s) := by
  unfold sendEventFrames
  split
  · exact .refl s
  · refine (grows_foldl _ (fun s _ => grows_emit s _) _ s).trans (.of_eq rfl)

theorem grows_settleEvents (s : State) : Grows s (settleEvents s) :=
  .trans (t := modHost (fun h => { h with evFresh := 0 }) s) (.of_eq rfl)
    (grows_foldl (fun s e => sendEventFrames e s) grows_sendEventFrames _ _)

theorem grows_raiseRaw (s : State) (code : Nat) (job : Option Nat) (params : List Byte) : Grows s (raiseRaw code job params s) := by
  unfold raiseRaw
  dsimp only
  split
  · exact ((grows_settleEvents s).trans (grows_sendEventFrames _ _)).trans (.of_eq rfl)
  · exact .of_eq rfl

theorem grows_raiseEvent (s : State) (code : Nat) (job : Option Nat) (params : List Byte) :
    Grows s (raiseEvent code job params s) := by
  unfold raiseEvent raiseSaturated
  dsimp only
  split
  · split
    · refine Grows.trans ?_ (grows_raiseRaw _ _ _ _)
      exact (grows_raiseRaw s _ _ _).trans (.of_eq rfl)
    · exact (grows_raiseRaw s _ _ _).trans (.of_eq rfl)
  · exact grows_raiseRaw s _ _ _

theorem grows_countPurser (s : State) (i n : Nat) : Grows s (countPurser i n s) := by
  unfold countPurser
  dsimp only
  split
  · refine Grows.trans ?_ (grows_raiseEvent _ _ _ _)
    exact .of_eq rfl
  · exact .of_eq rfl

theorem grows_keepFatal (s : State) (r : FaultRecord) : Grows s (keepFatal r s) := by
  unfold keepFatal
  split <;> exact .of_eq rfl

theorem grows_raiseFaultEvent (s : State) (r : FaultRecord) : Grows s (raiseFaultEvent r s) := grows_raiseEvent s _ _ _

theorem grows_addRecord (s : State) (r : FaultRecord) : Grows s (addRecord r s) := by
  unfold addRecord
  dsimp only
  split
  · refine Grows.trans (Grows.trans ?_ (grows_keepFatal _ _)) (grows_raiseFaultEvent _ _)
    exact .of_eq rfl
  · exact ((grows_keepFatal _ _).trans (grows_countPurser _ _ _)).trans (grows_raiseFaultEvent _ _)

theorem grows_ite (s a b : State) (c : Prop) [Decidable c] (ha : Grows s a) (hb : Grows s b) : Grows s (if c then a else b) := by
  split
  · exact ha
  · exact hb

theorem grows_putNote (s : State) (cls lv : Nat) (r : FaultRecord) : Grows s (noteFault cls lv (putRecord r s)) := .of_eq rfl

theorem grows_raiseFault (s : State) (cls cause unit detail level : Nat) : Grows s (raiseFault cls cause unit detail level s) := by
  unfold raiseFault
  dsimp only
  split
  · split
    · refine grows_ite _ _ _ _ (grows_putNote s _ _ _) ?_
      exact ((grows_putNote s _ _ _).trans (grows_keepFatal _ _)).trans (grows_raiseFaultEvent _ _)
    · exact (grows_addRecord s _).trans (.of_eq rfl)
  · split
    · refine grows_ite _ _ _ _ (grows_putNote s _ _ _) (Grows.trans ?_ (grows_raiseFaultEvent _ _))
      exact grows_ite _ _ _ _ (grows_putNote s _ _ _) ((grows_putNote s _ _ _).trans (grows_keepFatal _ _))
    · exact (grows_addRecord s _).trans (.of_eq rfl)

theorem grows_placeLost (s : State) : Grows s (placeLost s) := by
  unfold placeLost
  split
  · exact .refl s
  · refine Grows.trans ?_ (grows_raiseFault _ _ _ _ _ _)
    exact ((grows_settleEvents s).trans (grows_sendEventFrames _ _)).trans (.of_eq rfl)

theorem grows_writeEvent (s : State) : Grows s (writeEvent s) := by
  refine (grows_settleEvents s).trans ?_
  unfold writeEvent
  dsimp only
  generalize settleEvents s = s
  split
  · exact .refl s
  · split
    · refine Grows.trans (Grows.trans ?_ (grows_evWriteBack _)) (grows_placeLost _)
      exact .of_append rfl
    · exact .refl s

theorem grows_drainEvents (s : State) : Grows s (drainEvents s) := by
  unfold drainEvents
  generalize List.range (s.host.evQueue.length + 1) = l
  induction l generalizing s with
  | nil => exact .refl s
  | cons _ l ih => exact (grows_writeEvent s).trans (ih _)

theorem grows_linkError (s : State) : Grows s (linkError s) := by
  unfold linkError
  dsimp only
  exact grows_ite _ _ _ _ (.of_append rfl) (.of_eq rfl)

theorem grows_dmaError (s : State) (q tag : Nat) : Grows s (dmaError q tag s) := by
  refine Grows.trans ?_ (grows_raiseEvent _ _ _ _)
  exact (grows_linkError s).trans (.of_eq rfl)

/-- What left the part with `o` still stands after what grows from there. -/
theorem mem_out_of_grows {s t u : State} {o : Output} (h : Grows s t) (k : Grows (emit o t) u) :
    ∃ out, u.outbox = s.outbox ++ out ∧ o ∈ out := by
  obtain ⟨a, ha⟩ := h
  obtain ⟨b, hb⟩ := k
  refine ⟨a ++ o :: b, ?_, by simp⟩
  have e : (emit o t).outbox = t.outbox ++ [o] := rfl
  rw [← hb, e, ← ha]
  simp

theorem grows_keepCompletion (s : State) (mac tag : Nat) (a : Option (List Byte)) : Grows s (keepCompletion mac tag a s) := by
  unfold keepCompletion
  exact .of_eq rfl

theorem grows_startWaiting (s : State) (mac : Nat) : Grows s (startWaiting mac s) := .of_eq (startWaiting_keeps s mac).2

theorem grows_qpEntry (s : State) (q : Nat) (e : List Byte) :
    ∃ a, Grows (emit (.hostWrite a e) s) (pushCompletion q e s) := by
  unfold pushCompletion
  refine ⟨(getQp s q).cqBase + ((getQp s q).cqTail.toNat % 2 ^ (getQp s q).ctrl.cqLog2) * 32, ?_⟩
  refine Grows.trans ?_ (grows_qpWriteBack _ _)
  exact .of_eq rfl

/-- The host writes of a completion over a ring: its data, then its entry. -/
theorem ring_writes (s : State) (q addr tag : Nat) (wrote bad : Bool) (data e : List Byte) :
    ∃ out a, (pushCompletion q e (if wrote = true
        then emit (.hostWrite addr data) (drainEvents (if bad = true then dmaError q tag s else s))
        else drainEvents (if bad = true then dmaError q tag s else s))).outbox = s.outbox ++ out ∧
      Output.hostWrite a e ∈ out ∧ (wrote = true → Output.hostWrite addr data ∈ out) := by
  have hg : Grows s (drainEvents (if bad = true then dmaError q tag s else s)) :=
    (grows_ite _ _ _ _ (grows_dmaError _ _ _) (.refl s)).trans (grows_drainEvents _)
  generalize drainEvents (if bad = true then dmaError q tag s else s) = u at hg
  obtain ⟨o1, h1⟩ := hg
  cases wrote with
  | false =>
    obtain ⟨a, o3, h3⟩ := grows_qpEntry u q e
    refine ⟨o1 ++ Output.hostWrite a e :: o3, a, ?_, by simp, by simp⟩
    simp only [Bool.false_eq_true, if_false, ← h3]
    simp [emit, ← h1]
  | true =>
    obtain ⟨a, o3, h3⟩ := grows_qpEntry (emit (.hostWrite addr data) u) q e
    refine ⟨o1 ++ Output.hostWrite addr data :: Output.hostWrite a e :: o3, a, ?_, by simp, by simp⟩
    simp only [if_true, ← h3]
    simp [emit, ← h1]

/-- A completion that is not discarded answers the command. -/
theorem complete_answers (s : State) (r : Running) (status r0 r1 : Nat) (data : List Byte) (hr : r.orphan = false) :
    Answered r.x status r0 r1 data s (complete r status r0 r1 data s) := by
  unfold Answered complete
  dsimp only
  cases hx : r.x.src with
  | service mac =>
    obtain ⟨out, h1, h2⟩ := mem_out_of_grows (grows_drainEvents s) ((grows_keepCompletion
      (emit (.serviceFrame mac 2 0 (completionBytes r.x r.core status data.length r0 r1 ++ data)) (drainEvents s)) mac r.x.cmd.tag
      (some (completionBytes r.x r.core status data.length r0 r1 ++ data))).trans (grows_startWaiting _ mac))
    exact ⟨out, h1, r.core, data.length, rfl, h2⟩
  | ring q =>
    simp only [hr, Bool.false_eq_true, if_false]
    obtain ⟨out, a, h1, h2, h3⟩ := ring_writes s q r.x.cmd.resultAddr r.x.cmd.tag (r.x.resultOk && !data.isEmpty)
      ((!r.x.resultOk && !data.isEmpty) || r.x.desc.isNone || !r.x.entryOk) data
      (completionBytes r.x r.core status (if (r.x.resultOk && !data.isEmpty) = true then data.length else 0) r0 r1)
    refine ⟨out, h1, r.core, _, ⟨a, h2⟩, ?_⟩
    intro ok hd
    have hw : (r.x.resultOk && !data.isEmpty) = true := by simp [ok, hd]
    exact ⟨by simp [hw], h3 hw⟩

/-! ### Commands -/

/-- A command that is admitted is the one that was sent. -/
theorem admitted_exec {x : Exec} {op : Nat} {s s' : State} {r : Running} (h : admitCmd x op s = some (r, s')) : r.x = x := by
  unfold admitCmd at h
  split at h
  · cases h
  · split at h
    · rename_i y hy
      split at h <;> cases h
      have := List.find?_some hy
      simpa using this
    · split at h
      · cases h
      · obtain ⟨u, -, he⟩ := Option.map_eq_some_iff.mp h
        cases he
        rfl

/-- The state a command is admitted into: the same state with its fetched command taken and the next free value drawn, or with the
command taken from those running. -/
theorem admitted_state {x : Exec} {op : Nat} {s s' : State} {r : Running} (h : admitCmd x op s = some (r, s')) :
    (∃ l, s' = { s with host := { s.host with qps := l }, freeCount := s.freeCount + 1 }) ∨
      s' = { s with host := { s.host with running := s.host.running.erase r } } := by
  unfold admitCmd at h
  split at h
  · cases h
  · split at h
    · split at h <;> cases h
      exact .inr rfl
    · split at h
      · cases h
      · obtain ⟨u, hu, he⟩ := Option.map_eq_some_iff.mp h
        obtain ⟨l, rfl⟩ := dispatchNow_state hu
        cases he
        exact .inl ⟨l, rfl⟩

theorem admitted_outbox {x : Exec} {op : Nat} {s s' : State} {r : Running} (h : admitCmd x op s = some (r, s')) :
    s'.outbox = s.outbox := by
  rcases admitted_state h with ⟨l, rfl⟩ | rfl <;> rfl

/-- An answer is a reply. -/
theorem replied_of_answered {x : Exec} {status r0 r1 : Nat} {data : List Byte} {s t : State} (h : Answered x status r0 r1 data s t) :
    Replied x status r0 r1 t := by
  obtain ⟨out, ho, core, n, k⟩ := h
  refine ⟨core, n, ?_⟩
  cases hx : x.src with
  | ring q =>
    rw [hx] at k
    obtain ⟨⟨a, ha⟩, -⟩ := k
    exact ⟨a, by rw [ho]; exact List.mem_append_right _ ha⟩
  | service mac =>
    rw [hx] at k
    exact ⟨data, by rw [ho]; exact List.mem_append_right _ k.2⟩

theorem sends_of_eq {s s' t : State} {p : List Output → Prop} (h : s'.outbox = s.outbox) (k : Sends s' t p) : Sends s t p := by
  unfold Sends at *
  rwa [h] at k

/-- A command that passes its checks completes with OK, from the state its effect leaves. -/
theorem runCmd_accepts {x : Exec} {row : State → Row} {s : State} (h : Accepts x row s) (effect : State → Effect) :
    ∃ r s', admitCmd x (row s).opcode s = some (r, s') ∧ r.orphan = false ∧
      runCmd x s row effect =
        finish (complete r stOk (effect s').r0 (effect s').r1 (effect s').data (effect s').state) := by
  obtain ⟨r, s', ha, ho, hv⟩ := h
  refine ⟨r, s', ha, ho, ?_⟩
  unfold runCmd
  simp only [ha, hv]

/-- The same for a command that completes later: accepted, it is started. -/
theorem runLater_accepts {x : Exec} {row : State → Row} {s : State} (h : Accepts x row s) (start : Running → State → State) :
    ∃ r s', admitCmd x (row s).opcode s = some (r, s') ∧ r.orphan = false ∧ runLater x s row start = finish (start r s') := by
  obtain ⟨r, s', ha, ho, hv⟩ := h
  refine ⟨r, s', ha, ho, ?_⟩
  unfold runLater
  simp only [ha, hv]

/-- What a command that passes its checks gives: its answer, and the quiet part of its effect. It asks of the effect that nothing has
left the part in it, and that neither the free values drawn nor the commands fetched or running enter it. -/
theorem done_of_runCmd {x : Exec} {row : State → Row} {s : State} (h : Accepts x row s) (effect : State → Effect) (c : Instr)
    (hc : exec c s = runCmd x s row effect) (hout : ∀ u, (effect u).state.outbox = u.outbox)
    (hfree : ∀ u n, effect { u with freeCount := n } = { effect u with state := { (effect u).state with freeCount := n } })
    (hqps : ∀ u l, effect { u with host := { u.host with qps := l } } =
      { effect u with state := { (effect u).state with host := { (effect u).state.host with qps := l } } })
    (hrun : ∀ u l, effect { u with host := { u.host with running := l } } =
      { effect u with state := { (effect u).state with host := { (effect u).state.host with running := l } } }) :
    Done c x (effect s).r0 (effect s).r1 (effect s).data (effect s).state s := by
  obtain ⟨r, s', ha, ho, e⟩ := runCmd_accepts h effect
  have hx := admitted_exec ha
  have same : (effect s').r0 = (effect s).r0 ∧ (effect s').r1 = (effect s).r1 ∧ (effect s').data = (effect s).data ∧
      (effect s').state.quiet = (effect s).state.quiet := by
    rcases admitted_state ha with ⟨l, rfl⟩ | rfl
    · rw [hfree { s with host := { s.host with qps := l } }, hqps]
      exact ⟨rfl, rfl, rfl, rfl⟩
    · rw [hrun]
      exact ⟨rfl, rfl, rfl, rfl⟩
  obtain ⟨h0, h1, h2, h3⟩ := same
  rw [h0, h1, h2] at e
  refine ⟨_, hc.trans e, ?_, ?_⟩
  · have k := complete_answers (effect s').state r stOk (effect s).r0 (effect s).r1 (effect s).data ho
    rw [hx] at k
    exact sends_of_eq ((hout s').trans (admitted_outbox ha)) k
  · rw [quiet_settle, quiet_complete, h3]

end Sys2Proof.Laws
end

