-- ==== Sys2Proof/Laws/Memory.lean ====
section
/-!
SUPPORT. What each operation over tables and over the state area's cells does: read after write, and the canonical form (addresses
strictly rising), which every operation over cells keeps.
-/
namespace Sys2Proof.Machine

/-! ### Tables -/

theorem tabGet?_tabPut_same {α : Type} (t : Tab α) (k : Nat) (v : α) : tabGet? (tabPut t k v) k = some v := by
  induction t with
  | nil => simp [tabPut, tabGet?]
  | cons p t ih =>
    obtain ⟨k', v'⟩ := p
    unfold tabPut
    by_cases h1 : k < k'
    · simp [h1, tabGet?]
    · by_cases h2 : k = k'
      · simp [h2, tabGet?]
      · simpa [h1, h2, tabGet?, Ne.symm h2] using ih

theorem tabGet?_tabPut_ne {α : Type} (t : Tab α) {k j : Nat} (v : α) (h : j ≠ k) : tabGet? (tabPut t k v) j = tabGet? t j := by
  induction t with
  | nil => simp [tabPut, tabGet?, Ne.symm h]
  | cons p t ih =>
    obtain ⟨k', v'⟩ := p
    unfold tabPut
    by_cases h1 : k < k'
    · simp [h1, tabGet?, Ne.symm h]
    · by_cases h2 : k = k'
      · subst h2
        simp [tabGet?, Ne.symm h]
      · by_cases h3 : k' = j
        · subst h3
          simp [h1, h2, tabGet?]
        · simpa [h1, h2, h3, tabGet?] using ih

theorem tabGet_tabPut_same {α : Type} (t : Tab α) (k : Nat) (v d : α) : tabGet (tabPut t k v) k d = v := by
  simp [tabGet, tabGet?_tabPut_same]

theorem tabGet_tabPut_ne {α : Type} (t : Tab α) {k j : Nat} (v d : α) (h : j ≠ k) : tabGet (tabPut t k v) j d = tabGet t j d := by
  simp [tabGet, tabGet?_tabPut_ne t v h]

theorem tabGet?_tabDel_same {α : Type} (t : Tab α) (k : Nat) : tabGet? (tabDel t k) k = none := by
  induction t with
  | nil => simp [tabDel, tabGet?]
  | cons p t ih =>
    by_cases h : p.1 = k
    · simp [tabDel, tabGet?, h]
    · simp [tabDel, tabGet?, h]

theorem tabGet?_tabDel_ne {α : Type} (t : Tab α) {k j : Nat} (h : j ≠ k) : tabGet? (tabDel t k) j = tabGet? t j := by
  induction t with
  | nil => simp [tabDel]
  | cons p t ih =>
    by_cases hk : p.1 = k
    · have hj : p.1 ≠ j := fun e => h (e.symm.trans hk)
      simpa [tabDel, tabGet?, hk, hj, Ne.symm h] using ih
    · by_cases hj : p.1 = j
      · simp [tabDel, tabGet?, hj, h]
      · simpa [tabDel, tabGet?, hk, hj] using ih

theorem tabGet?_tabMod_same {α : Type} (t : Tab α) (k : Nat) (f : α → α) : tabGet? (tabMod t k f) k = (tabGet? t k).map f := by
  induction t with
  | nil => simp [tabMod, tabGet?]
  | cons p t ih =>
    by_cases h : p.1 = k
    · simp [tabMod, tabGet?, h]
    · simpa [tabMod, tabGet?, h] using ih

theorem tabGet?_tabMod_ne {α : Type} (t : Tab α) {k j : Nat} (f : α → α) (h : j ≠ k) : tabGet? (tabMod t k f) j = tabGet? t j := by
  induction t with
  | nil => simp [tabMod]
  | cons p t ih =>
    by_cases hk : p.1 = k
    · have hj : p.1 ≠ j := fun e => h (e.symm.trans hk)
      simpa [tabMod, tabGet?, hk, hj, Ne.symm h] using ih
    · by_cases hj : p.1 = j
      · simp [tabMod, tabGet?, hj, h]
      · simpa [tabMod, tabGet?, hk, hj] using ih

/-! ### The cells of the state area -/

/-- The byte a list of cells gives at an address. -/
def cellAt (m : List Host.Cell) (a : Nat) : Option Byte := (m.find? (fun c => c.1 == a)).map Prod.snd

theorem cellAt_writeCell (m : List Host.Cell) (a b : Nat) (v : Byte) :
    cellAt (writeCell m a v) b = if b = a then some v else cellAt m b := by
  induction m with
  | nil =>
    by_cases h : b = a
    · simp [writeCell, cellAt, h]
    · simp [writeCell, cellAt, h, Ne.symm h]
  | cons c m ih =>
    unfold writeCell
    by_cases h1 : a < c.1
    · by_cases h : b = a
      · simp [h1, cellAt, h]
      · simp [h1, cellAt, h, Ne.symm h]
    · by_cases h2 : a = c.1
      · by_cases h : b = a
        · simp [cellAt, h2, h]
        · have hc : c.1 ≠ b := fun e => h (e.symm.trans h2.symm)
          simp [cellAt, h2, hc, Ne.symm hc]
      · by_cases h3 : c.1 = b
        · have h : b ≠ a := fun e => h2 (e.symm.trans h3.symm)
          subst h3
          simp [h1, h2, cellAt, h]
        · simpa [h1, h2, cellAt, h3] using ih

theorem cellAt_writeCells (bs : List Byte) : ∀ (m : List Host.Cell) (a b : Nat),
    cellAt (writeCells m a bs) b = if a ≤ b ∧ b < a + bs.length then bs[b - a]? else cellAt m b := by
  induction bs with
  | nil => intro m a b; simp [writeCells]
  | cons v bs ih =>
    intro m a b
    rw [writeCells, ih, cellAt_writeCell]
    by_cases h : b = a
    · subst h
      simp
    · by_cases h2 : a + 1 ≤ b ∧ b < a + 1 + bs.length
      · have e : b - a = (b - (a + 1)) + 1 := by omega
        have h3 : a ≤ b ∧ b < a + (v :: bs).length := by simp; omega
        simp only [h2, h3, if_true, and_self, e, List.getElem?_cons_succ]
      · have h3 : ¬ (a ≤ b ∧ b < a + (v :: bs).length) := by simp; omega
        simp only [h2, h3, if_false, h]

/-- A read of a byte after a run of bytes was written. -/
theorem readByte_writeBytes (s : State) (a b : Nat) (bs : List Byte) :
    readByte (writeBytes a bs s) b = if a ≤ b ∧ b < a + bs.length then bs.getD (b - a) 0 else readByte s b := by
  have h := cellAt_writeCells bs s.hbm.mem a b
  unfold cellAt at h
  unfold readByte writeBytes
  simp only [h]
  by_cases hb : a ≤ b ∧ b < a + bs.length
  · have : b - a < bs.length := by omega
    simp [hb, List.getElem?_eq_getElem this]
  · simp [hb]

/-- A read of the run that was written gives what was written. -/
theorem readBytes_writeBytes (s : State) (a : Nat) (bs : List Byte) : readBytes (writeBytes a bs s) a bs.length = bs := by
  apply List.ext_getElem
  · simp [readBytes]
  · intro i h1 h2
    have h : i < bs.length := h2
    simp [readBytes, readByte_writeBytes, h]

/-! ### The canonical form -/

theorem writeCell_mem_le {m : List Host.Cell} {a b : Nat} {v : Byte} (hb : b < a) (h : ∀ c ∈ m, b < c.1) :
    ∀ c ∈ writeCell m a v, b < c.1 := by
  induction m with
  | nil => intro c hc; simp [writeCell] at hc; simp [hc, hb]
  | cons d m ih =>
    intro c hc
    unfold writeCell at hc
    split at hc
    · rcases List.mem_cons.1 hc with rfl | hc
      · exact hb
      · exact h c hc
    · split at hc
      · rcases List.mem_cons.1 hc with rfl | hc
        · exact hb
        · exact h c (List.mem_cons_of_mem _ hc)
      · rcases List.mem_cons.1 hc with rfl | hc
        · exact h _ List.mem_cons_self
        · exact ih (fun c hc => h c (List.mem_cons_of_mem _ hc)) c hc

theorem wf_writeCell {m : List Host.Cell} (h : Memory.wf m) (a : Nat) (v : Byte) : Memory.wf (writeCell m a v) := by
  induction m with
  | nil => simp [writeCell, Memory.wf]
  | cons c m ih =>
    have hc := List.pairwise_cons.1 h
    unfold writeCell
    by_cases h1 : a < c.1
    · rw [if_pos h1]
      refine List.pairwise_cons.2 ⟨?_, h⟩
      intro d hd
      rcases List.mem_cons.1 hd with rfl | hd
      · exact h1
      · exact Nat.lt_trans h1 (hc.1 d hd)
    · rw [if_neg h1]
      by_cases h2 : a = c.1
      · rw [if_pos h2]
        refine List.pairwise_cons.2 ⟨?_, hc.2⟩
        intro d hd
        simpa [h2] using hc.1 d hd
      · rw [if_neg h2]
        exact List.pairwise_cons.2 ⟨writeCell_mem_le (by omega) hc.1, ih hc.2⟩

theorem wf_writeCells (bs : List Byte) : ∀ {m : List Host.Cell}, Memory.wf m → ∀ a, Memory.wf (writeCells m a bs) := by
  induction bs with
  | nil => intro m h a; exact h
  | cons b bs ih => intro m h a; exact ih (wf_writeCell h a b) (a + 1)

theorem wf_dropCells {m : List Host.Cell} (h : Memory.wf m) (lo hi : Nat) : Memory.wf (dropCells m lo hi) := List.Pairwise.filter _ h

/-- Writing bytes keeps the canonical form. -/
theorem wf_writeBytes {s : State} (h : Memory.wf s.hbm.mem) (a : Nat) (bs : List Byte) : Memory.wf (writeBytes a bs s).hbm.mem :=
  wf_writeCells bs h a

/-- The reset memory lists nothing. -/
theorem wf_reset : Memory.wf State.reset.hbm.mem := by decide

end Sys2Proof.Machine
end

