-- ==== Sys2Proof/Tests/Slice0.lean ====
section
/-!
SUPPORT. Tests: ill-formed commands are refused by the well-formedness check, small meanings with results taken from the manual, and for
every statement with hypotheses a state and operands that meet them.
-/
namespace Sys2Proof.Tests
open Sys2Proof Sys2Proof.Machine

-- One test at a time: many kernel evaluations at once would need more memory than a check has.
set_option Elab.async false

/-! ### Small states -/

/-- A queue pair that is enabled, of 64 entries. -/
def tQp : QueuePair := { QueuePair.reset with ctrl := { RingCtrl.reset with enable := true }, status := { RingStatus.reset with idle := false } }

/-- A part that is ready: clocks locked, link up, BAR0 readable, memory ready, decoder 0 at 2^40, queue pair 0 enabled, address 1. -/
def tOn : State :=
  { State.reset with
    aon := { AlwaysOn.reset with errorN := true, resetN := true, collector := true }
    sys := { Sys.reset with phase := .ready, memReady := true, componentsLoaded := true }
    clk := { Clocks.reset with core := .locked, datapath := .locked, tide := .locked, cxlPhy := .locked,
                               hbm := (List.range 8).map (fun k => (k, .locked)), serdes := [(0, .locked)] }
    host := { HostIf.reset with linkUp := true, width := 16, bar0 := true, hdmBase := some (2 ^ 40), qps := [(0, tQp)] }
    hbm := { State.reset.hbm with stk := (List.range 8).map (fun k => (k, { Stack.reset with init := true })) }
    tide := { TideUnit.reset with count := 1000000, locked := true }
    net := { Net.reset with ownAddr := some 1, released := true } }

/-- A part in start-up with its components loaded. -/
def tStart : State := { tOn with sys := { Sys.reset with phase := .startup, componentsLoaded := true } }

/-- The state with one slip. -/
def tSlip (n : Nat) (p : Slip) (s : State) : State := { s with slips := tabPut s.slips n p }

/-- A command over queue pair 0 with its descriptor and result space. -/
def tX (opcode job : Nat) (params d : List Byte) (need : Nat) : Exec :=
  { src := .ring 0
    cmd := { opcode := opcode, tag := 7, flags := 0, job := job, rsvd6 := 0, descLen := d.length, resultLen := need, descAddr := 0,
             resultAddr := 0, params := fit 32 params }
    desc := some d
    resultOk := true
    entryOk := true }

/-- Accepts, as a check. -/
def accepted (x : Exec) (row : State → Row) (s : State) : Bool :=
  match admitCmd x (row s).opcode s with
  | some (r, s') => !r.orphan && (verdict s' x (row s')).isNone
  | none => false

theorem accepts_of {x : Exec} {row : State → Row} {s : State} (h : accepted x row s = true) : Accepts x row s := by
  unfold accepted at h
  split at h
  · rename_i r s' e
    simp only [Bool.and_eq_true, Bool.not_eq_true', Option.isNone_iff_eq_none] at h
    exact ⟨r, s', e, h.1, h.2⟩
  · cases h

/-- Rejects, as a check. -/
def rejected (x : Exec) (row : State → Row) (f : Failed) (s : State) : Bool :=
  match admitCmd x (row s).opcode s with
  | some (r, s') => !r.orphan && verdict s' x (row s') == some f
  | none => false

theorem rejects_of {x : Exec} {row : State → Row} {f : Failed} {s : State} (h : rejected x row f s = true) : Rejects x row f s := by
  unfold rejected at h
  split at h
  · rename_i r s' e
    simp only [Bool.and_eq_true, Bool.not_eq_true', beq_iff_eq] at h
    exact ⟨r, s', e, h.1, h.2⟩
  · cases h

/-- The state without a packet that its taker takes, as `Arrives` has it. -/
def tTaken (a : Arrival) (s : State) : Option State :=
  takeNext a (if (getLanding s (homeLanding a.hawser)).rx.contains a = true then s else handUp a s)

theorem arrives_of {a : Arrival} {s : State} {f : State → Bool} (h : (tTaken a s).any f = true) : ∃ s', Arrives a s s' ∧ f s' = true := by
  cases e : tTaken a s with
  | none => simp [e] at h
  | some s' => exact ⟨s', e, by simpa [e] using h⟩

/-! ### The well-formedness check refuses ill-formed commands -/

def tHdr : Header :=
  { cls := 2, rte := 0, phase := 0, lane := 0, epoch := 0, last := false, ord := false, dstForm := 0, job := 3, dst := 1, src := 2,
    srcRank := 0, hops := 0, seq := 0, xmit := 0, xland := 0, xing := false, ingress := 2, egress := 1, egressLanding := 0,
    notifyDst := false, notifySrc := false, inc := 0, tag := 0 }

def tLong : LongHdr :=
  { units := 1, tail := 0, ctx := 0, opNum := 0, pkt := 0, chunk := 0, cond := 0, fmt := 0, part := 0, nodeFan := 0, addr := 0, step := 0,
    aux := 0 }

def tPacket (b : Body) : Packet := { hdr := tHdr, body := b, rsvd := false, lengthOk := true }
def tArrival (b : Body) : Arrival := { slip := 0, hawser := 0, pkt := tPacket b }

theorem test_wf_header : (Instr.xack (tArrival (.xack 0 0))).wf = true ∧
    (Instr.xack { tArrival (.xack 0 0) with pkt := { tPacket (.xack 0 0) with hdr := { tHdr with cls := 8 } } }).wf = false := by
  decide +kernel
theorem test_wf_long_header : (Instr.contrib (tArrival (.long 0x41 tLong (zeros 64)))).wf = true ∧
    (Instr.contrib (tArrival (.long 0x41 { tLong with fmt := 16 } (zeros 64)))).wf = false := by decide +kernel
theorem test_wf_payload : (Instr.contrib (tArrival (.long 0x41 tLong (zeros 63)))).wf = false := by decide +kernel
theorem test_wf_unknown : (Instr.unknownPacket (tArrival (.unknown 0x30 (zeros 39)))).wf = false := by decide +kernel
theorem test_wf_arrival : (Instr.xack { tArrival (.xack 0 0) with slip := 384 }).wf = false := by decide +kernel
theorem test_wf_command : (Instr.nop (tX 0x0101 0 [] [] 0)).wf = true ∧ (Instr.nop (tX 0x0101 256 [] [] 0)).wf = false := by
  decide +kernel
theorem test_wf_exec : (Instr.nop { tX 0x0101 0 [] [] 0 with src := .ring 16 }).wf = false ∧
    (Instr.nop { tX 0x0101 0 [] [] 0 with desc := some (zeros 1) }).wf = false := by decide +kernel
theorem test_wf_ring : (Instr.ringIdle (.qp 16)).wf = false ∧ (Instr.sqTailDoorbell 16 0).wf = false := by decide +kernel
theorem test_wf_unit : (Instr.unitHeartbeatTimeout (.sha3 192)).wf = false ∧ (Instr.engineLost 48 true).wf = false := by decide +kernel
theorem test_wf_line : (Instr.cxlMemWrite 0 (zeros 63)).wf = false := by decide +kernel
theorem test_wf_samples : (Instr.monitorSample [] 0 0).wf = false ∧ (Instr.voltageWindowTimeout 32).wf = false ∧
    (Instr.thermalTrip 64).wf = false := by decide +kernel
theorem test_wf_lanes : (Instr.trainingFrame 0 { lane := 0, levels := [] }).wf = false ∧ (Instr.lightLoss 384).wf = false ∧
    (Instr.alignmentMarker 0 (List.replicate 64 4) (List.replicate 64 0) 0).wf = false ∧
    (Instr.patternSymbolReceive 0 2 []).wf = false := by decide +kernel
theorem test_wf_numbers : (Instr.jobLaunch 256).wf = false ∧ (Instr.creditSend 4096 0).wf = false ∧ (Instr.recordWriteDone 4096 0 0).wf = false ∧
    (Instr.originSend 8).wf = false ∧ (Instr.crossingSend 0 0 8 0).wf = false ∧ (Instr.opticsAlarm 0 16 true).wf = false := by
  decide +kernel
/-- A service frame of a TYPE from the client at MAC 1, with a payload of so many bytes. -/
def tFrame (ftype len : Nat) : FrameHdr :=
  { dst := ownMac, src := 1, etherType := 0x88B5, version := 1, ftype := ftype, seq := 0, len := len }

theorem test_wf_service : (Instr.discover { tFrame 0 0 with dst := 0, src := 2 ^ 48 }).wf = false ∧
    (Instr.serviceCommand (2 ^ 48) 1 (tFrame 1 64).toServiceHdr (zeros 64)).wf = false := by decide +kernel
theorem test_wf_fetch : (Instr.commandFetch 16 none).wf = false ∧ (Instr.commandFetch 0 (some (zeros 63))).wf = false := by decide +kernel

/-! ### Witnesses: power-on, reset, start-up -/

theorem witness_step_runs_front_command : { tOn with pending := [.tideLowRead, .resetAssert] }.pending = .tideLowRead :: [.resetAssert] := rfl

theorem witness_error_pin : PinAgrees tOn ∧ ∃ t, step { tOn with pending := [.tideLowRead] } = .next t :=
  ⟨by unfold PinAgrees; decide +kernel, _, rfl⟩

/-- The ready part at a stage of its power-on, with so many rails in their windows. -/
def tStage (stage : PowerStage) (rails : Nat) (resetN : Bool) : State :=
  { tOn with aon := { tOn.aon with stage := stage, railsUp := rails, resetN := resetN, pwrgood := decide (stage = .railsOn) } }

theorem witness_power_on_and_loss :
    (tStage .off 0 true).aon.stage = .off ∧ (tStage .inputOn 0 true).aon.stage = .inputOn ∧
    ((tStage .busOn 6 true).aon.stage = .busOn ∧ (tStage .busOn 6 true).aon.railsUp < 7) ∧
    ((tStage .busOn 7 false).aon.stage = .busOn ∧ 7 ≤ (tStage .busOn 7 false).aon.railsUp ∧ (tStage .busOn 7 false).aon.resetN = false) ∧
    ((tStage .busOn 7 true).aon.stage = .busOn ∧ 7 ≤ (tStage .busOn 7 true).aon.railsUp ∧ (tStage .busOn 7 true).aon.resetN = true) ∧
    tOn.aon.stage ≠ .off := by decide +kernel

/-- The ready part with a DEV_RESET due. -/
def tDue : State := { tOn with sys := { tOn.sys with devResetAt := some 1000000 } }

theorem witness_reset_events : tOn.aon.stage = .railsOn ∧ (State.reset.aon.resetN = false ∧ State.reset.aon.pwrgood = true) ∧
    ((tStage .busOn 7 false).aon.resetN = false ∧ (tStage .busOn 7 false).aon.pwrgood = false ∧ (tStage .busOn 7 false).aon.stage ≠ .off) ∧
    (tDue.sys.devResetAt = some 1000000 ∧ tideReached 1000000 (now tDue) = true) := by decide +kernel

/-- Every loop in one state. -/
def tLoops (l : LoopState) (s : State) : State :=
  { s with clk := { s.clk with core := l, datapath := l, tide := l, cxlPhy := l, hbm := [(7, l)], serdes := [(47, l)] } }

/-- The part as RESET_RELEASE leaves it. -/
def tBoot : State := tLoops .starting { State.reset with sys := { Sys.reset with phase := .loopsStarting } }

theorem witness_loops_lock :
    ((tLoops .starting tOn).clk.core = .starting ∧ (tLoops .starting tOn).sys.phase ≠ .loopsStarting) ∧
    (tBoot.clk.core = .starting ∧ tBoot.sys.phase = .loopsStarting) ∧ tBoot.clk.datapath = .starting ∧ tBoot.clk.tide = .starting ∧
    tBoot.clk.cxlPhy = .starting ∧ tabGet tBoot.clk.hbm 7 .stopped = .starting ∧ tabGet tBoot.clk.serdes 47 .stopped = .starting ∧
    tOn.clk.core = .locked ∧ tOn.clk.datapath = .locked ∧ tOn.clk.tide = .locked ∧ tOn.clk.cxlPhy = .locked ∧
    tabGet (tLoops .locked tOn).clk.hbm 7 .stopped = .locked ∧ tabGet (tLoops .locked tOn).clk.serdes 47 .stopped = .locked := by
  decide +kernel

theorem witness_startup_tasks : tStart.sys.phase = .startup ∧
    (starting tStart = true ∧ UnitRef.sha3 191 ∉ tStart.sys.selfTested ∧ unitExists (.sha3 191) = true ∧ unitClocked tStart (.sha3 191) = true) ∧
    (tStart.sys.memReady = false ∧ tStart.aon.tripped = false ∧
      ∀ n < 8, unitLost tStart (.stack n) = false ∧ unitClocked tStart (.stack n) = true) := by decide +kernel

/-- A part in start-up with its self-tests ended. -/
def tTested : State := { tStart with sys := { tStart.sys with selfTested := testedUnits } }

theorem witness_optics_calibration : starting tTested = true ∧ selfTestsDone tTested = true ∧ tTested.aon.tripped = false ∧
    (47 ∉ tTested.sys.calibrated ∧ 47 < 48) := by decide +kernel

/-- A part whose start-up tasks are done. -/
def tDone : State :=
  { tStart with sys := { tStart.sys with memReady := true, selfTested := testedUnits, calibrated := List.range 48 } }

/-- A part in start-up on a trial boot, or on the second try of a boot. -/
def tTrial (trial retried : Bool) : State :=
  { tStart with aon := { tStart.aon with boot := { tStart.aon.boot with trial := trial, retried := retried } } }

theorem witness_health_check : startupDone tDone = true ∧
    (tStart.sys.phase = .startup ∧ tStart.aon.tripped = false ∧ tStart.aon.boot.trial = false ∧ tStart.aon.boot.retried = false) ∧
    ((tTrial true false).sys.phase = .startup ∧ (tTrial true false).aon.boot.trial = true ∧ (tTrial false true).aon.boot.retried = true ∧
      (tTrial true false).aon.boot.slot < 2) ∧ (∀ y, (tTrial true false).aon.transfer = some y → y.slot ≠ 0) :=
  ⟨by decide +kernel, by decide +kernel, by decide +kernel, fun _ h => nomatch h⟩

/-! ### Witnesses: host link, memory, BAR0, rings -/

theorem witness_host_link : (linkPowered tOn = true ∧ 2 ≤ 2 ∧ 16 ∈ [4, 8, 16]) ∧ linkPowered State.reset = false ∧ 2 < 3 ∧ 12 ∉ [4, 8, 16] ∧
    tOn.host.linkUp = true ∧ State.reset.host.linkUp = false ∧
    ({ tOn.host with bar0 := false }.linkUp = true ∧ { tOn.host with bar0 := false }.bar0 = false) ∧
    (tOn.host.bar0 = true ∧ bit 0x8000 15 = true) := by decide +kernel

/-- A part with a lost stack 7. -/
def tLost : State := { tOn with units := [(.stack 7, 2)] }

theorem witness_cxl_memory :
    (tOn.host.hdmBase = some (2 ^ 40) ∧ 2 ^ 40 ≤ 2 ^ 40 + areaSize - 64 ∧ 2 ^ 40 + areaSize - 64 < 2 ^ 40 + areaSize ∧
      (zeros 64).length = 64 ∧ tOn.sys.memReady = true ∧ unitLost tOn (.stack (stackOf (areaSize - 64))) = false ∧
      tOn.host.linkUp = true ∧ tOn.host.linkMode ≠ 2 ∧ tabGet? tOn.clk.hbm (stackOf (areaSize - 64)) = some .locked) ∧
    (tStart.sys.memReady = false ∧ tStart.host.hdmBase = some (2 ^ 40)) ∧ unitLost tLost (.stack (stackOf (areaSize - 64))) = true ∧
    tabGet? (tLoops .starting tOn).clk.hbm (stackOf (areaSize - 64)) ≠ some .locked ∧
    (2 ^ 40 - 1 < 2 ^ 40 ∧ 2 ^ 40 + areaSize ≤ 2 ^ 40 + areaSize) ∧ State.reset.host.linkUp = false ∧
    { tOn.host with linkMode := 2 }.linkMode = 2 := by decide +kernel

theorem witness_bar0_accesses : accessOk 0x3C 8 = false ∧ accessOk 0x0020 4 = true ∧
    { tOn.host with tideLatch := some 0xFFFFFFFF }.tideLatch = some 0xFFFFFFFF ∧ (255 < 256 ∧ tOn.host.msixPending = 0) := by decide +kernel

/-- Control value: ENABLE, 64 entries in both rings, vector 63. -/
def tCtrl : Nat := 1 + 6 * 2 ^ 3 + 6 * 2 ^ 8 + 63 * 2 ^ 13

theorem witness_ring_control : 15 < 16 ∧
    ((getQp tOn 15).ctrl.enable = false ∧ (getQp tOn 15).status.idle = true ∧ 0x1000 % 4096 = 0 ∧ 8 % 8 = 0) ∧
    (tOn.host.ev.ctrl.enable = false ∧ tOn.host.ev.status.idle = true) ∧ (getQp tOn 0).ctrl.enable = true ∧
    (ctrlRsvd (.qp 15) tCtrl = false ∧ sizesOk (.qp 15) tCtrl = true ∧ running tOn = true ∧ bit tCtrl 0 = true) ∧
    (ctrlRsvd (.qp 0) (tCtrl - 1) = false ∧ sizesOk (.qp 0) (tCtrl - 1) = true ∧ bits (tCtrl - 1) 7 3 = (getQp tOn 0).ctrl.log2 ∧
      bits (tCtrl - 1) 12 8 = (getQp tOn 0).ctrl.cqLog2 ∧ bit (tCtrl - 1) 0 = false) ∧ inFlight tOn (.qp 15) = false := by decide +kernel

theorem witness_status_w1c : ringNamed (.qp 15) = true ∧ ringNamed .ev = true ∧ ringNamed .aud = true := by decide +kernel

/-- Indices at the edge of 2^32. -/
def tWrap : State :=
  { tOn with host := { tOn.host with
    qps := [(15, { tQp with sqHead := 0xFFFFFFFF, sqTail := 0xFFFFFFFF, cqHead := 0xFFFFFFFF, cqTail := 1 })]
    ev := { RingPort.reset with head := 0xFFFFFFFF, tail := 1 }
    aud := { RingPort.reset with head := 0xFFFFFFFF, tail := 1 } } }

theorem witness_doorbells :
    let p := getQp tWrap 15
    (((63 : Index) - p.sqTail).toNat ≤ 2 ^ p.ctrl.log2 - (p.sqTail - p.sqHead).toNat) ∧
    (2 ^ p.ctrl.log2 - (p.sqTail - p.sqHead).toNat < ((64 : Index) - p.sqTail).toNat) ∧
    (((1 : Index) - p.cqHead).toNat ≤ (p.cqTail - p.cqHead).toNat) ∧ ((p.cqTail - p.cqHead).toNat < ((2 : Index) - p.cqHead).toNat) ∧
    (((1 : Index) - tWrap.host.ev.head).toNat ≤ (tWrap.host.ev.tail - tWrap.host.ev.head).toNat) ∧
    ((tWrap.host.ev.tail - tWrap.host.ev.head).toNat < ((2 : Index) - tWrap.host.ev.head).toNat) ∧
    (((1 : Index) - tWrap.host.aud.head).toNat ≤ (tWrap.host.aud.tail - tWrap.host.aud.head).toNat) ∧
    ((tWrap.host.aud.tail - tWrap.host.aud.head).toNat < ((2 : Index) - tWrap.host.aud.head).toNat) := by decide +kernel

/-- A queue pair with one command fetched and one to fetch. -/
def tQueued (opcode : Nat) : State :=
  { tOn with host := { tOn.host with qps := [(0, { tQp with sqTail := 2, sqHead := 1, fetched := [(tX opcode 0 [] [] 0).cmd] })] } }

/-- A NOP entry of a submission queue, with a tag. -/
def tEntry (tag : Nat) : List Byte := le 2 0x0101 ++ le 2 tag ++ zeros 60

theorem witness_command_fetch : canFetch (tQueued 0x0101) 0 = true ∧ tagInUse (tQueued 0x0101) 0 (parseCmd (tEntry 8)).tag = false ∧
    tagInUse (tQueued 0x0101) 0 (parseCmd (tEntry 7)).tag = true ∧ (tQueued 0x0101).host.evQueue.length < 4096 := by decide +kernel

theorem witness_command_dispatch :
    ((getQp (tQueued 0x0101) 0).fetched = [(tX 0x0101 0 [] [] 0).cmd] ∧ mayDispatch (tQueued 0x0101) 0 (tX 0x0101 0 [] [] 0) = true ∧
      opcodeAssigned 0x0101 = true ∧ coresUp (tQueued 0x0101) ≠ []) ∧
    ((getQp (tQueued 0x0106) 0).fetched = [(tX 0x0106 0 [] [] 0).cmd] ∧ mayDispatch (tQueued 0x0106) 0 (tX 0x0106 0 [] [] 0) = true ∧
      opcodeAssigned 0x0106 = false) := by decide +kernel

def tEvent : Event := { code := 0x20, job := none, seq := 5, tide := 9, params := zeros 32 }

/-- A queue pair with an unsignalled completion, vector 5 open or masked; an event that waits, and room in the event ring. -/
def tIrq (masked : Bool) : State :=
  { tOn with host := { tOn.host with
    qps := [(0, { tQp with ctrl := { tQp.ctrl with irqEn := true, coalTime := 1, coalCount := 4, vector := 5 }, unsignalled := 1 })]
    msix := [(23, b2n masked)]
    cfg := { tOn.host.cfg with msixEnable := true }
    ev := { RingPort.reset with ctrl := { RingCtrl.reset with enable := true } }
    evQueue := [tEvent] } }

theorem witness_interrupts_and_events :
    (coalDue (getQp (tIrq true) 0).ctrl (getQp (tIrq true) 0).unsignalled (getQp (tIrq true) 0).firstUnsignalled (now (tIrq true)) = true ∧
      vectorMasked (tIrq true).host 5 = true ∧ 5 < 64) ∧ vectorMasked (tIrq false).host 5 = false ∧
    ((tIrq false).host.evQueue = [tEvent] ∧ evRoom (tIrq false) = true ∧ (tIrq false).host.evLost = 0) := by decide +kernel

/-! ### Witnesses: device, job, crossing, route and switch commands -/

/-- n bytes with little-endian fields (offset, size, value) and zeros elsewhere. -/
def tB (n : Nat) (fs : List (Nat × Nat × Nat)) : List Byte :=
  (List.range n).map (fun i =>
    (fs.findSome? (fun f => if f.1 ≤ i && i < f.1 + f.2.1 then some (BitVec.ofNat 8 (f.2.2 / 256 ^ (i - f.1))) else none)).getD 0)

/-- Job 3 with ranks 0 and 1: endpoints 10 and 11, members at hawsers 0 and 1 of this F384. -/
def tJob : State :=
  { tOn with
    jobs := [(3, { Job.created with rankCount := 2 })]
    net := { tOn.net with
      ranks := [(0, 0x8000000A#32), (1, 0x8000000B#32)]
      endpoints := [(10, 0x80000001#32), (11, 0x80010001#32)] } }

/-- tJob in a launch state. -/
def tLaunch (l : LaunchState) : State := { tJob with jobs := tabMod tJob.jobs 3 (fun j => { j with launch := l, l := 1000000 }) }

def tBudget (scope hawser v job : Nat) : Exec := tX 0x0103 job (tB 32 [(0, 1, scope), (2, 2, hawser), (4, 4, v)]) [] 0

theorem witness_device_commands :
    accepted (tX 0x0100 0 [] [] 128) (rowDevInfo (tX 0x0100 0 [] [] 128)) tOn = true ∧
    accepted (tX 0x0101 0 (tB 32 [(0, 8, 2 ^ 64 - 1)]) [] 0) (rowNop (tX 0x0101 0 (tB 32 [(0, 8, 2 ^ 64 - 1)]) [] 0)) tOn = true ∧
    accepted (tX 0x0102 0 [] [] 896) (rowMonitorRead (tX 0x0102 0 [] [] 896)) tOn = true ∧
    accepted (tBudget 0 0 1000000000 0) (rowSetLatencyBudget (tBudget 0 0 1000000000 0)) tOn = true ∧
    accepted (tBudget 1 0 0xFFFFFFFF 3) (rowSetLatencyBudget (tBudget 1 0 0xFFFFFFFF 3)) tJob = true ∧
    accepted (tBudget 2 383 0 0) (rowSetLatencyBudget (tBudget 2 383 0 0)) tOn = true ∧
    accepted (tX 0x0104 0 (tB 32 [(0, 2, 400), (2, 2, 85)]) [] 0) (rowThrottleSet (tX 0x0104 0 (tB 32 [(0, 2, 400), (2, 2, 85)]) [] 0)) tOn
      = true ∧
    accepted (tX 0x0105 0 [] [] 0) (rowDevReset (tX 0x0105 0 [] [] 0)) tOn = true ∧
    rejected (tX 0x0105 0 [0x01#8, 0x01#8] [] 0) (rowDevReset (tX 0x0105 0 [0x01#8, 0x01#8] [] 0)) ⟨stBadParam, 0, 0⟩ tOn = true ∧
    rejected (tX 0x0102 0 [] [] 895) (rowMonitorRead (tX 0x0102 0 [] [] 895)) ⟨stRange, 896, 0⟩ tOn = true := by decide +kernel

def tRanks : Exec := tX 0x0202 3 (tB 32 [(4, 4, 2)]) (le 4 0x8000000A ++ le 4 0x8000000B) 0
def tClasses : Exec := tX 0x0203 3 (tB 32 [(0, 1, 1), (1, 1, 7), (2, 1, 2), (3, 1, 0xFE)]) [] 0
def tSlices : Exec := tX 0x0204 3 (tB 32 [(0, 1, 1)]) (List.replicate 48 0xFF) 0
def tMap : Exec := tX 0x0205 3 [] (tB 64 [(0, 1, 3)]) 0

theorem witness_job_commands :
    accepted (tX 0x0200 255 [] [] 0) (rowJobCreate (tX 0x0200 255 [] [] 0)) tOn = true ∧
    accepted (tX 0x0201 3 [] [] 0) (rowJobDestroy (tX 0x0201 3 [] [] 0)) tJob = true ∧
    accepted tRanks (rowJobRanksSet tRanks) tJob = true ∧ accepted tClasses (rowJobClassSet tClasses) tJob = true ∧
    accepted tSlices (rowJobSliceSet tSlices) tJob = true ∧ accepted tMap (rowPhaseMapSet tMap) tJob = true ∧
    accepted (tX 0x0206 3 [] [] 64) (rowJobQuery (tX 0x0206 3 [] [] 64)) tJob = true := by decide +kernel

/-- A crossing from landing 7 to landing 7 of F384 2. -/
def tXing (st : XState) : Crossing :=
  { landing := 7, peer := 2, peerLanding := 7, first := 0, rto := 50000, retryLimit := 32, window := 4096, state := st, retransmits := 0,
    lanes := List.replicate 4 XLane.fresh, downLane := 0 }

def tCrossed (st : XState) : State := { tJob with xings := [tXing st], incs := [((7, 2, 7), 3)] }
def tPeer (opcode need : Nat) : Exec := tX opcode 0 (tB 32 [(0, 1, 7), (1, 1, 7), (2, 2, 2)]) [] need

theorem witness_crossing_commands : accepted (tPeer 0x0300 0) (rowCrossingOpen (tPeer 0x0300 0)) tOn = true ∧
    findXing (tCrossed .opened) 7 2 7 = some (tXing .opened) ∧
    accepted (tPeer 0x0301 0) (rowCrossingClose (tPeer 0x0301 0)) (tCrossed .opened) = true ∧
    accepted (tPeer 0x0302 0) (rowCrossingReset (tPeer 0x0302 0)) (tCrossed .opened) = true ∧
    accepted (tPeer 0x0303 64) (rowCrossingQuery (tPeer 0x0303 64)) (tCrossed .opened) = true := by decide +kernel

def tEndpoints : Exec := tX 0x0400 0 (tB 32 [(0, 4, 65535), (4, 4, 1)]) (le 4 0x817F0001) 0
def tRoutes (attrs : Nat) : Exec :=
  tX 0x0401 0 (tB 32 [(0, 4, 65535), (4, 4, 1), (8, 1, attrs)]) (tB 32 [(0, 2, 0x23FF - 0x80), (2, 2, 0x0200)] ++ zeros (384 * attrs)) 0

theorem witness_route_commands : accepted tEndpoints (rowEndpointSet tEndpoints) tOn = true ∧ idleBank tOn = some 1 ∧
    accepted (tRoutes 0) (rowRouteSet (tRoutes 0)) tOn = true ∧ accepted (tRoutes 1) (rowRouteSet (tRoutes 1)) tOn = true ∧
    accepted (tX 0x0403 0 (tB 32 [(0, 2, 65535), (2, 1, 1)]) [] 40) (rowRouteQuery (tX 0x0403 0 (tB 32 [(0, 2, 65535), (2, 1, 1)]) [] 40)) tOn
      = true ∧
    accepted (tX 0x0404 0 (tB 32 [(0, 2, 0xFFFE)]) [] 0) (rowFabricAddrSet (tX 0x0404 0 (tB 32 [(0, 2, 0xFFFE)]) [] 0)) tOn = true := by
  decide +kernel

def tSwitch (t : Nat) : Exec := tX 0x0402 0 (tB 32 [(8, 8, t)]) [] 0

/-- Bank 1 PENDING for the present count, the command waiting. -/
def tPending : State :=
  { tOn with net := { tOn.net with
    bank1 := Bank.reset .pending, switchAt := some 1000000, switchCmd := some { x := tSwitch 1000000, core := 0, orphan := false } } }

/-- Bank 0 DRAINING for 10 ms. -/
def tDraining : State :=
  { tOn with net := { tOn.net with bank0 := Bank.reset .draining, bank1 := Bank.reset .active }, tide := { tOn.tide with count := 10000000 } }

theorem witness_bank_switch :
    (accepted (tSwitch 0) (rowRouteSwitch (tSwitch 0)) tOn = true ∧ param (tSwitch 0) 8 8 = 0 ∧ tOn.net.bank0.state = .active ∧
      tOn.net.bank1.state = .idle) ∧
    (accepted (tSwitch 1010000) (rowRouteSwitch (tSwitch 1010000)) tOn = true ∧ param (tSwitch 1010000) 8 8 ≠ 0) ∧
    (tPending.net.switchAt = some 1000000 ∧ tideReached 1000000 (now tPending) = true ∧ tPending.net.bank0.state = .active ∧
      tPending.net.bank1.state = .pending ∧ tPending.net.switchCmd = some { x := tSwitch 1000000, core := 0, orphan := false }) ∧
    (tDraining.net.bank0.state = .draining ∧ 10000000 ≤ tideSince tDraining.net.bank0.drainStart (now tDraining)) := by decide +kernel

def tBuffers : Exec :=
  tX 0x0500 0 [] (tB 800 ([(0, 1, 7), (8, 4, 65), (12, 4, 65)] ++ (List.range 7).map (fun i => (16 + 2 * i, 2, 65)) ++ [(34, 2, 65)])) 0
def tQuanta : Exec := tX 0x0501 0 (tB 32 [(0, 2, 383), (4, 2, 65)]) [] 0
def tTolls : Exec := tX 0x0502 0 (tB 32 [(0, 2, 383), (2, 1, 7), (3, 1, 3), (4, 4, 27100), (8, 4, 16777216)]) [] 0
def tLimits : Exec := tX 0x0503 0 [] (tB 40 [(0, 4, 100000), (8, 4, 262144)]) 0
def tGates : Exec := tX 0x0504 0 (tB 32 [(0, 2, 383), (2, 1, 1), (8, 8, 1010000)]) (le 4 0xFF ++ le 4 1) 0

theorem witness_switch_commands : accepted tBuffers (rowBufferSet tBuffers) tOn = true ∧ accepted tQuanta (rowServiceSet tQuanta) tOn = true ∧
    accepted tTolls (rowTollSet tTolls) tOn = true ∧ accepted tLimits (rowSwitchSet tLimits) tOn = true ∧
    accepted tGates (rowTideTableSet tGates) tOn = true := by decide +kernel

def tHawsers : Exec := tX 0x0505 0 ((List.range 16).map (fun i => if i = 0 then le 2 5 else if i = 1 then le 2 4 else le 2 0xFFFF)).flatten [] 0
def tHawserOf : State := { tOn with hawsers := [(4, { slips := [4, 5], txSeq := 9, rxSeq := 9, waiting := [], failover := [] })] }
def tMapSet : Exec := tX 0x0507 0 (tB 32 [(0, 2, 1)]) (tB 16 [(0, 2, 383), (2, 1, 3), (4, 2, 7), (8, 8, 9)]) 0

theorem witness_hawser_commands : accepted tHawsers (rowHawserSet tHawsers) tOn = true ∧
    (tHawserOf.slips = [] ∧ accepted (tX 0x0506 0 (tB 32 [(0, 2, 4)]) [] 0) (rowHawserClear (tX 0x0506 0 (tB 32 [(0, 2, 4)]) [] 0)) tHawserOf
      = true) ∧
    accepted tMapSet (rowNeighbourMapSet tMapSet) tOn = true ∧
    accepted (tX 0x0508 0 (tB 32 [(0, 2, 383), (2, 2, 1)]) [] 144) (rowNeighbourQuery (tX 0x0508 0 (tB 32 [(0, 2, 383), (2, 2, 1)]) [] 144)) tOn
      = true := by decide +kernel

/-- No slip is listed, so none holds an IDENT. -/
theorem witness_hawser_commands_no_ident (n : Nat) : (getSlip tHawserOf n).ex.held = none ∧ (getSlip tOn n).ex.held = none := ⟨rfl, rfl⟩

def tLane (opcode b2 b3 : Nat) : Exec := tX opcode 0 (tB 32 [(0, 2, 383), (2, 1, b2), (3, 1, b3)]) [] 0
def tLanes (opcode clear need : Nat) : Exec := tX opcode 0 (tB 32 [(0, 1, clear), (2, 2, 2)]) (le 2 383 ++ le 2 0) need

/-- A slip in service. -/
def tUp : Slip :=
  { Slip.reset with state := .inService, startState := .inService, step := 10, power := 0, rx := { LaneRx.reset with fecLock := true }, linkCnt := [(0, ⟨5, false⟩)],
                    laneCnt := [(22, ⟨6, true⟩)] }

def tServed : State := tSlip 383 tUp tOn

theorem witness_lane_commands : accepted (tLane 0x050A 1 2) (rowLaneConfig (tLane 0x050A 1 2)) tServed = true ∧
    (accepted (tLane 0x050A 0 0) (rowLaneConfig (tLane 0x050A 0 0)) tServed = true ∧ (getSlip tServed 383).enable = true) ∧
    (accepted (tLane 0x050B 4 2) (rowLaneLoopback (tLane 0x050B 4 2)) tServed = true ∧ param (tLane 0x050B 4 2) 2 1 ≠ 0) ∧
    (accepted (tLane 0x050B 0 0) (rowLaneLoopback (tLane 0x050B 0 0)) tServed = true ∧ param (tLane 0x050B 0 0) 2 1 = 0) ∧
    accepted (tLanes 0x0509 0 128) (rowLinkCountersRead (tLanes 0x0509 0 128)) tServed = true ∧
    accepted (tLanes 0x0509 1 128) (rowLinkCountersRead (tLanes 0x0509 1 128)) tServed = true ∧
    accepted (tLanes 0x050D 0 224) (rowLaneCountersRead (tLanes 0x050D 0 224)) tServed = true ∧
    accepted (tLanes 0x050D 1 224) (rowLaneCountersRead (tLanes 0x050D 1 224)) tServed = true ∧
    accepted (tLanes 0x050C 0 128) (rowLaneStatusRead (tLanes 0x050C 0 128)) tServed = true ∧
    accepted (tX 0x050E 0 (tB 32 [(0, 1, 47), (1, 1, 1)]) [] 160) (rowOpticsRead (tX 0x050E 0 (tB 32 [(0, 1, 47), (1, 1, 1)]) [] 160)) tServed
      = true := by decide +kernel

/-! ### Witnesses: reduction, optimizer, time, audit, fault and security commands -/

/-- Descriptor of context 5 of job 3: role 3, SUM of FP32, members 0 and 1, 4 KiB chunks, a window of 2. -/
def tRDescBytes : List Byte :=
  tB 76 [(0, 2, 5), (2, 1, 3), (3, 1, 3), (10, 2, 2), (14, 1, 1), (16, 2, 1), (20, 4, 2048), (64, 2, 0), (68, 2, 1), (72, 2, 0xFFFF)]

def tRDesc : RDesc := parseRDesc tRDescBytes
def tRctx : Rctx := Rctx.created tJob tRDesc

/-- Descriptor of optimizer context 6 of job 3 on reduction context 5: one segment of 1,024 records at 0. -/
def tODescBytes : List Byte :=
  tB 208 [(32, 4, 0x3F800000), (62, 2, 1), (72, 4, 1), (94, 1, 1), (128, 2, 6), (130, 1, 3), (132, 2, 5), (134, 2, 1),
    (160, 4, 0x3F800000), (184, 8, 1024)]

def tODesc : ODesc := parseODesc tODescBytes
def tOctx : Octx := Octx.created tJob tODesc

/-- Job 3 with reduction context 5. -/
def tReduce (r : Rctx) : State := { tJob with rctxs := [(5, r)] }

/-- Job 3 with reduction context 5 and optimizer context 6. -/
def tBoth (r : Rctx) (o : Octx) : State := { tReduce { r with octx := some 6 } with octxs := [(6, o)] }

def tCtx (opcode ctx need : Nat) : Exec := tX opcode 3 (tB 32 [(0, 2, ctx)]) [] need
def tReform : Exec := tX 0x0603 3 (tB 32 [(0, 2, 5)]) (tB 64 [(0, 1, 3)]) 0
def tCreateR : Exec := tX 0x0600 3 [] tRDescBytes 0
def tCreateO : Exec := tX 0x0700 3 [] tODescBytes 0

theorem witness_reduction_commands : accepted tCreateR (rowRctxCreate tCreateR) tJob = true ∧
    tabGet? (tReduce tRctx).rctxs 5 = some tRctx ∧ accepted (tCtx 0x0601 5 0) (rowRctxDestroy (tCtx 0x0601 5 0)) (tReduce tRctx) = true ∧
    accepted (tCtx 0x0602 5 448) (rowRctxQuery (tCtx 0x0602 5 448)) (tReduce tRctx) = true ∧
    accepted tReform (rowRctxReform tReform) (tReduce tRctx) = true := by decide +kernel

def tFence : Exec := tX 0x0705 3 (tB 32 [(0, 2, 6), (2, 1, 1), (4, 2, 1)]) (tB 32 [(8, 8, 1024)]) 0

theorem witness_optimizer_commands : accepted tCreateO (rowOctxCreate tCreateO) (tReduce tRctx) = true := by decide +kernel
theorem witness_optimizer_commands_on_a_context : accepted (tCtx 0x0701 6 0) (rowOctxDestroy (tCtx 0x0701 6 0)) (tBoth tRctx tOctx) = true ∧
    accepted (tCtx 0x0702 6 264) (rowOctxQuery (tCtx 0x0702 6 264)) (tBoth tRctx tOctx) = true ∧
    accepted tFence (rowReshardFence tFence) (tBoth tRctx tOctx) = true := by decide +kernel

def tStep (opcode step : Nat) : Exec := tX opcode 3 (tB 32 [(0, 2, 6), (8, 8, step)]) [] 0

/-- The context with its one chunk held in both banks, versions 0 and 1, of the open step 2. -/
def tWhole : Octx :=
  { tOctx with s := 1, chunks := [(0, { bank0 := ⟨true, true, 0, zeros 4, 0⟩, bank1 := ⟨true, true, 1, zeros 4, 0⟩, written := false })] }

theorem witness_step_commands : tabGet? (tBoth tRctx tOctx).octxs 6 = some tOctx ∧
    tabGet? (tBoth tRctx tOctx).rctxs tOctx.d.rctx = some { tRctx with octx := some 6 } :=
  ⟨rfl, rfl⟩
theorem witness_step_commands_accepted :
    (accepted (tStep 0x0703 1) (rowStepCommit (tStep 0x0703 1)) (tBoth tRctx tOctx) = true ∧ tOctx.sealedStep = false ∧
      (localChunks tRctx tOctx).any (fun c => !(getChunk tOctx c.1 c.2).written) = true) ∧
    (accepted (tStep 0x0703 1) (rowStepCommit (tStep 0x0703 1)) (tBoth tRctx { tOctx with sealedStep := true }) = true ∧
      tOctx.sentReady = false ∧ tOctx.d.peers = [] ∧ tOctx.fence.isNone = true) ∧
    accepted (tStep 0x0704 1) (rowStepRollback (tStep 0x0704 1)) (tBoth tRctx tWhole) = true ∧
    accepted (tStep 0x0704 0) (rowStepRollback (tStep 0x0704 0)) (tBoth tRctx tWhole) = true := by decide +kernel

theorem witness_largest_step : accepted (tStep 0x0703 1) (rowStepCommit (tStep 0x0703 1)) (tBoth tRctx tOctx) = true ∧
    (admitCmd (tStep 0x0703 (2 ^ 64 - 1)) 0x0703 tJob).any (fun p => !p.1.orphan &&
      !packetBad (tStep 0x0703 (2 ^ 64 - 1)) (rowStepCommit (tStep 0x0703 (2 ^ 64 - 1)) p.2)) = true ∧
    param (tStep 0x0703 (2 ^ 64 - 1)) 8 8 = 2 ^ 64 - 1 := by decide +kernel

def tAt (opcode byte v : Nat) : Exec := tX opcode 3 (tB 32 [(0, 1, byte), (8, 8, v)]) [] 0
def tTopo : Exec := tX 0x0804 3 [] (tB 128 [(0, 1, 3), (2, 2, 1), (64, 2, 1), (66, 2, 5), (68, 1, 3), (69, 1, 1), (70, 2, 1), (86, 2, 2)]) 0

theorem witness_time_commands :
    accepted (tX 0x0800 0 (tB 32 [(0, 1, 255), (1, 1, 1)]) [] 0) (rowTideConfig (tX 0x0800 0 (tB 32 [(0, 1, 255), (1, 1, 1)]) [] 0)) tOn = true ∧
    accepted (tX 0x0801 0 [] [] 64) (rowTideQuery (tX 0x0801 0 [] [] 64)) tOn = true ∧
    accepted (tAt 0x0802 0 1100000) (rowLaunchAt (tAt 0x0802 0 1100000)) tJob = true ∧
    accepted (tAt 0x0802 0 0) (rowLaunchAt (tAt 0x0802 0 0)) { tLaunch .pending with tide := { tOn.tide with count := 999999 } } = true ∧
    accepted (tAt 0x0803 1 (2 ^ 64 - 1)) (rowDeterminismSet (tAt 0x0803 1 (2 ^ 64 - 1))) tJob = true ∧
    accepted tTopo (rowTopologySet tTopo) tJob = true := by decide +kernel

def tRunning (x : Exec) : Running := { x := x, core := 0, orphan := false }
def tQuote : Exec := tX 0x0C00 0 [] [] 4947
def tRecord : SignedRecord := { kind := 0, ctx := 5, step := 4, job := 3, bytes := zeros 128 }

/-- What waits for the engine and for the audit ring of 2^10 units, one unit short of its end. -/
def tSign (items : List SignItem) : State :=
  { tOn with
    audit := { signQueue := items, waiting := [tRecord] }
    host := { tOn.host with aud := { RingPort.reset with ctrl := { RingCtrl.reset with enable := true, log2 := 10 }, head := 1023, tail := 1023 } } }

theorem witness_audit_records :
    ((tSign [.record 0 5 4 3 (zeros 64)]).audit.signQueue = [.record 0 5 4 3 (zeros 64)] ∧ unitLost (tSign []) .mldsa = false) ∧
    ((tSign [.quote (tRunning tQuote) (zeros 320)]).audit.signQueue = [.quote (tRunning tQuote) (zeros 320)] ∧
      (tRunning tQuote).orphan = false) ∧
    (let s := tSign []
     let size := 2 ^ s.host.aud.ctrl.log2
     let units := ceilDiv tRecord.bytes.length 64
     let start := s.host.aud.tail.toNat % size
     let skip := if size - start < units then size - start else 0
     s.audit.waiting = [tRecord] ∧ s.host.linkUp = true ∧ s.host.aud.ctrl.enable = true ∧
       (s.host.aud.tail - s.host.aud.head).toNat + skip + units ≤ size ∧ skip = 1) := by decide +kernel

def tLeaf : Leaf := { opNum := 1, chunk := 0, step := 4, cond := 0, result := zeros 64, state := zeros 64, contrib := zeros 64 }
def tLeaves : Rctx := { tRctx with d := { tRctx.d with role := 1 }, leaves := [tLeaf] }
def tCovered : Rctx := { tLeaves with leaves := [], covered := [{ step := 4, leaves := [tLeaf] }] }
def tSeal : Exec := tX 0x0901 3 (tB 32 [(0, 2, 5), (8, 8, 4)]) [] 0
def tPath : Exec := tX 0x0902 3 (tB 32 [(0, 2, 5), (2, 1, 1), (4, 2, 1), (16, 8, 4)]) [] 24
def tRingSet (log2 : Nat) : Exec := tX 0x0900 0 (tB 32 [(0, 1, log2), (8, 8, 0x1000), (16, 8, 8)]) [] 0

theorem witness_audit_commands : accepted (tRingSet 16) (rowAuditRingSet (tRingSet 16)) tOn = true ∧
    accepted (tRingSet 0) (rowAuditRingSet (tRingSet 0)) tOn = true ∧
    (accepted tSeal (rowAuditSeal tSeal) (tReduce tLeaves) = true ∧ (tabGet? (tReduce tLeaves).rctxs 5).isSome = true) ∧
    accepted tPath (rowAuditPath tPath) (tReduce tCovered) = true := by decide +kernel

/-- A recorded fault: VOLTAGE cause 0, in a state. -/
def tFault (st : Nat) : FaultRecord :=
  { num := 1, cls := 10, level := 1, unit := 0, cause := 0, state := st, escalated := false, repeated := false, merged := false, prior := false,
    origLevel := 1, count := 1, firstTide := 0, detail := 0 }

def tFaulty (st : Nat) : State :=
  settle { tOn with flt := { records := [tFault st, { tFault 2 with num := 0, prior := true }], nextNum := 2, merge := false } }

def tNum (opcode : Nat) : Exec := tX opcode 0 (tB 32 [(0, 4, 1)]) [] 0
def tReadFaults : Exec := tX 0x0A00 0 (tB 32 [(4, 2, 256)]) [] 64
def tPurser (clear : Nat) : Exec := tX 0x0B00 0 (tB 32 [(0, 4, 65535), (4, 4, 1), (8, 1, clear)]) [] 16

theorem witness_fault_commands : (tFaulty 0).host.evLost = 0 ∧ accepted tReadFaults (rowFaultRead tReadFaults) (tFaulty 0) = true ∧
    (accepted (tNum 0x0A01) (rowFaultAck (tNum 0x0A01)) (tFaulty 0) = true ∧ faultNumbered (tFaulty 0) 1 = some (tFault 0)) ∧
    (accepted (tNum 0x0A02) (rowFaultClear (tNum 0x0A02)) (tFaulty 1) = true ∧ faultNumbered (tFaulty 1) 1 = some (tFault 1) ∧
      (tFaulty 1).host.evQueue.length < 4096) ∧
    accepted (tX 0x0A03 0 (tB 32 [(0, 1, 1)]) [] 0) (rowFaultModeSet (tX 0x0A03 0 (tB 32 [(0, 1, 1)]) [] 0)) (tFaulty 2) = true ∧
    (admitCmd (tNum 0x0A04) 0x0A04 tOn).any (fun p => !p.1.orphan) = true ∧
    accepted (tPurser 0) (rowPurserRead (tPurser 0)) tOn = true ∧
    (accepted (tPurser 1) (rowPurserRead (tPurser 1)) tOn = true ∧ bit (param (tPurser 1) 8 1) 0 = true) := by decide +kernel

def tActivate : Exec := { tX 0x0C03 0 (tB 32 [(0, 1, 0)]) [] 0 with src := .service 1 }
def tCert : Exec := tX 0x0C01 0 (tB 32 [(0, 1, 1)]) [] 2
def tAlias : State := { tOn with sys := { tOn.sys with aliasCert := zeros 3 } }

theorem witness_security_commands : accepted tQuote (rowAttest tQuote) tOn = true ∧ accepted tCert (rowCertRead tCert) tAlias = true ∧
    accepted (tX 0x0C02 0 [] [] 128) (rowImageQuery (tX 0x0C02 0 [] [] 128)) tOn = true ∧
    accepted tActivate (rowActivate tActivate) tOn = true := by decide +kernel

/-! ### Witnesses: mailbox, service port, images, SMBus, monitors, units -/

theorem witness_mailbox_commands : mailboxOpen tOn = true ∧ tOn.mbox.timestamp = none ∧
    { tOn.mbox with timestamp := some 5 }.timestamp = some 5 ∧ 1 ≠ 0 := by decide +kernel
theorem witness_mailbox_commands_unreached : mailboxOpen State.reset = false ∧
    Instr.getFwInfo ∈ [Instr.identify, .getTimestamp, .getFwInfo, .mailboxUnsupported 5] := by decide +kernel

/-- The service port with clients, kept completions and commands that wait; 0 to 8 commands running. -/
def tServe (clients : List Nat) (waiting : List Exec) (kept : List KeptCompletion) (n : Nat) : State :=
  { tOn with
    svc := { clients := clients, eventSeq := 0, waiting := waiting, kept := kept }
    host := { tOn.host with running := (List.range n).map (fun i =>
      tRunning { src := .service i, cmd := (tX 0x0101 0 [] [] 0).cmd, desc := some [], resultOk := true, entryOk := true }) } }

def tRecovery : State := { tOn with sys := { tOn.sys with phase := .recovery } }
def tKept (answer : Option (List Byte)) : KeptCompletion := { mac := 1, tag := 7, answer := answer }

theorem witness_frames : frameFor 0 (tFrame 0 0) = true ∧ broadcastDiscover { tFrame 0 0 with dst := 2 ^ 48 - 1 } = true ∧
    (frameFor 0 (tFrame 3 0) = false ∧ broadcastDiscover (tFrame 3 0) = false) ∧ frameAccepted (tFrame 3 0) = false ∧
    frameAccepted (tFrame 1 1401) = false ∧ frameAccepted (tFrame 1 1400) = true ∧ frameFor 1 (tFrame 1 1400) = true ∧
    frameFor 1 (tFrame 2 64) = false ∧ frameFor 5 (tFrame 5 1) = true ∧ frameFor 5 (tFrame 1 64) = false := by
  simp [frameFor, frameAccepted, broadcastDiscover, tFrame]

/-- The command of a frame with one entry and 0 to 1,336 bytes behind it. -/
def tCommand (tag n : Nat) : Exec := frameExec (tFrame 1 (64 + n)) (tEntry tag ++ zeros n)

theorem witness_service_port : portUp tRecovery = true ∧ tRecovery.sys.phase = .recovery ∧
    (portUp (tServe [] [] [] 8) = true ∧ 8 ≤ serviceRunning (tServe [] [] [] 8)) ∧
    (64 ≤ (tEntry 7).length ∧ (tEntry 7 ++ zeros 1336).length ≤ 1400 ∧ (tServe [] [] [tKept none] 7).sys.phase ≠ .recovery ∧
      serviceRunning (tServe [] [] [tKept none] 7) < 8 ∧
      (tServe [] [] [tKept none] 7).svc.kept.find? (fun k => k.mac == 1 && k.tag == (tCommand 7 1336).cmd.tag) = some (tKept none)) ∧
    (tServe [] [] [tKept (some [1])] 7).svc.kept.find? (fun k => k.mac == 1 && k.tag == (tCommand 7 0).cmd.tag) = some (tKept (some [1])) ∧
    ((tServe [] [] [tKept none] 7).svc.kept.find? (fun k => k.mac == 1 && k.tag == (tCommand 8 0).cmd.tag) = none ∧
      opcodeAssigned (tCommand 8 0).cmd.opcode = true ∧ opcodeAssigned 0x0C04 = false ∧
      fenceAllows (runningFor (tServe [] [] [] 7) 1) (tCommand 8 0) = true ∧ (tServe [] [] [] 7).svc.waiting = []) ∧
    (tCommand 7 0 ∈ (tServe [] [tCommand 7 0] [] 6).svc.waiting ∧ (tCommand 7 0).src = (tCommand 8 0).src) ∧
    (1 ∈ (tServe [1] [] [] 0).svc.clients ∧ 1 ∉ (tServe [2, 3, 4] [] [] 0).svc.clients ∧ (tServe [2, 3, 4] [] [] 0).svc.clients.length < 4 ∧
      1 ∉ (tServe [2, 3, 4, 5] [] [] 0).svc.clients ∧ 4 ≤ (tServe [2, 3, 4, 5] [] [] 0).svc.clients.length) := by decide +kernel

/-- A transfer to slot 1 of the shortest image, erasing or receiving. -/
def tTransfer (erasing : Bool) : Transfer := { id := 9, owner := 1, slot := 1, imageLen := 5376, erasing := erasing }
def tImage (value : Nat) (d : List Byte) : ImageFrame :=
  { hdr := tFrame 4 64, slot := 1, transferId := 9, value := value, data := d, malformed := false }
def tReceiving (erasing : Bool) : State := { tOn with aon := { tOn.aon with transfer := some (tTransfer erasing) } }

theorem witness_image_frames (v : Nat) (d : List Byte) : frameFor 4 (tImage v d).hdr = true ∧ (tImage v d).hdr.src = (tTransfer true).owner := by
  simp [frameFor, tFrame, tImage, tTransfer]

theorem witness_image_transfer :
    (portUp tOn = true ∧ (tTransfer true).slot ≤ 1 ∧ (tTransfer true).id ≠ 0 ∧ 5376 ≤ (tTransfer true).imageLen ∧
      (tTransfer true).imageLen ≤ 50331648 ∧ tOn.aon.transfer = none ∧ (tTransfer true).slot ≠ tOn.aon.boot.slot ∧
      (tTransfer true).erasing = true) ∧
    (portUp tRecovery = true ∧ tRecovery.sys.phase = .recovery) ∧ (tReceiving true).aon.transfer = some (tTransfer true) ∧
    (frameTransfer (tImage 5312 (zeros 64)) (tReceiving false) = some (tTransfer false) ∧
      dataFrameOk (tImage 5312 (zeros 64)) (some (tTransfer false)) = true ∧ 5312 + (zeros 64).length ≤ (tTransfer false).imageLen) ∧
    (frameTransfer (tImage 0 []) (tReceiving false) = some (tTransfer false) ∧ (tTransfer false).erasing = false ∧
      closeFrameOk (tImage 0 []) = true) := by decide +kernel

theorem witness_smbus_target : tOn.aon.stage = .railsOn ∧ (tStage .off 0 true).aon.stage = .off ∧
    (tStage .inputOn 0 true).aon.stage = .inputOn := by decide +kernel

/-- Samples of every monitor: each temperature at 60 degrees, sensor 1 silent, sensor 2 out of range; rails at 750 mV. -/
def tSamples : List Sample :=
  [.reading 15000, .noAnswer, .reading 15001] ++ List.replicate 61 (.reading 6000) ++ List.replicate 48 (.reading 750)

/-- A monitor's record: HIGH, TRIP, INVALID and its value. -/
def tMonitor (high trip : Bool) (v : Int) : Monitor :=
  { high := high, low := false, trip := trip, invalid := false, value := v, peak := v, sampled := true, outRun := 0, outRaised := false }

def tMonitored (m : List (Nat × Monitor)) (cool low power : Nat) : State :=
  { tOn with aon := { tOn.aon with monitors := m, coolRun := cool, lowRun := low, inputPower := power } }

theorem witness_monitors :
    tOn.aon.stage ≠ .off ∧ (tSamples[0]? = some (.reading 15000) ∧ (-4000 : Int) ≤ 15000 ∧ (15000 : Int) ≤ 15000) ∧
    tSamples[1]? = some .noAnswer ∧ (tSamples[2]? = some (.reading 15001) ∧ (15000 : Int) < 15001) ∧
    tSamples[64]? = some (.reading 750) ∧ tSamples[95]? = some (.reading 750) ∧ tSamples[96]? = some (.reading 750) ∧
    tSamples[111]? = some (.reading 750) ∧ tSamples.length ≤ 112 ∧
    (let m := { tMonitor true false 900 with outRun := 11 }
     getMonitor (tMonitored [(95, m)] 0 0 0) (64 + 31) = m ∧ 11 ≤ m.outRun ∧ m.outRaised = false ∧ tOn.aon.collector = true) ∧
    (getMonitor tOn 95).outRun < 11 ∧ { tMonitor true false 900 with outRaised := true }.outRaised = true := by decide +kernel

theorem witness_throttling :
    (tOn.clk.tide = .locked ∧ sensorHot (tMonitored [(63, tMonitor true false 9500)] 0 0 0) 63 = true) ∧
    (tOn.pwr.powerCap < (tMonitored [] 0 0 1651).aon.inputPower) ∧
    ((List.range 64).all (fun j => !sensorHot (tMonitored [] 100 1000 1650) j) = true ∧ ¬ tOn.pwr.powerCap < 1650 ∧
      100 ≤ (tMonitored [] 100 1000 1650).aon.coolRun ∧ 1000 ≤ (tMonitored [] 100 1000 1650).aon.lowRun) ∧
    (tMonitored [] 99 1000 1650).aon.coolRun < 100 ∧ (tMonitored [] 100 999 1650).aon.lowRun < 1000 ∧
    (let s := tMonitored [(63, tMonitor true true 10500)] 0 0 0
     (getMonitor s 63).trip = true ∧ (getMonitor s 63).invalid = false ∧ s.aon.tripped = false ∧ s.aon.stage = .railsOn) := by
  decide +kernel

/-- Idle since 8,000 ticks; the deck or a landing waking. -/
def tIdle (u : PowerUnit) (waking : Bool) : State := setPower u { idle := false, waking := waking, lastWork := 992000 } tOn

theorem witness_idle_units :
    (running (tIdle .deck false) = true ∧ powerUnitUp (tIdle .deck false) .deck = true ∧ (powerOf (tIdle .deck false) .deck).idle = false ∧
      dwellMet (tIdle .deck false) .deck = true ∧ fitsBudget (tIdle .deck false) .deck = true) ∧
    (dwellMet (tIdle (.landing 7) false) (.landing 7) = true ∧ fitsBudget (tIdle (.landing 7) false) (.landing 7) = true) ∧
    powerUnitUp tOn (.stack 7) = true ∧ (powerOf (tIdle (.stack 7) true) (.stack 7)).waking = true := by decide +kernel

theorem witness_lost_units :
    (unitWatched tOn (.laneGroup 15) = true ∧ unitExists (.laneGroup 15) = true ∧ unitLost tOn (.laneGroup 15) = false) ∧
    (unitWatched tLost (.stack 7) = true ∧ unitLost tLost (.stack 7) = true) ∧
    (tOn.aon.collector = true ∧ unitLost tOn (.core 15) = false ∧ tRunning tQuote ∈ [tRunning tQuote] ∧ (tRunning tQuote).core = 0 ∧
      (tRunning tQuote).orphan = false) ∧
    unitLost tOn (.sha3 191) = false ∧ (unitWatched tOn (.stack 7) = true ∧ unitLost tOn (.stack 7) = false) ∧
    (unitWatched tOn (.landing 7) = true ∧ unitLost tOn (.landing 7) = false) ∧
    (unitWatched tOn (.engine 47) = true ∧ unitLost tOn (.engine 47) = false) := by decide +kernel

theorem witness_parity_failures : (15 < 16 ∧ unitLost tOn (.laneGroup 15) = false ∧ unitLost tOn (.core 15) = false) ∧
    (findXing (tCrossed .opened) 7 2 7 = some (tXing .opened) ∧ (tXing .opened).state ≠ .down) := by decide +kernel

/-! ### Witnesses: lanes, links, neighbours, power -/

/-- Slip 383 in a step of its bring-up. -/
def tBring (step start : Nat) : Slip := { Slip.reset with step := step, power := 0, stepStart := BitVec.ofNat 64 start }
def tB3 : Slip :=
  { tBring 3 0 with train0 := { Training.reset with frames := 8 }, train1 := { Training.reset with frames := 8 } }
/-- tOn with slip 383 and the loop of its engine locked. -/
def tWith (p : Slip) : State := tSlip 383 p { tOn with clk := { tOn.clk with serdes := [(47, .locked)] } }
/-- A training frame whose 48-symbol pattern is that of a lane position, and one without a pattern. -/
def tPattern (pos : Nat) : TrainRx :=
  { lane := 0, levels := (List.range 176).map (fun i => if i < 48 && (markerPattern pos).testBit i then 3 else 0) }
def tNoPattern : TrainRx := { lane := 0, levels := List.replicate 176 0 }
def tSeen (rx : TrainRx) : Option (Nat × Bool) := readPattern (bitsToNat ((rx.levels.map (fun l => decide (2 ≤ l))).take 48))

theorem witness_lane_bringup :
    (3 ≤ (getSlip (tWith (tBring 3 0)) 383).step ∧ (getSlip (tWith (tBring 6 0)) 383).step ≤ 6 ∧ tSeen (tPattern 1) = some (1, false) ∧
      tSeen tNoPattern = none) ∧
    ((getSlip (tWith (tBring 2 0)) 383).step < 3 ∧ 6 < (getSlip (tWith (tBring 7 0)) 383).step) ∧
    (stepComplete (getSlip (tWith tB3) 383) = true ∧ tabGet? (tWith tB3).clk.serdes (383 / 8) = some .locked) ∧
    stepComplete (tBring 1 0) = true ∧
    (let p := getSlip (tWith { tBring 9 0 with rx := { LaneRx.reset with fecLock := true } }) 383
     p.step = 9 ∧ p.rx.fecLock = true) ∧
    (stepLimit 2 < tideSince (tBring 2 899999).stepStart 1000000 ∧ stepLimit 9 < tideSince (tBring 9 989999).stepStart 1000000) ∧
    (tUp.step = 10 ∧ tUp.power ≤ 1 ∧ { tUp with power := 1 }.power ≤ 1 ∧ 1 < { tUp with power := 2 }.power) := by decide +kernel

/-- A slip that listens: in step 9, or in data mode after so many bad codewords. -/
def tListen (step bad : Nat) : Slip := { tBring step 0 with rx := { LaneRx.reset with fecLock := decide (step = 10), badRun := bad } }
/-- Levels of the two lanes that decode to no codeword: the word whose syndromes 0 to 19 are 0 and 20 is not. -/
def tBadLower : List Nat := [0, 0, 0, 0, 0, 2, 2, 0, 1, 2, 1, 1, 0, 0, 0, 0, 0, 1, 1, 1, 3, 1, 1, 0, 3, 1, 2, 0, 1, 2, 3, 1, 2, 3, 1, 2, 1, 2, 0,
  0, 0, 2, 2, 3, 1, 2, 3, 1, 0, 1, 3, 0, 1, 0, 1]
def tBadUpper : List Nat := [0, 0, 0, 0, 1, 2, 2, 3, 3, 2, 0, 3, 2, 1, 0, 1, 1, 0, 3, 0, 2, 0, 0, 1, 1, 0, 3, 3, 0, 0, 3, 2, 1, 3, 0, 1, 2, 3, 2,
  0, 1, 3, 3, 3, 0, 0, 0, 1, 1, 2, 3, 1, 0, 2, 2]

theorem witness_lane_reception :
    (laneListens (tListen 9 0) = true ∧ readMarker (markerLevels 0 255) = some (0, false, 255) ∧
      readMarker ((markerLevels 1 0).map (fun l => 3 - l)) = some (1, true, 0) ∧ (tListen 9 0).rx.amBad0 < 3) ∧
    laneListens (tBring 6 0) = false ∧ ((tBring 8 0).step ≤ 8 ∧ (tBring 8 0).rx.am0 = none ∧
      { (tListen 7 0).rx with am0 := some 3, am1 := some 4 }.am0 ≠ { (tListen 7 0).rx with am0 := some 3, am1 := some 4 }.am1) ∧
    ((tListen 9 0).step = 9 ∧ (tListen 9 0).rx.amExpected = false) ∧
    ({ tUp with loopback := 4 }.loopback = 4 ∧ { tUp with pattern := 1 }.pattern ≠ 2 ∧ { tUp with pattern := 2 }.pattern = 2) ∧
    ({ tUp with loopback := 3 }.loopback = 3 ∧ tUp.power = 0) ∧ tUp.loopback = 0 := by decide +kernel

theorem witness_lane_reception_uncorrectable :
    laneListens (tListen 10 7) = true ∧ (tListen 10 7).step = 10 ∧ (tListen 10 7).rx.fecLock = true ∧ 7 ≤ (tListen 10 7).rx.badRun ∧
    rsDecode (receivedWord (tListen 10 7).rx tBadLower tBadUpper).1 = none := by decide +kernel

def tIdent : Ident :=
  { role := 0, protoMax := 1, protoMin := 1, arev := 1, widthUp := 1, slip := 383, serial := 7, hawser := 383, width := 1, fabricAddr := 2,
    fwMeasurement := zeros 64, rsvd := false }

/-- A peer slip in service towards F384 2, with its IDENT accepted. -/
def tPeerUp : Slip := { tUp with ex := { Exchange.reset with held := some tIdent, accepted := some tIdent, sentAck := some 0, gotAck := some 0 } }

def tHeld : HeldFrame := { fseq := 5, ftype := 0, unitMap := [], units := [], hseqs := [], pkts := [] }
def tReplay (run : Nat) (nak : Bool) : Slip :=
  { tPeerUp with ltx := { LinkTx.reset with held := [tHeld], replayRun := run, replayFrom := some 5, nakPending := nak, acked := some 4 } }

def tShort : Packet := tPacket (.xack 0 0)
def tRep : Replica := { dest := .hawser 383, pkt := tShort, follow := none }
def tQueuedPkt : Queued :=
  { id := 4, pkt := tShort, reps := [tRep], multicast := false, residueAt := none, chargedSlip := none, originated := true, emit := none,
    named := none }

/-- A packet of class 2 queued at landing 7 towards hawser 383, credits granted. -/
def tSend : State :=
  { tWith { tPeerUp with ltx := { LinkTx.reset with limit := [(2, 100)] } } with
    lands := [(7, { Landing.reset with voq := [tQueuedPkt] })] }
/-- The same packet left over by another slip of the hawser, HSEQ 9. -/
def tLeft : SentPkt := { seq := 9, pkt := tShort, via := none }
/-- Hawser 383 with it in its failover. -/
def tFailover : State :=
  { tSend with hawsers := [(383, { slips := [383], txSeq := 12, rxSeq := 0, waiting := [], failover := [tLeft] })] }

theorem witness_replay_and_packets :
    (getSlip (tWith (tReplay 0 true)) 383).ltx.nakPending = true ∧ (tReplay 0 true).ltx.held ≠ [] ∧
    (tReplay 0 false).ltx.nakPending = false ∧
    ((tReplay 7 false).ltx.held = [tHeld] ∧ 8000 ≤ tideSince (tReplay 7 false).ltx.ackChanged 1000000 ∧
      (tReplay 7 false).ltx.replayFrom = some tHeld.fseq ∧ (tReplay 6 true).state ≠ .down) ∧
    tideSince { (tReplay 7 false).ltx with ackChanged := 992001 }.ackChanged 1000000 < 8000 ∧
    ((getHawser tSend (hawserOf tSend 383)).failover = [] ∧ maySend tSend 383 = true ∧ framesFit tSend 383 tRep.pkt = true ∧ (pickClass tSend 383).1 = some 2 ∧
      classHead tSend 383 2 = some (7, tQueuedPkt, tRep)) ∧
    ((getHawser tFailover (hawserOf tFailover 383)).failover ≠ [] ∧ failoverHead tFailover 383 = some tLeft ∧
      framesFit tFailover 383 tLeft.pkt = true ∧ maySend tFailover 383 = true) ∧
    (let p := { tUp with power := 1, tx := { tUp.tx with data := true } }
     maySend (tWith p) 383 = false ∧ p.tx.data = true ∧ p.power ≤ 1) ∧
    (maySend tOn 383 = false ∧ (getSlip tOn 383).tx.data = false) := by decide +kernel

/-- A slip in IDENTIFY, entered at a tide count. -/
def tIdentify (ex : Exchange) : Slip := { tUp with state := .identify, ex := ex }

theorem witness_neighbour_exchange :
    (let p := getSlip (tWith (tIdentify Exchange.reset)) 383
     p.state = .identify ∧ p.ex.held = none ∧ p.ex.accepted = none ∧ p.ltx.held.length < 256 ∧ 1000000 ≤ tideSince p.ex.since 1000000) ∧
    (getSlip tOn 383).state = .down ∧ tUp.state ≠ .down ∧ { tIdent with rsvd := true }.rsvd = true ∧ tIdent.rsvd = false ∧
    (identResult (tWith (tIdentify Exchange.reset)) 383 tIdent = 0 ∧
      identResult (tWith (tIdentify Exchange.reset)) 383 { tIdent with width := 2 } ≠ 0) ∧
    (tPeerUp.state = .inService ∧ tPeerUp.ex.accepted = some tIdent ∧ tPeerUp.ex.accepted ≠ some { tIdent with serial := 8 }) ∧
    (let ex := { Exchange.reset with held := some tIdent, accepted := some tIdent, sentAck := some 0, reported := some 0 }
     (tIdentify ex).ex.held = some tIdent ∧ widthsAgree (tIdentify ex) tIdent = false) ∧
    (let ex := { Exchange.reset with held := some tIdent, accepted := some tIdent, sentAck := some 0, reported := some 1 }
     (tIdentify ex).state = .identify ∧ (tIdentify ex).ex.accepted = some tIdent ∧ (tIdentify ex).ex.sentAck = some 0 ∧
      widthsAgree (tIdentify ex) tIdent = true) := by decide +kernel

/-- A slip that both ends would put one state deeper. -/
def tIdleLane : Slip := { tUp with lastWork := 999060, rx := { tUp.rx with powerRun := 16, powerReq := 1 },
                                    tx := { tUp.tx with powerRun := 16, powerReq := 2 } }
def tWaking (power start : Nat) (locked : Bool) : Slip :=
  { tUp with power := power, waking := true, wakeStart := BitVec.ofNat 64 start, rx := { LaneRx.reset with fecLock := locked, sawLocked := locked } }

def tAlarm (alarms : BitVec 32) : State := { tWith tUp with optics := [(47, { Engine.reset with alarms := alarms })] }

theorem witness_lane_power_and_optics :
    (let s := tWith tIdleLane
     let p := getSlip s 383
     p.state = .inService ∧ p.waking = false ∧ laneBusy s 383 = false ∧ 16 ≤ p.tx.powerRun ∧ 16 ≤ p.rx.powerRun ∧
       p.power < min p.tx.powerReq p.rx.powerReq ∧ min p.tx.powerReq p.rx.powerReq ≤ laneRequest s 383) ∧
    (1 ≤ { tUp with power := 3 }.power ∧ { tUp with power := 3 }.power ≤ 3 ∧ { tUp with power := 3 }.waking = false) ∧
    (tUp.power = 0 ∧ 3 < (getSlip tOn 383).power ∧ (tWaking 1 999872 false).waking = true) ∧
    ((tWaking 1 999872 false).power = 1 ∧ 128 ≤ tideSince (tWaking 1 999872 false).wakeStart 1000000) ∧
    ((tWaking 3 0 true).power ≠ 1 ∧ (tWaking 3 0 true).rx.fecLock = true ∧ (tWaking 3 0 true).rx.sawLocked = true) ∧
    2 * laneWakeTime (tWaking 2 975999 false).power < tideSince (tWaking 2 975999 false).wakeStart 1000000 ∧
    ((getEngine (tAlarm 0) 47).alarms.getLsbD (alarmBit 15 true) = false ∧ (getEngine (tAlarm 0) 47).state ≠ 2 ∧
      (getSlip (tAlarm 0) (8 * 47 + 15 / 2)).state = .inService) ∧
    (getEngine (tAlarm 0x80000000) 47).alarms.getLsbD (alarmBit 15 true) = true := by decide +kernel

/-! ### Witnesses: the tide, timed changes and crossings -/

/-- An announcement of a master of priority 1, 15 hops away. -/
def tMsg : TideMsg :=
  { kind := 0, priority := 1, hops := 15, ref := false, locked := true, seq := 3, t1Frac := 0, t2Frac := 0, t3Frac := 0, serial := 9, t1 := 1000,
    t2 := 2000, t3 := 3001 }
/-- A follower of the neighbour on slip 383, heard at a count, SYNC_REQ 3 sent. -/
def tTide (locked : Bool) (heard : Nat) : State :=
  { tWith tPeerUp with
    tide := { tOn.tide with parent := some 383, heard := [(383, { msg := tMsg, heard := BitVec.ofNat 64 heard })], locked := locked,
                            sentT1 := some (3, 1000), inWindow := 7, priority := 200 } }

theorem witness_tide_tick : tOn.pending = [] ∧ tOn.clk.tide = .locked ∧ (tLoops .stopped tOn).clk.tide ≠ .locked ∧
    { tOn.tide with count := BitVec.allOnes 64 }.count = BitVec.allOnes 64 ∧ tOn.tide.count ≠ BitVec.allOnes 64 := by decide +kernel

theorem witness_tide_messages :
    ((announcement (tTide true 0)).isSome = true ∧ (tTide true 0).clk.tide = .locked ∧ announcement tOn = none) ∧
    ((getSlip (tTide true 0) 383).state = .inService ∧ tMsg.hops < 16 ∧ tMsg.kind = 0 ∧ 16 ≤ { tMsg with hops := 16 }.hops) ∧
    ((tTide true 0).tide.parent = some 383 ∧ (tTide true 0).tide.master = false) ∧ { tMsg with kind := 1 }.kind = 1 ∧
    ((tTide false 0).tide.sentT1.map Prod.fst = some { tMsg with kind := 2 }.seq ∧ (tTide false 0).tide.locked = false ∧
      512000 < (exchange { tMsg with kind := 2 } 2000 255).1.natAbs) ∧
    (exchange { tMsg with kind := 2, t3 := 3000 } 2000 0).1.natAbs ≤ 512000 ∧
    (tabGet? (tTide true 625000).tide.heard 383 = some { msg := tMsg, heard := 625000 } ∧ 375000 ≤ tideSince 625000 1000000 ∧ arrivalsDue (tTide true 625000) = false) ∧
    (tabGet? (tTide true 625001).tide.heard 383 = some { msg := tMsg, heard := 625001 } ∧ tideSince 625001 1000000 < 375000) := by
  decide +kernel

def tRef (rejected : Bool) (good : Nat) (seen : Bool) : State :=
  { tOn with tide := { tOn.tide with refEnable := true, refRejected := rejected, goodEdges := good, refSeen := seen } }

theorem witness_timing_input : (tRef false 0 true).tide.refEnable = true ∧
    ¬ ((tRef false 0 true).tide.refSeen = false ∨ (999950000 ≤ 1000050001 ∧ 1000050001 ≤ 1000050000)) ∧
    ((tRef false 0 false).tide.refSeen = false ∧ (tRef false 0 false).tide.refRejected = false) ∧
    ((tRef true 8 true).tide.refRejected = true ∧ (tRef true 8 true).tide.goodEdges < 9) ∧ 9 ≤ (tRef true 9 true).tide.goodEdges ∧
    tOn.tide.refEnable = false := by decide +kernel

def tTable (base : Nat) : TideTable := { base := BitVec.ofNat 64 base, entries := [(0xFF, 1)] }
/-- A bank with a route to F384 2 over hawser 383, which leads to a peer. -/
def tBank : Bank :=
  { Bank.reset .active with routes := [(2, [{ hawser := 383, weight := 1, fallback := false }])], attrs := [(383, 0x07#8)] }
/-- The bank of tBank is ACTIVE, and a packet to F384 2 waits at landing 7 for hawser 383, which is out of service. -/
def tStrand : State :=
  { tOn with
    net := { tOn.net with bank0 := tBank, serviceChanged := true }
    lands := [(7, { Landing.reset with voq := [{ tQueuedPkt with pkt := { tShort with hdr := { tHdr with egress := 2 } } }] })] }

theorem witness_timed_changes :
    (tabGet? (tLaunch .pending).jobs 3 = some { Job.created with rankCount := 2, launch := .pending, l := 1000000 } ∧
      tideReached 1000000 (tLaunch .pending).tide.count = true ∧ localMembers (tLaunch .pending) 3 = [(0, 0), (1, 1)] ∧
      (rankAddr (tLaunch .pending) 3 0).isSome = true ∧ arrivalsDue (tLaunch .pending) = false) ∧
    tideReached 1000001 (tLaunch .pending).tide.count = false ∧ (tLaunch .launched).jobs.all (fun j => j.2.launch != .pending) = true ∧
    arrivalsDue { tLaunch .pending with lands := [(7, { Landing.reset with rx := [tArrival (.xack 0 0)] })] } = true ∧
    ((getSlip (tWith { tUp with pendTable := some (tTable 1000000) }) 383).pendTable = some (tTable 1000000) ∧
      tideReached (tTable 1000000).base (gateTide (tWith tUp)) = true ∧ tideReached (tTable 1000001).base (gateTide (tWith tUp)) = false) ∧
    (slipsAtStart tStrand 383 = [] ∧ slipsAtStart (tWith tUp) 383 ≠ [] ∧
      ((getLanding tStrand 7).voq.map (stranded tStrand 383)) = [true]) ∧
    tStrand.net.serviceChanged = true ∧ tOn.net.serviceChanged = false := by decide +kernel

/-- A crossing in a state with lane 0 as given, in a part whose slip 383 leads to F384 2. -/
def tXLane : XLane := { XLane.fresh with nextSeq := 6, copies := [{ seq := 5, pkt := tShort, sentAt := 950000, retries := 0, emit := none }],
                                         cum := 4, ackFrom := some 999500, sinceAck := 3 }
def tXingAt (st : XState) : Crossing := { tXing st with lanes := tXLane :: List.replicate 3 XLane.fresh }
def tXHdr : Header := { tHdr with xing := true, inc := 3, ingress := 2, egress := 1, egressLanding := 7, xland := 7, src := 2 }
/-- A packet from F384 2 that arrives on slip 383. -/
def tIn (hdr : Header) (b : Body) : Arrival :=
  { slip := 383, hawser := 383, pkt := { hdr := hdr, body := b, rsvd := false, lengthOk := true } }
def tXState (st : XState) : State :=
  { tWith tPeerUp with
    jobs := tJob.jobs
    net := { tJob.net with bank0 := tBank }
    xings := [tXingAt st]
    incs := [((7, 2, 7), 3)] }

theorem witness_crossing_messages :
    (let a := tIn tXHdr (.xsync 3 true)
     fromPeer (tXState .syncing) a = true ∧ a.pkt.hdr.egress = ownAddr (tXState .syncing) ∧
      xingOf (tXState .syncing) a.pkt = some (tXingAt .syncing) ∧ getInc (tXState .syncing) 7 2 7 = 3 ∧
      xingOf (tXState .opened) a.pkt = some (tXingAt .opened) ∧ (0 : BitVec 2) ≠ getInc (tXState .opened) 7 2 7 ∧
      xingOf (tXState .down) a.pkt = some (tXingAt .down) ∧ a.pkt.hdr.hops < 2048 ∧
      [XState.syncing, .opened, .down].all (fun st => (tTaken a (tXState st)).isSome) = true) ∧
    (let a := tIn tXHdr (.xack 6 0)
     fromPeer (tXState .opened) a = true ∧ a.pkt.hdr.egress = ownAddr (tXState .opened) ∧
      xingOf (tXState .opened) a.pkt = some (tXingAt .opened) ∧ a.pkt.hdr.inc = getInc (tXState .opened) 7 2 7 ∧
      (tTaken a (tXState .opened)).isSome = true) ∧
    (findXing (tXState .syncing) 7 2 7 = some (tXingAt .syncing) ∧ findXing (tXState .opened) 7 2 7 = some (tXingAt .opened) ∧
      (tXingAt .opened).state ≠ .syncing) ∧
    ((getLane (tXingAt .opened) 0).ackFrom = some 999500 ∧ 500 ≤ tideSince 999500 (tXState .opened).tide.count ∧
      landingAwake (tXState .opened) 7 = true ∧ arrivalsDue (tXState .opened) = false) := by decide +kernel

def tXRep : Replica := { dest := .crossing 2 7 0, pkt := tShort, follow := none }
def tXQueued : Queued := { tQueuedPkt with reps := [tXRep] }
/-- A packet queued for the crossing, and the crossing's source copy sent at a count with a number of retries. -/
def tXSend (st : XState) (retries sentAt : Nat) : State :=
  { tXState st with
    lands := [(7, { Landing.reset with voq := [tXQueued], buf := (getLanding (tXState st) 7).buf })]
    xings := [{ tXing st with lanes := { tXLane with copies := [{ seq := 5, pkt := tShort, sentAt := BitVec.ofNat 64 sentAt, retries := retries,
                                                                  emit := none }] } :: List.replicate 3 XLane.fresh }] }
def tSourced : Sourced := { pkt := tShort, reps := [tRep], multicast := false, emit := none }
def tOrigin : State := { tWith tPeerUp with lands := [(7, { Landing.reset with sources := [{ tSourced with pkt := { tShort with body := .credit 5 1 0 1 0 } }] })] }
def tMcast : State :=
  { tWith tPeerUp with lands := [(7, { Landing.reset with voq := [{ tQueuedPkt with multicast := true, residueAt := some 999999 }] })] }

theorem witness_transport_sends :
    (let s := tXSend .opened 0 950001
     findXing s 7 2 7 = some s.xings.head! ∧ s.xings.head!.state = .opened ∧ 0 < s.xings.head!.lanes.length ∧
      nextForXing s 7 2 7 0 = some (tXQueued, tXRep) ∧ landingAwake s 7 = true ∧ switchDue s = false ∧
      windowOpen s.xings.head! (getLane s.xings.head! 0) 0 = true ∧ copyRoom s 7 (pktUnits tXRep.pkt) = true ∧ tXQueued.originated = true) ∧
    (let s := tXSend .opened 31 600000
     let c : Copy := { seq := 5, pkt := tShort, sentAt := 600000, retries := 31, emit := none }
     findXing s 7 2 7 = some s.xings.head! ∧ arrivalsDue s = false ∧ landingAwake s 7 = true ∧
      (getLane s.xings.head! 0).copies.find? (copyDue s s.xings.head!) = some c ∧ c.retries < s.xings.head!.retryLimit) ∧
    (let s := tXSend .opened 32 600000
     let c : Copy := { seq := 5, pkt := tShort, sentAt := 600000, retries := 32, emit := none }
     (getLane s.xings.head! 0).copies.find? (copyDue s s.xings.head!) = some c ∧ s.xings.head!.retryLimit ≤ c.retries) ∧
    (landingAwake tOrigin 7 = true ∧ switchDue tOrigin = false ∧ arrivalsDue tOrigin = false ∧
      nextSourced tOrigin 7 [] [] (getLanding tOrigin 7).sources = (getLanding tOrigin 7).sources.head? ∧ tSourced.reps ≠ [] ∧
      (∀ y ∈ tSourced.reps, destTakes tOrigin 7 y = true) ∧
      pinnedKind { tShort with body := .credit 5 1 0 1 0 } = false) ∧
    nextSourced tOn 7 [] [] (getLanding tOn 7).sources = none ∧
    ((getLanding tMcast 7).voq.find? (fun y => y.id == 4) = some { tQueuedPkt with multicast := true, residueAt := some 999999 } ∧
      tideReached (999999 + 1) tMcast.tide.count = true) := by decide +kernel

/-! ### Witnesses: packets that arrive, and what the reduction and the optimizer do with time -/

def tKinds : List (Nat × Body) :=
  [(0x40, .long 0x40 tLong (zeros 64)), (0x01, .contribute 5 1 0 1024 0), (0x41, .long 0x41 tLong (zeros 64)), (0x42, .long 0x42 tLong (zeros 64)),
   (0x43, .long 0x43 tLong (zeros 64)), (0x44, .long 0x44 tLong (zeros 64)), (0x45, .long 0x45 tLong (zeros 64)), (0x02, .credit 5 1 0 1 0),
   (0x03, .resend 5 1 0), (0x04, .status 5 1 0 0 0 0 0), (0x0A, .ringStop 5 1), (0x46, .long 0x46 tLong (zeros 64)),
   (0x47, .long 0x47 tLong (zeros 64)), (0x05, .gatherReq 5 1 0 0 0), (0x06, .drawReq 0 1 0 0 0), (0x48, .long 0x48 tLong (zeros 64)),
   (0x49, .long 0x49 tLong (zeros 64)), (0x4A, .long 0x4A tLong (zeros 64)), (0x09, .writeDone 0 5 0 0 0 0 0)]

/-- A packet of every kind, from a member, through a peer, for this F384 outside a crossing, and in a crossing. -/
theorem witness_packets_arrive (k : Nat × Body) (hk : k ∈ tKinds) :
    pktKind (tIn tXHdr k.2).pkt = k.1 ∧ (tTaken (tIn tXHdr k.2) tJob).isSome = true ∧
    (tTaken (tIn tXHdr k.2) (tXState .opened)).isSome = true ∧ fromPeer tJob (tIn tXHdr k.2) = false ∧ fromPeer (tXState .opened) (tIn tXHdr k.2) = true ∧
    { tXHdr with egress := 2 }.egress ≠ ownAddr (tXState .opened) ∧ tXHdr.egress = ownAddr (tXState .opened) ∧
    xingOf (tXState .opened) (tIn tXHdr k.2).pkt = some (tXingAt .opened) ∧ tXHdr.inc = getInc (tXState .opened) 7 2 7 := by
  revert k
  decide +kernel

/-- Hawser 1 leads to F384 2 as well: a packet for it that came on hawser 383 leaves there, even after 2,047 hops. -/
def tThrough : State :=
  { tXState .opened with
    slips := [(383, tPeerUp), (1, tPeerUp)]
    net := { tJob.net with bank0 := { tBank with routes := [(2, [{ hawser := 1, weight := 1, fallback := false }])], attrs := [(383, 0x07#8), (1, 0x07#8)] } } }
def tHop : Arrival := tIn { tXHdr with egress := 2, hops := 2047 } (.credit 5 1 0 1 0)

theorem witness_packets_arrive_through :
    (tTaken tHop tThrough).any (fun s => fromPeer s tHop && pickRoute s (homeLanding tHop.hawser) tHop.pkt (some (hawserOf s tHop.slip)) == some 1) =
      true ∧
    (tTaken (tIn { tXHdr with hops := 2048 } (.credit 5 1 0 1 0)) tThrough).isSome = true ∧
    (tTaken (tIn tXHdr (.unknown 0x30 (zeros 40))) tThrough).isSome = true ∧ fromPeer tThrough tHop = true ∧ tHop.pkt.hdr.egress ≠ ownAddr tThrough ∧
    tHop.pkt.hdr.hops < 2048 ∧ (getBank tThrough tHop.pkt.hdr.rte).state ≠ .idle ∧
    knownKind (pktKind (tIn tXHdr (.unknown 0x30 (zeros 40))).pkt) = false := by decide +kernel

/-- Context 5 with a child, context 5 of F384 2, and operation 1 of one chunk. -/
def tPd : RDesc := { tRDesc with c := 1, children := [(2, 5)], softLag := 100, hardLag := 100 }
def tOp : Operation := { num := 1, f := 0, k := 1024, start := 0, count := 1, announces := [] }
def tOpRctx : Rctx := { Rctx.created tJob tPd with state := .running, ops := [tOp], nextPos := 1 }
def tTakes (d : RDesc) : State := { tXState .opened with rctxs := [(5, { tOpRctx with d := d })] }
def tOut : Header := { tXHdr with xing := false, dst := 1 }
def tPdata : Arrival :=
  tIn tOut (.long 0x45 { tLong with ctx := 5, opNum := 1, fmt := tPd.fmt, units := 41, tail := 64, pkt := 15, cond := 5 } (zeros 2624))
def tForMember : Header := { tOut with dst := 10 }

theorem witness_packets_take_effect :
    (let s := tTakes tPd
     let p := tPdata.pkt
     let lh := longHdr p
     (tTaken tPdata s).isSome = true ∧ p.hdr.hops < 2048 ∧ presentValues (Position.openAt 1000000 1 0) + 1 ≤ 65536 ∧
      fromPeer s tPdata = true ∧ p.hdr.egress = ownAddr s ∧ p.hdr.xing = false ∧ localHawser s p.hdr.dst = none ∧ pktKind p = 0x45 ∧
      tabGet? s.rctxs lh.ctx = some tOpRctx ∧ tOpRctx.state ≠ .stopped ∧ senderSlot tOpRctx .peer p = some 2 ∧ slotEnabled tOpRctx 2 = true ∧
      tPd.role ≠ 4 ∧ knownOp tOpRctx lh.opNum = some tOp ∧ chunkIn tPd tOp lh.chunk = true ∧ tOpRctx.base ≤ positionOf tPd tOp lh.chunk ∧
      positionOf tPd tOp lh.chunk < tOpRctx.base + tOpRctx.w ∧ positionOf tPd tOp lh.chunk ∉ tOpRctx.released ∧
      2 ∉ presentSlots (Position.openAt 1000000 1 0) ∧ formatOk tOpRctx p = true ∧ tOpRctx.octx = none ∧ tPd.stepped = false ∧
      shapeOk tOpRctx tOp lh.chunk (decide (2 < tPd.m)) p = true) ∧
    (let s := tTakes { tPd with t := 1, parents := [(2, 9)] }
     let cr : Credit := { limOp := 1, limChunk := 0, baseOp := 1, baseChunk := 0 }
     s.rctxs.map (fun r => creditResidues r.2.d 2 cr) = [[0]]) ∧
    ((tTakes { tPd with role := 4 }).rctxs.map (fun r => (r.2.d.role, r.2.d.job)) = [(4, tOut.job)]) ∧
    (let s := { tTakes tPd with slips := [(383, tPeerUp), (0, tUp)] }
     let p := (tIn tForMember (.long 0x40 tLong (zeros 64))).pkt
     localHawser s p.hdr.dst = some 0 ∧ slipsUp s 0 ≠ [] ∧ pktKind p = 0x40 ∧ p.hdr.last = false) := by decide +kernel

def tContribution (folded : Bool) : Contribution :=
  { pkts := [(0, zeros 64)], scale := none, desc := none, present := true, folded := folded, step := 0, epoch := 0 }
/-- Chunk 0 of operation 1, open, with the contribution of slot 0. -/
def tPos : Position := { Position.openAt 900000 1 0 with contribs := [(0, tContribution false)], readyAt := some 950000, softFired := true }
def tOn5 (p : Position) (sweep : Option Sweep) : State :=
  { tReduce { tOpRctx with positions := [(0, p)], creditDue := [2], creditSent := [(2, 999744)] } with deck := { Deck.reset with sweep := sweep } }

theorem witness_fold_batches :
    (let s := tOn5 tPos none
     tabGet? s.rctxs 5 = some s.rctxs.head!.2 ∧ tabGet? s.rctxs.head!.2.positions 0 = some tPos ∧
      (nextSweep s).map (fun w => w.sweep) = some (.fold 5 0 [])) ∧
    nextSweep (tOn5 { tPos with sweeping := true } (some (.fold 5 0 [0]))) = none ∧
    allPresent tOpRctx { tPos with sweeping := true } = false := by decide +kernel

theorem witness_window_timers :
    (let p := { tPos with softFired := false, openTide := 900000 }
     p.state = .opened ∧ missingSlots tOpRctx p ≠ [] ∧ lagDue tOn p tPd.softLag = true ∧ lagDue tOn p tPd.hardLag = true ∧ lagDue tOn p 101 = false ∧ tOpRctx.state ≠ .stopped ∧
      arrivalsDue (tOn5 p none) = false) ∧
    (let s := tOn5 tPos none
     (2 ∈ s.rctxs.head!.2.creditDue ∧ creditOpen s s.rctxs.head!.2 2 = true ∧ slotEnabled s.rctxs.head!.2 2 = true) ∧ 1 ∉ s.rctxs.head!.2.creditDue) ∧
    ({ tPos with state := .emitted }.state = .emitted ∧ isRootOf tPd 0 = true ∧ tPos.state ≠ .emitted) := by decide +kernel

/-- Contexts 5 and 6 with one record each in a chunk of one element, its update queued. -/
def tQueuedSweep : ReadySweep := { at_ := 999999, sweep := .update 5 0 }
def tSmallOp : Operation := { num := (segAt tODesc 0).opNum, f := 0, k := 1, start := 0, count := 1, announces := [] }
def tUpdate : State :=
  { tBoth { tOpRctx with ops := [tSmallOp], positions := [(0, { tPos with op := tSmallOp.num, state := .complete, queued := true })] } tOctx with
    deck := { Deck.reset with queue := [tQueuedSweep] } }
def tGatherSweep : ReadySweep := { at_ := 999999, sweep := .gather 9 0 0 1 }
def tWrite : RecordWrite := { octx := 6, seg := 0, chunk := 0, step := 1, addr := 64, bytes := le 8 0x0102030405060708, rctx := 5, pos := 0 }
def tWritten : State := { tUpdate with hbm := { tUpdate.hbm with writes := [tWrite] } }
def tStagedImage : Image :=
  { octx := 6, seg := 0, chunk := 0, bank := 1, version := 1, bytes := zeros 2, scales := [], digest := [], cond := 0, complete := false }
def tStaged : State := { tUpdate with hbm := { tUpdate.hbm with stk := [(0, { Stack.reset with init := true, staging := [tStagedImage] })] } }

theorem witness_optimizer_sweeps :
    (let s := tUpdate
     (nextSweep s).map (fun w => w.sweep) = some (.update 5 0) ∧ s.rctxs.head!.2.octx = some 6 ∧ tabGet? s.octxs 6 = some tOctx ∧
      knownOp s.rctxs.head!.2 tSmallOp.num = some tSmallOp ∧ segmentOf s.rctxs.head!.2 tOctx tSmallOp 0 = some (0, 0)) ∧
    (let s := { tUpdate with deck := { tUpdate.deck with queue := [tGatherSweep] } }
     (nextSweep s).map (fun w => w.sweep) = some (.gather 9 0 0 1) ∧ tabGet? s.octxs 9 = none) ∧
    nextSweep (tOn5 tPos (some (.fold 5 0 [0]))) = none ∧
    (tWritten.hbm.writes.find? (fun w => w.octx == 6 && w.seg == 0 && w.chunk == 0) = some tWrite ∧ tOctx.fence = none) ∧
    (stagedImages tStaged).find? (fun y => y.octx == 6 && y.seg == 0 && y.chunk == 0 && !y.complete) = some tStagedImage := by
  decide +kernel

/-- A commit of context 6 whose deadline is the present count. -/
def tCommitting (sealed : Bool) (peers : List (Nat × Nat)) : Octx :=
  { tOctx with state := .committing, deadline := 1000000, sealedStep := sealed, command := some (tRunning (tStep 0x0703 1)),
               d := { tODesc with peers := peers } }
def tNewFence : Fence := { epoch := 1, segments := tODesc.segments, layers := [], moves := [], chunks := [], images := [], imaged := [] }
def tFenced : Octx := { tOctx with state := .fenced, fence := some tNewFence }

theorem witness_commit_and_fence_end :
    (let o := tCommitting false []
     tabGet? (tBoth tRctx o).octxs 6 = some o ∧ o.state = .committing ∧ tideReached o.deadline (tBoth tRctx o).tide.count = true ∧
      o.sealedStep = false ∧ (tRunning (tStep 0x0703 1)).orphan = false) ∧
    (let o := tCommitting true [(2, 6)]
     tideReached o.deadline (tBoth tRctx o).tide.count = true ∧ o.sealedStep = true ∧ 0 < o.d.peers.length ∧ peerAgrees o (o.s + 1) 0 = false) ∧
    tideReached 1000001 tOn.tide.count = false ∧
    (tFenced.fence = some tNewFence ∧ tFenced.state = .fenced ∧ movesOut (tBoth tRctx tFenced) tNewFence = false ∧
      movesIn tRctx tFenced tNewFence = false ∧ tOctx.fence = none) := by
  decide +kernel

theorem witness_memory_stays_canonical : Memory.wf tWritten.hbm.mem ∧
    ∃ t, step { tWritten with pending := [.recordWriteDone 6 0 0] } = .next t ∧ Memory.wf t.hbm.mem := by
  refine ⟨by decide +kernel, _, rfl, by decide +kernel⟩

theorem witness_ident_round_trip : tIdent.role < 256 ∧ tIdent.protoMax < 256 ∧ tIdent.protoMin < 256 ∧ tIdent.arev < 256 ∧
    tIdent.widthUp < 256 ∧ tIdent.slip < 2 ^ 16 ∧ tIdent.serial < 2 ^ 64 ∧ tIdent.hawser < 2 ^ 16 ∧ tIdent.width < 256 ∧
    tIdent.fabricAddr < 2 ^ 16 ∧ tIdent.fwMeasurement.length = 64 ∧ tIdent.rsvd = false := by decide +kernel

/-! ### Meanings, with results that the manual works out -/

/-- Table 02.7: products 0 to 3 in a dot tally, N = 2^411 with flags 0x0B, the result a NaN with condition word 0x0105. -/
def tDot (ps : List (Nat × Nat)) (fmt sa sb : Nat) : Tally 640 :=
  ps.foldl (fun t p => admitTerm dotWindow t (mulVal false (elemVal fmt p.1 sa) (elemVal fmt p.2 sb))) (Tally.zero 640)
theorem test_dot_overflow_and_nan :
    let t := tDot [(0x3FC00000, 0x40000000), (0x71800000, 0x6C800000), (0x7FC00001, 0x3F800000), (0xBE800000, 0x40800000)] 8 0xA7 0x9D
    t.n = 2 ^ 411 ∧ t.flags = 0x0B ∧ (dotResult t fp32).1 = 0x7FC00000 ∧ (dotResult t fp32).2.word false = 0x0105 := by decide +kernel

/-- Table 02.8, cases 1 to 3. -/
theorem test_scale_sum :
    (let t := tDot [(0x40, 0x40), (0x38, 0x38), (0xB8, 0x38)] 11 0xFE 0xFE
     t.n = 0 ∧ (dotResult t fp32).1 = 0x7F800000 ∧ (dotResult t fp32).2.word false = 0x0106) ∧
    (let t := tDot [(0x38, 0x38), (0x38, 0x38), (0xB8, 0x38)] 11 0xFE 0xFE
     t.flags = 0 ∧ (dotResult t fp32).1 = 0x7F800000 ∧ (dotResult t fp32).2.word false = 0x0106) ∧
    (let t := tDot [(0x00, 0x40), (0x38, 0x38), (0xB8, 0x38)] 11 0xFE 0xFE
     t.n = 0 ∧ (dotResult t fp32).1 = 0 ∧ (dotResult t fp32).2.word false = 0x0100) := by decide +kernel

/-- Table 02.9 and its variation: a tie decided by a flushed value, and by one that fits. -/
def tSumOf (third : Nat) : Nat × Cond :=
  berthResult 0 8 0 ([(0x3F800000, 0x7F), (0x33800000, 0x7F), (0x1B000000, third)].foldl (fun b e => foldElem 0 8 b e.1 e.2) .empty)
theorem test_sum_tie : (tSumOf 0).1 = 0x3F800000 ∧ (tSumOf 0).2.word false = 0x0108 ∧ (tSumOf 0x33).1 = 0x3F800001 ∧
    (tSumOf 0x33).2.word false = 0x0100 := by decide +kernel

/-- The route draw of chapter 05: weights 3, 1, 2 and 2 with Y[0] = 0x9000_0000 choose candidate 2. -/
theorem test_weighted_choice : weightedChoice [3, 1, 2, 2] 0x90000000 = 2 := by decide +kernel

/-- Table 11.8: with SQ_HEAD 3 and 64 entries, SQ_TAIL 0x44 is refused and sets OVERRUN, 0x43 is taken. -/
def tRing (head tail : Nat) : State :=
  { tOn with host := { tOn.host with qps := [(0, { tQp with ctrl := { tQp.ctrl with log2 := 6, cqLog2 := 6 }, sqHead := BitVec.ofNat 32 head,
                                                            sqTail := BitVec.ofNat 32 tail })] } }
def tAfter (c : Instr) (s : State) : State :=
  match exec c s with
  | .next t => t
  | _ => s
theorem test_tail_doorbell :
    ((getQp (tAfter (.sqTailDoorbell 0 0x43) (tRing 3 0x41)) 0).sqTail = 0x43 ∧
      (getQp (tAfter (.sqTailDoorbell 0 0x43) (tRing 3 0x41)) 0).status.overrun = false) ∧
    ((getQp (tAfter (.sqTailDoorbell 0 0x44) (tRing 3 0x41)) 0).sqTail = 0x41 ∧
      (getQp (tAfter (.sqTailDoorbell 0 0x44) (tRing 3 0x41)) 0).status.overrun = true) := by decide +kernel


/-- R36, R38: a forwarded INT32 winner sets no condition, whatever its bits would be as a float; the FP32 NaN 0x7FC0_0001 sets NAN. -/
theorem test_partialCond_int32 :
    Sys2Proof.Machine.partialCond 5 (.extremum 0x7FC00001 0 false) = Sys2Proof.Machine.Cond.none ∧
      (Sys2Proof.Machine.partialCond 0 (.extremum 0x7FC00001 0 false)).nan = true := by decide +kernel

end Sys2Proof.Tests
end

/-!
The ring status registers (Table 11.6): what a queue pair and a status read after an update, and the write of their W1C bits (R8).
-/
namespace Sys2Proof.Proofs
open Sys2Proof Sys2Proof.Machine

section
variable (s : State)

/-! ### Queue pairs -/

@[simp] theorem getQp_settle (k : Nat) : getQp (settle s) k = getQp s k := rfl

@[simp] theorem getQp_modQp_same (q : Nat) (f : QueuePair → QueuePair) : getQp (modQp q f s) q = f (getQp s q) :=
  tabGet_tabPut_same _ _ _ _

theorem getQp_modQp_ne {q k : Nat} (f : QueuePair → QueuePair) (h : k ≠ q) : getQp (modQp q f s) k = getQp s k :=
  tabGet_tabPut_ne _ _ _ h

/-! ### Ring status -/

@[simp] theorem ringStatus_settle (r : RingId) : ringStatus (settle s) r = ringStatus s r := by
  cases r <;> rfl

@[simp] theorem ringStatus_setStatus_same (r : RingId) (f : RingStatus → RingStatus) :
    ringStatus (setStatus r f s) r = f (ringStatus s r) := by
  cases r with
  | qp q => simp only [ringStatus, setStatus, getQp_modQp_same]
  | ev => rfl
  | aud => rfl

/-- A status update of one ring leaves every other ring's queue pair as it is. -/
theorem getQp_setStatus_ne {r : RingId} {k : Nat} (f : RingStatus → RingStatus) (h : RingId.qp k ≠ r) :
    getQp (setStatus r f s) k = getQp s k := by
  cases r with
  | qp q => exact getQp_modQp_ne s _ fun hk => h (congrArg RingId.qp hk)
  | ev => rfl
  | aud => rfl

/-! ### The write of a status register (R8) -/

/-- The write reaches every ring that exists. -/
theorem exec_statusW1cWrite_of_ringNamed {r : RingId} (v setting : Nat) (h : ringNamed r = true) :
    exec (.statusW1cWrite r v setting) s = .next (settle (writeStatus r v setting s)) :=
  if_pos h

/-- Bits 1 to 3 are W1C on every ring, and IDLE is not written. -/
theorem ringStatus_writeStatus (r : RingId) (v setting : Nat) :
    (ringStatus (writeStatus r v setting s) r).overrun = w1c (ringStatus s r).overrun (bit v 1) (bit setting 1) ∧
    (ringStatus (writeStatus r v setting s) r).cfgErr = w1c (ringStatus s r).cfgErr (bit v 2) (bit setting 2) ∧
    (ringStatus (writeStatus r v setting s) r).dmaErr = w1c (ringStatus s r).dmaErr (bit v 3) (bit setting 3) ∧
    (ringStatus (writeStatus r v setting s) r).idle = (ringStatus s r).idle := by
  simp only [writeStatus, ringStatus_setStatus_same, and_self]

/-- DUP_TAG is a bit of a queue pair's status alone. -/
theorem ringStatus_writeStatus_qp_dupTag (q v setting : Nat) :
    (ringStatus (writeStatus (.qp q) v setting s) (.qp q)).dupTag =
      w1c (ringStatus s (.qp q)).dupTag (bit v 4) (bit setting 4) := by
  simp only [writeStatus, ringStatus_setStatus_same, Bool.true_and]

/-- LOST is a bit of the event ring's status alone. -/
theorem ringStatus_writeStatus_ev_lost (v setting : Nat) :
    (ringStatus (writeStatus .ev v setting s) .ev).lost = w1c (ringStatus s .ev).lost (bit v 5) (bit setting 5) := by
  simp only [writeStatus, ringStatus_setStatus_same, Bool.true_and]

theorem getQp_writeStatus_ne {r : RingId} {k : Nat} (v setting : Nat) (h : RingId.qp k ≠ r) :
    getQp (writeStatus r v setting s) k = getQp s k :=
  getQp_setStatus_ne s _ h

end

/-- Settles O13: the write updates the addressed ring's status alone, each of its W1C bits by `w1c`, in which a set of the same
cycle wins over the clearing. -/
theorem statusW1c : Obligations.status_w1c := by
  unfold Obligations.status_w1c
  intro s r v setting hr
  obtain ⟨hoverrun, hcfgErr, hdmaErr, hidle⟩ := ringStatus_writeStatus s r v setting
  refine ⟨_, exec_statusW1cWrite_of_ringNamed s v setting hr, ?_⟩
  simp only [ringStatus_settle, getQp_settle]
  refine ⟨hoverrun, hcfgErr, hdmaErr, hidle, ?dupTag, ?lost, ?others⟩
  case dupTag =>
    rintro q rfl
    exact ringStatus_writeStatus_qp_dupTag s q v setting
  case lost =>
    rintro rfl
    exact ringStatus_writeStatus_ev_lost s v setting
  case others => exact fun k hk => getQp_writeStatus_ne s v setting hk

end Sys2Proof.Proofs

/-!
The doorbells of the rings (R289) and the fetch of a command (R293), with what an event raised on the way leaves of the host interface
and adds to its queue (R296).
-/
namespace Sys2Proof.Proofs
open Sys2Proof Sys2Proof.Machine Sys2Proof.Laws

section
variable (s : State)

/-! ### Two updates of one queue pair -/

theorem tabPut_tabPut_same {α : Type} (t : Tab α) (k : Nat) (v w : α) : tabPut (tabPut t k v) k w = tabPut t k w := by
  induction t with
  | nil => simp [tabPut]
  | cons p t ih =>
    obtain ⟨k', v'⟩ := p
    rcases lt_trichotomy k k' with h | rfl | h
    · simp [tabPut, h]
    · simp [tabPut]
    · simp [tabPut, h.not_gt, h.ne', ih]

theorem modQp_modQp_same (q : Nat) (f g : QueuePair → QueuePair) : modQp q f (modQp q g s) = modQp q (fun p => f (g p)) s := by
  simp only [modQp, modHost, tabGet_tabPut_same, tabPut_tabPut_same]

/-! ### What an event leaves of the host interface -/

/-- The host interface without the events that wait, their numbers and the count of those lost. -/
def besideEvents (h : HostIf) : HostIf := { h with evQueue := [], evFresh := 0, evLost := 0, evLostTide := 0, evSeq := 0 }

theorem host_foldl {α : Type} (f : State → α → State) (h : ∀ u a, (f u a).host = u.host) (l : List α) :
    ∀ u, (l.foldl f u).host = u.host := by
  induction l with
  | nil => exact fun _ => rfl
  | cons a l ih => exact fun u => (ih (f u a)).trans (h u a)

@[simp] theorem host_sendEventFrames (e : Event) : (sendEventFrames e s).host = s.host := by
  unfold sendEventFrames
  split
  · rfl
  · exact host_foldl (fun u mac => emit (.serviceFrame mac 3 u.svc.eventSeq e.bytes) u) (fun _ _ => rfl) s.svc.clients s

@[simp] theorem host_settleEvents : (settleEvents s).host = { s.host with evFresh := 0 } :=
  host_foldl (fun u e => sendEventFrames e u) host_sendEventFrames _ _

theorem besideEvents_raiseRaw (code : Nat) (job : Option Nat) (params : List Byte) :
    besideEvents (raiseRaw code job params s).host = besideEvents s.host := by
  unfold raiseRaw
  dsimp only
  split
  · simp [besideEvents]
  · rfl

theorem besideEvents_raiseEvent (code : Nat) (job : Option Nat) (params : List Byte) :
    besideEvents (raiseEvent code job params s).host = besideEvents s.host := by
  unfold raiseEvent raiseSaturated
  dsimp only
  split
  · split
    · exact (besideEvents_raiseRaw _ _ _ _).trans (besideEvents_raiseRaw s code job params)
    · exact besideEvents_raiseRaw s code job params
  · exact besideEvents_raiseRaw s code job params

@[simp] theorem getQp_ringError (q tag reason k : Nat) : getQp (ringError q tag reason s) k = getQp s k :=
  (congrArg (fun h : HostIf => tabGet h.qps k QueuePair.reset) (besideEvents_raiseEvent s 0x0002 none _) :)

@[simp] theorem running_ringError (q tag reason : Nat) : (ringError q tag reason s).host.running = s.host.running :=
  (congrArg HostIf.running (besideEvents_raiseEvent s 0x0002 none _) :)

@[simp] theorem getQp_linkError (k : Nat) : getQp (linkError s) k = getQp s k :=
  (apply_ite (fun u => getQp u k) _ _ _).trans (ite_self _)

@[simp] theorem getQp_dmaError_same (q tag : Nat) :
    getQp (dmaError q tag s) q = { getQp s q with status := { (getQp s q).status with dmaErr := true } } := by
  simp only [dmaError, getQp_ringError, getQp_modQp_same, getQp_linkError]

/-! ### What an event adds to the queue (R296) -/

theorem mem_insertByCode (e : Event) (l : List Event) : e ∈ insertByCode e l := by
  induction l with
  | nil => simp [insertByCode]
  | cons x l ih =>
    unfold insertByCode
    split
    · exact List.mem_cons_self
    · exact List.mem_cons_of_mem x ih

theorem length_insertByCode (e : Event) (l : List Event) : (insertByCode e l).length = l.length + 1 := by
  induction l with
  | nil => rfl
  | cons x l ih =>
    unfold insertByCode
    split
    · rfl
    · exact congrArg (· + 1) ih

/-- The event is in the queue, under the number that its place gives it. -/
theorem exists_seq_mem_queueEvent (n : Nat) (q : List Event) (e : Event) : ∃ k, { e with seq := k } ∈ queueEvent n q e := by
  obtain ⟨i, hi, he⟩ := List.mem_iff_getElem.mp (mem_insertByCode e (q.drop (q.length - n)))
  have hseq : i < ((q.drop (q.length - n)).map (fun x => x.seq) ++ [e.seq]).length := by
    simpa only [List.length_append, List.length_map, List.length_singleton, length_insertByCode] using hi
  have hmem := List.getElem_mem (l := List.zipWith (fun x k => { x with seq := k }) _ _) (List.length_zipWith ▸ lt_min hi hseq)
  rw [List.getElem_zipWith, he] at hmem
  exact ⟨_, List.mem_append_right _ hmem⟩

/-- With room in the queue, an event that is raised waits in it. -/
theorem exists_seq_mem_raiseEvent (code : Nat) (job : Option Nat) (params : List Byte) (h : s.host.evQueue.length < 4096) :
    ∃ k, { code := code, job := job, seq := k, tide := now s, params := params } ∈ (raiseEvent code job params s).host.evQueue := by
  obtain ⟨k, hk⟩ := exists_seq_mem_queueEvent s.host.evFresh s.host.evQueue ⟨code, job, s.host.evSeq, now s, params⟩
  refine ⟨k, ?_⟩
  simpa [raiseEvent, raiseRaw, h.not_ge] using hk

/-! ### The doorbells (R289) -/

theorem exec_sqTailDoorbell {q : Nat} (v : Index) (h : q < 16) : exec (.sqTailDoorbell q v) s = .next (settle (writeSqTail q v s)) :=
  if_pos h

theorem exec_cqHeadDoorbell {q : Nat} (v : Index) (h : q < 16) : exec (.cqHeadDoorbell q v) s = .next (settle (writeCqHead q v s)) :=
  if_pos h

theorem exec_evHeadDoorbell (v : Index) : exec (.evHeadDoorbell v) s = .next (settle (writeEvHead v s)) := rfl

theorem exec_audHeadDoorbell (v : Index) : exec (.audHeadDoorbell v) s = .next (settle (writeAudHead v s)) := rfl

theorem doorbellOk_of_le {old new : Index} {room : Nat} (h : (new - old).toNat ≤ room) : doorbellOk old new room = true :=
  decide_eq_true h

theorem doorbellOk_of_lt {old new : Index} {room : Nat} (h : room < (new - old).toNat) : ¬ doorbellOk old new room = true :=
  fun hok => h.not_ge (of_decide_eq_true hok)

/-- A doorbell that is refused leaves the queue pair's indices, sets OVERRUN and clears ENABLE. -/
theorem getQp_qpOverrun_same (q : Nat) :
    getQp (qpOverrun q s) q =
      { getQp s q with status := { (getQp s q).status with overrun := true }, ctrl := { (getQp s q).ctrl with enable := false } } := by
  simp only [qpOverrun, overrun, setStatus, getQp_ringError, getQp_modQp_same]

/-! ### The fetch of a command (R293) -/

theorem tagInUse_iff (q tag : Nat) :
    tagInUse s q tag = true ↔
      (∃ d ∈ (getQp s q).fetched, d.tag = tag) ∨ ∃ r ∈ runningOf s q, r.x.src = .ring q ∧ r.x.cmd.tag = tag := by
  have source {r : Running} (hr : r ∈ runningOf s q) : r.x.src = .ring q := by
    obtain ⟨hsrc, -⟩ := Bool.and_eq_true_iff.mp (List.mem_filter.mp hr).2
    exact eq_of_beq hsrc
  simp only [tagInUse, Bool.or_eq_true, List.any_eq_true, beq_iff_eq]
  refine or_congr Iff.rfl ⟨?_, ?_⟩
  · rintro ⟨r, hr, htag⟩
    exact ⟨r, hr, source hr, htag⟩
  · rintro ⟨r, hr, -, htag⟩
    exact ⟨r, hr, htag⟩

variable {s} {q : Nat} (h : canFetch s q = true)
include h

theorem exec_commandFetch_of_read_failed : exec (.commandFetch q none) s = .next (settle (dmaError q 0 s)) :=
  if_pos h

theorem exec_commandFetch_of_tag_free {entry : List Byte} (htag : tagInUse s q (parseCmd entry).tag = false) :
    exec (.commandFetch q (some entry)) s =
      .next (settle (modQp q (fun p => { p with sqHead := p.sqHead + 1, fetched := p.fetched ++ [parseCmd entry] }) s)) := by
  change execCommandFetch q (some entry) s = _
  simp only [execCommandFetch, h, htag, if_true, Bool.false_eq_true, if_false, modQp_modQp_same]
  rfl

/-- A command whose tag is in use is passed over: it never waits, and RING_ERROR tells of it. -/
theorem exec_commandFetch_of_tagInUse {entry : List Byte} (htag : tagInUse s q (parseCmd entry).tag = true) :
    exec (.commandFetch q (some entry)) s =
      .next (settle (ringError q (parseCmd entry).tag 0
        (modQp q (fun p => { p with sqHead := p.sqHead + 1, status := { p.status with dupTag := true } }) s))) := by
  change execCommandFetch q (some entry) s = _
  simp only [execCommandFetch, h, htag, if_true, modQp_modQp_same]
  rfl

end

/-- Settles O14: each doorbell turns on `doorbellOk`, the room left in its ring. -/
theorem doorbells : Obligations.doorbells := by
  unfold Obligations.doorbells
  intro s q v hq
  refine ⟨fun h => ?sqTaken, fun h => ⟨_, exec_sqTailDoorbell s v hq, ?sqRefused⟩, fun h => ?cqTaken,
    fun h => ⟨_, exec_cqHeadDoorbell s v hq, ?cqRefused⟩, fun h => ?evTaken, fun h => ?evRefused, fun h => ?audTaken,
    fun h => ?audRefused⟩
  case sqTaken => rw [exec_sqTailDoorbell s v hq, writeSqTail, if_pos (doorbellOk_of_le h)]
  case sqRefused =>
    rw [getQp_settle, writeSqTail, if_neg (doorbellOk_of_lt h), getQp_qpOverrun_same]
    exact ⟨rfl, rfl, rfl⟩
  case cqTaken => rw [exec_cqHeadDoorbell s v hq, writeCqHead, if_pos (doorbellOk_of_le h)]
  case cqRefused =>
    rw [getQp_settle, writeCqHead, if_neg (doorbellOk_of_lt h), getQp_qpOverrun_same]
    exact ⟨rfl, rfl, rfl⟩
  case evTaken => rw [exec_evHeadDoorbell, writeEvHead, if_pos (doorbellOk_of_le h)]; rfl
  case evRefused => rw [exec_evHeadDoorbell, writeEvHead, if_neg (doorbellOk_of_lt h)]; rfl
  case audTaken => rw [exec_audHeadDoorbell, writeAudHead, if_pos (doorbellOk_of_le h)]; rfl
  case audRefused => rw [exec_audHeadDoorbell, writeAudHead, if_neg (doorbellOk_of_lt h)]; rfl

/-- Settles O15: the three outcomes of a fetch, told apart by whether the entry was read and whether its tag is in use. -/
theorem commandFetch : Obligations.command_fetch := by
  unfold Obligations.command_fetch
  intro s q entry hq
  refine ⟨exec_commandFetch_of_tag_free hq, fun htag => ⟨_, exec_commandFetch_of_tagInUse hq htag, ?discarded⟩, tagInUse_iff s q _,
    _, exec_commandFetch_of_read_failed hq, ?failed⟩
  case discarded =>
    simp only [getQp_settle, getQp_ringError, getQp_modQp_same, quiet_settle, quiet_ringError, quiet_modQp, true_and]
    refine ⟨running_ringError _ _ _ _, fun hroom => ?_⟩
    obtain ⟨k, hk⟩ := exists_seq_mem_raiseEvent (modQp q _ s) _ _ _ hroom
    exact ⟨_, hk, rfl, rfl, rfl⟩
  case failed => simp only [getQp_settle, getQp_dmaError_same, quiet_settle, quiet_dmaError, and_self]

end Sys2Proof.Proofs

/-!
The verdict on a command (R309): the own checks decide where all before them pass, and RANGE stands first among them. With it, what a
refused command leaves, and the largest step that a context commits (R353).
-/
namespace Sys2Proof.Proofs
open Sys2Proof Sys2Proof.Machine Sys2Proof.Laws

/-! ### The bound of a field (R5) -/

theorem leNat_lt (bs : List Byte) : leNat bs < 256 ^ bs.length := by
  induction bs with
  | nil => exact Nat.one_pos
  | cons b bs ih =>
    have hb : b.toNat < 256 := b.isLt
    rw [leNat, List.length_cons, Nat.pow_succ]
    omega

theorem param_lt (x : Exec) (off n : Nat) : param x off n < 256 ^ n :=
  (leNat_lt _).trans_le (Nat.pow_le_pow_right (by decide) (List.length_take_le _ _))

/-! ### The verdict (R309) -/

/-- The checks of R309 item 6: the job's existence, then the row's own. -/
def ownFailures (s : State) (x : Exec) (r : Row) : List Failed :=
  fails (r.jobScoped && r.jobExists && !tabHas s.jobs x.cmd.job) stState ++ r.own

theorem firstFailed_of_verdict_eq_none {s : State} {x : Exec} {r : Row} (h : verdict s x r = none) :
    firstFailed (ownFailures s x r) = none := by
  unfold verdict at h
  split at h
  · cases h
  split at h
  · cases h
  split at h
  · cases h
  split at h
  · cases h
  exact h

/-- Over a ring, a command that is not denied, keeps to its row, has its descriptor, is served after a trip too and returns no data is
left to the checks of R309 item 6. -/
theorem verdict_eq_firstFailed {s : State} {x : Exec} {r : Row} (hring : overService x = false) (hdenied : r.denied = false)
    (hpacket : packetBad x r = false) (hdesc : x.desc.isSome = true) (hdomains : needsDomains r.opcode = false)
    (hneed : r.need = 0) : verdict s x r = firstFailed (ownFailures s x r) := by
  have hsome : x.desc.isNone = false := Option.isNone_eq_false_iff.mpr hdesc
  simp [verdict, ownFailures, spaceShort, hring, hdenied, hpacket, hsome, hdomains, hneed]

/-- RANGE is the first of the own checks. -/
theorem firstFailed_of_find?_range {fs : List Failed} {f : Failed} (h : fs.find? (fun g => g.status == stRange) = some f) :
    firstFailed fs = some f := by
  simp [firstFailed, ownOrder, h]

/-- A refused command, even of those that complete later, answers at once with its first failed check and has no effect. -/
theorem runLater_rejects {x : Exec} {row : State → Row} {f : Failed} {s : State} (h : Rejects x row f s)
    (start : Running → State → State) :
    ∃ t, runLater x s row start = .next t ∧ Answered x f.status f.r0 f.r1 [] s t ∧ t.quiet = s.quiet := by
  obtain ⟨r, s', hadmit, hr, hverdict⟩ := h
  refine ⟨settle (complete r f.status f.r0 f.r1 [] s'), ?_, ?_, ?_⟩
  · simp only [runLater, hadmit, hverdict, finish]
  · have hanswer := complete_answers s' r f.status f.r0 f.r1 [] hr
    rw [admitted_exec hadmit] at hanswer
    exact sends_of_eq (admitted_outbox hadmit) hanswer
  · rw [quiet_settle, quiet_complete, quiet_admitCmd hadmit]

/-! ### STEP_COMMIT for step 2^64 - 1 (R353) -/

/-- The step is out of range whatever the job and the context are. -/
theorem firstFailed_stepCommit_of_last {x : Exec} (s : State) (h : param x 8 8 = 2 ^ 64 - 1) :
    firstFailed (ownFailures s x (rowStepCommit x s)) = some ⟨stRange, 0, 0⟩ := by
  have hrange : fails (param x 8 8 == 2 ^ 64 - 1) stRange = [⟨stRange, 0, 0⟩] := if_pos (beq_iff_eq.mpr h)
  have hjob (c : Bool) : (fails c stState).find? (fun g => g.status == stRange) = none := by cases c <;> rfl
  apply firstFailed_of_find?_range
  simp only [ownFailures, rowStepCommit, hrange, List.find?_append, hjob, Option.none_or]
  rfl

theorem stepCommit_rejects_of_last {x : Exec} {s s' : State} {r : Running} (hring : overService x = false)
    (hadmit : admitCmd x 0x0703 s = some (r, s')) (hr : r.orphan = false) (hpacket : packetBad x (rowStepCommit x s') = false)
    (hdesc : x.desc.isSome = true) (h : param x 8 8 = 2 ^ 64 - 1) : Rejects x (rowStepCommit x) ⟨stRange, 0, 0⟩ s :=
  ⟨r, s', hadmit, hr, (verdict_eq_firstFailed hring rfl hpacket hdesc rfl rfl).trans (firstFailed_stepCommit_of_last s' h)⟩

theorem param_ne_of_stepCommit_accepts {x : Exec} {s : State} (h : Accepts x (rowStepCommit x) s) : param x 8 8 ≠ 2 ^ 64 - 1 := by
  obtain ⟨-, s', -, -, hverdict⟩ := h
  intro hlast
  have hnone := firstFailed_of_verdict_eq_none hverdict
  rw [firstFailed_stepCommit_of_last s' hlast] at hnone
  cases hnone

/-- Settles O29: the step 2^64 - 1 fails RANGE, the first of the own checks, so it is never accepted; and no larger one fits the field. -/
theorem largestStep : Obligations.largest_step := by
  unfold Obligations.largest_step
  refine ⟨fun x s h => ?bound, fun x s s' r q hsrc hadmit hr hpacket hdesc hlast => ?refused⟩
  case bound =>
    have hlt : param x 8 8 < 256 ^ 8 := param_lt x 8 8
    have hne := param_ne_of_stepCommit_accepts h
    omega
  case refused =>
    have hring : overService x = false := by rw [overService, hsrc]
    exact runLater_rejects (stepCommit_rejects_of_last hring hadmit hr hpacket hdesc hlast) _

end Sys2Proof.Proofs

/-!
Frames. What an operation leaves alone is said once for each as its footprint: the parts of the state that it may touch. The view of a
state without those parts is then the same before and after it.
-/
namespace Sys2Proof.Proofs
open Sys2Proof Sys2Proof.Machine Sys2Proof.Laws

/-- The parts of the state that footprints tell apart. Where a part lies within another (ERROR_N in the island, the accounts in the
contexts), the other is the rest of it, or all of it. -/
inductive Part where
  | errorN | fatal | island | sys | serdes | clk | pwr | units
  | qps | evPort | vectors | aer | events | running | host
  | mbox | eventSeq | svcCmds | svc | records | flt | purser | sentT1 | tide | jobs
  | told | asked | svcChanged | net | lands | sw | slips | hawsers | optics | xings | incs
  | accts | rctxVals | rctxs | octxVals | octxs | deck | mem | stk | writes | waits | audit | deferred | freeCount | outbox | pending
  deriving DecidableEq

section
variable (ps : List Part)

def viewAon (a : AlwaysOn) : AlwaysOn :=
  if .island ∈ ps then AlwaysOn.reset else
  { a with
    errorN := if .errorN ∈ ps then false else a.errorN
    priorFatal := if .fatal ∈ ps then none else a.priorFatal
    priorFatalTide := if .fatal ∈ ps then 0 else a.priorFatalTide }

def viewHost (h : HostIf) : HostIf :=
  if .host ∈ ps then HostIf.reset else
  { h with
    qps := if .qps ∈ ps then [] else h.qps
    ev := if .evPort ∈ ps then RingPort.reset else h.ev
    msixPending := if .vectors ∈ ps then 0 else h.msixPending
    cfg := if .aer ∈ ps then { h.cfg with aerUncStatus := 0 } else h.cfg
    evQueue := if .events ∈ ps then [] else h.evQueue
    evFresh := if .events ∈ ps then 0 else h.evFresh
    evLost := if .events ∈ ps then 0 else h.evLost
    evLostTide := if .events ∈ ps then 0 else h.evLostTide
    evSeq := if .events ∈ ps then 0 else h.evSeq
    running := if .running ∈ ps then [] else h.running }

def viewSvc (v : Service) : Service :=
  { clients := if .svc ∈ ps then [] else v.clients
    eventSeq := if .eventSeq ∈ ps then 0 else v.eventSeq
    waiting := if .svcCmds ∈ ps then [] else v.waiting
    kept := if .svcCmds ∈ ps then [] else v.kept }

def viewFlt (f : Faults) : Faults :=
  { records := if .records ∈ ps then [] else f.records
    nextNum := if .records ∈ ps then 0 else f.nextNum
    merge := if .flt ∈ ps then false else f.merge }

def viewNet (n : Net) : Net :=
  if .net ∈ ps then Net.reset else
  { n with
    told := if .told ∈ ps then [] else n.told
    asked := if .asked ∈ ps then [] else n.asked
    serviceChanged := if .svcChanged ∈ ps then false else n.serviceChanged }

def viewHbm (h : Hbm) : Hbm :=
  { mem := if .mem ∈ ps then [] else h.mem
    stk := if .stk ∈ ps then [] else h.stk
    writes := if .writes ∈ ps then [] else h.writes
    waits := if .waits ∈ ps then [] else h.waits }

def viewRctxs (t : Tab Rctx) : Tab Rctx :=
  if .rctxs ∈ ps then [] else if .rctxVals ∈ ps then t.map (fun p => (p.1, default))
  else if .accts ∈ ps then t.map (fun p => (p.1, { p.2 with acct := Account.zero })) else t

def viewOctxs (t : Tab Octx) : Tab Octx :=
  if .octxs ∈ ps then [] else if .octxVals ∈ ps then t.map (fun p => (p.1, default))
  else if .accts ∈ ps then t.map (fun p => (p.1, { p.2 with acct := Account.zero })) else t

def viewTide (t : TideUnit) : TideUnit :=
  if .tide ∈ ps then TideUnit.reset else { t with sentT1 := if .sentT1 ∈ ps then none else t.sentT1 }

def viewClk (c : Clocks) : Clocks :=
  if .clk ∈ ps then Clocks.reset else { c with serdes := if .serdes ∈ ps then [] else c.serdes }

/-- The state without the parts listed. -/
def view (s : State) : State :=
  { aon := viewAon ps s.aon
    sys := if .sys ∈ ps then Sys.reset else s.sys
    clk := viewClk ps s.clk
    pwr := if .pwr ∈ ps then Power.reset else s.pwr
    units := if .units ∈ ps then [] else s.units
    host := viewHost ps s.host
    mbox := if .mbox ∈ ps then State.reset.mbox else s.mbox
    svc := viewSvc ps s.svc
    flt := viewFlt ps s.flt
    purser := if .purser ∈ ps then [] else s.purser
    tide := viewTide ps s.tide
    jobs := if .jobs ∈ ps then [] else s.jobs
    net := viewNet ps s.net
    lands := if .lands ∈ ps then [] else s.lands
    sw := if .sw ∈ ps then SwitchCfg.reset else s.sw
    slips := if .slips ∈ ps then [] else s.slips
    hawsers := if .hawsers ∈ ps then [] else s.hawsers
    optics := if .optics ∈ ps then [] else s.optics
    xings := if .xings ∈ ps then [] else s.xings
    incs := if .incs ∈ ps then [] else s.incs
    rctxs := viewRctxs ps s.rctxs
    octxs := viewOctxs ps s.octxs
    deck := if .deck ∈ ps then Deck.reset else s.deck
    hbm := viewHbm ps s.hbm
    audit := if .audit ∈ ps then State.reset.audit else s.audit
    deferred := if .deferred ∈ ps then [] else s.deferred
    freeCount := if .freeCount ∈ ps then 0 else s.freeCount
    outbox := if .outbox ∈ ps then [] else s.outbox
    pending := if .pending ∈ ps then [] else s.pending }

theorem map_fst_tabMod {α : Type} (t : Tab α) (k : Nat) (f : α → α) (d : α) :
    (tabMod t k f).map (fun p => (p.1, d)) = t.map (fun p => (p.1, d)) := by
  induction t with
  | nil => rfl
  | cons p t ih =>
    simp only [tabMod, List.map_cons, List.map_map] at ih ⊢
    rw [ih]; split <;> rfl

variable {ps} (s : State)

@[simp] theorem view_ite (c : Prop) [Decidable c] (a b : State) : view ps (if c then a else b) = if c then view ps a else view ps b :=
  apply_ite (view ps) c a b

theorem view_foldl {α : Type} (f : State → α → State) (h : ∀ s a, view ps (f s a) = view ps s) (l : List α) :
    ∀ s, view ps (l.foldl f s) = view ps s := by
  induction l with
  | nil => exact fun _ => rfl
  | cons a l ih => exact fun s => (ih (f s a)).trans (h s a)

theorem view_modHost (f : HostIf → HostIf) (h : viewHost ps (f s.host) = viewHost ps s.host) : view ps (modHost f s) = view ps s := by
  simp [view, modHost, h]


/-! ### One field replaced -/

theorem view_with_aon {v} (h : viewAon ps v = viewAon ps s.aon) : view ps { s with aon := v } = view ps s := by
  simp only [view, h]

theorem view_with_clk {v} (h : viewClk ps v = viewClk ps s.clk) : view ps { s with clk := v } = view ps s := by
  simp only [view, h]

theorem view_with_host {v} (h : viewHost ps v = viewHost ps s.host) : view ps { s with host := v } = view ps s := by
  simp only [view, h]

theorem view_with_svc {v} (h : viewSvc ps v = viewSvc ps s.svc) : view ps { s with svc := v } = view ps s := by
  simp only [view, h]

theorem view_with_flt {v} (h : viewFlt ps v = viewFlt ps s.flt) : view ps { s with flt := v } = view ps s := by
  simp only [view, h]

theorem view_with_tide {v} (h : viewTide ps v = viewTide ps s.tide) : view ps { s with tide := v } = view ps s := by
  simp only [view, h]

theorem view_with_net {v} (h : viewNet ps v = viewNet ps s.net) : view ps { s with net := v } = view ps s := by
  simp only [view, h]

theorem view_with_rctxs {v} (h : viewRctxs ps v = viewRctxs ps s.rctxs) : view ps { s with rctxs := v } = view ps s := by
  simp only [view, h]

theorem view_with_octxs {v} (h : viewOctxs ps v = viewOctxs ps s.octxs) : view ps { s with octxs := v } = view ps s := by
  simp only [view, h]

theorem view_with_hbm {v} (h : viewHbm ps v = viewHbm ps s.hbm) : view ps { s with hbm := v } = view ps s := by
  simp only [view, h]

@[simp] theorem view_with_sys {v} (h : .sys ∈ ps) : view ps { s with sys := v } = view ps s := by
  simp only [view, if_pos h]

@[simp] theorem view_with_pwr {v} (h : .pwr ∈ ps) : view ps { s with pwr := v } = view ps s := by
  simp only [view, if_pos h]

@[simp] theorem view_with_units {v} (h : .units ∈ ps) : view ps { s with units := v } = view ps s := by
  simp only [view, if_pos h]

@[simp] theorem view_with_mbox {v} (h : .mbox ∈ ps) : view ps { s with mbox := v } = view ps s := by
  simp only [view, if_pos h]

@[simp] theorem view_with_jobs {v} (h : .jobs ∈ ps) : view ps { s with jobs := v } = view ps s := by
  simp only [view, if_pos h]

@[simp] theorem view_with_lands {v} (h : .lands ∈ ps) : view ps { s with lands := v } = view ps s := by
  simp only [view, if_pos h]

@[simp] theorem view_with_sw {v} (h : .sw ∈ ps) : view ps { s with sw := v } = view ps s := by
  simp only [view, if_pos h]

@[simp] theorem view_with_slips {v} (h : .slips ∈ ps) : view ps { s with slips := v } = view ps s := by
  simp only [view, if_pos h]

@[simp] theorem view_with_xings {v} (h : .xings ∈ ps) : view ps { s with xings := v } = view ps s := by
  simp only [view, if_pos h]

@[simp] theorem view_with_deck {v} (h : .deck ∈ ps) : view ps { s with deck := v } = view ps s := by
  simp only [view, if_pos h]

@[simp] theorem view_with_audit {v} (h : .audit ∈ ps) : view ps { s with audit := v } = view ps s := by
  simp only [view, if_pos h]

@[simp] theorem view_with_deferred {v} (h : .deferred ∈ ps) : view ps { s with deferred := v } = view ps s := by
  simp only [view, if_pos h]

@[simp] theorem view_with_freeCount {v} (h : .freeCount ∈ ps) : view ps { s with freeCount := v } = view ps s := by
  simp only [view, if_pos h]

@[simp] theorem view_with_pending {v} (h : .pending ∈ ps) : view ps { s with pending := v } = view ps s := by
  simp only [view, if_pos h]


/-- A change of every context's account. -/
theorem view_with_accts (f : Rctx → Rctx) (g : Octx → Octx) (h : .accts ∈ ps)
    (hf : ∀ r, { f r with acct := Account.zero } = { r with acct := Account.zero })
    (hg : ∀ o, { g o with acct := Account.zero } = { o with acct := Account.zero }) :
    view ps { s with rctxs := s.rctxs.map (fun p => (p.1, f p.2)), octxs := s.octxs.map (fun p => (p.1, g p.2)) } = view ps s := by
  simp [view, viewRctxs, viewOctxs, h, Function.comp_def, hf, hg]

theorem view_foldl_proj {α β : Type} (g : β → State) (f : β → α → β) (h : ∀ b a, view ps (g (f b a)) = view ps (g b)) (l : List α) :
    ∀ b, view ps (g (l.foldl f b)) = view ps (g b) := by
  induction l with
  | nil => exact fun _ => rfl
  | cons a l ih => exact fun b => (ih (f b a)).trans (h b a)

@[simp] theorem view_modTide (f : TideUnit → TideUnit) (hp : [.sentT1, .tide] ⊆ ps) : view ps (modTide f s) = view ps s :=
  view_with_tide s (by simp only [List.cons_subset] at hp; simp [viewTide, hp])

@[simp] theorem view_modAon (f : AlwaysOn → AlwaysOn) (hp : [.errorN, .fatal, .island] ⊆ ps) : view ps (modAon f s) = view ps s :=
  view_with_aon s (by simp only [List.cons_subset] at hp; simp [viewAon, hp])

@[simp] theorem view_modSys (f : Sys → Sys) (hp : [.sys] ⊆ ps) : view ps (modSys f s) = view ps s :=
  view_with_sys s (by simpa using hp)

@[simp] theorem view_settle (hp : [.errorN] ⊆ ps) : view ps (settle s) = view ps s :=
  view_with_aon s (by simp only [List.cons_subset] at hp; simp [viewAon, hp])

end

end Sys2Proof.Proofs

/-!
Footprints of the model's operations. Each lemma lists the parts its operation may touch; a view without these is as before.
-/
namespace Sys2Proof.Proofs
open Sys2Proof Sys2Proof.Machine Sys2Proof.Laws

@[simp] theorem view_fresh {ps : List Part} (w : Nat) (s : State) (hp : [.freeCount] ⊆ ps) :
    view ps (fresh w s).2 = view ps s := by
  simp only [List.cons_subset, List.nil_subset, and_true] at hp
  simp [fresh, view, viewAon, viewHost, viewSvc, viewFlt, viewNet, viewHbm, viewRctxs, viewOctxs, viewTide, viewClk, hp]

@[simp] theorem view_emit {ps : List Part} (o : Output) (s : State) (hp : [.outbox] ⊆ ps) :
    view ps (emit o s) = view ps s := by
  simp only [List.cons_subset, List.nil_subset, and_true] at hp
  simp [emit, view, viewAon, viewHost, viewSvc, viewFlt, viewNet, viewHbm, viewRctxs, viewOctxs, viewTide, viewClk, hp]

@[simp] theorem view_modSlip {ps : List Part} (n : Nat) (f : Slip → Slip) (s : State) (hp : [.slips] ⊆ ps) :
    view ps (modSlip n f s) = view ps s := by
  simp only [List.cons_subset, List.nil_subset, and_true] at hp
  simp [modSlip, view, viewAon, viewHost, viewSvc, viewFlt, viewNet, viewHbm, viewRctxs, viewOctxs, viewTide, viewClk, hp]

@[simp] theorem view_modLanding {ps : List Part} (l : Nat) (f : Landing → Landing) (s : State) (hp : [.lands] ⊆ ps) :
    view ps (modLanding l f s) = view ps s := by
  simp only [List.cons_subset, List.nil_subset, and_true] at hp
  simp [modLanding, view, viewAon, viewHost, viewSvc, viewFlt, viewNet, viewHbm, viewRctxs, viewOctxs, viewTide, viewClk, hp]

@[simp] theorem view_modEngine {ps : List Part} (k : Nat) (f : Engine → Engine) (s : State) (hp : [.optics] ⊆ ps) :
    view ps (modEngine k f s) = view ps s := by
  simp only [List.cons_subset, List.nil_subset, and_true] at hp
  simp [modEngine, view, viewAon, viewHost, viewSvc, viewFlt, viewNet, viewHbm, viewRctxs, viewOctxs, viewTide, viewClk, hp]

@[simp] theorem view_modQp {ps : List Part} (q : Nat) (f : QueuePair → QueuePair) (s : State) (hp : [.qps] ⊆ ps) :
    view ps (modQp q f s) = view ps s := by
  simp only [List.cons_subset, List.nil_subset, and_true] at hp
  simp [modQp, view, viewAon, viewHost, viewSvc, viewFlt, viewNet, viewHbm, viewRctxs, viewOctxs, viewTide, viewClk, hp]

@[simp] theorem view_modStack {ps : List Part} (k : Nat) (f : Stack → Stack) (s : State) (hp : [.stk] ⊆ ps) :
    view ps (modStack k f s) = view ps s := by
  simp only [List.cons_subset, List.nil_subset, and_true] at hp
  simp [modStack, view, viewAon, viewHost, viewSvc, viewFlt, viewNet, viewHbm, viewRctxs, viewOctxs, viewTide, viewClk, hp]

@[simp] theorem view_touchStack {ps : List Part} (k : Nat) (s : State) (hp : [.stk] ⊆ ps) :
    view ps (touchStack k s) = view ps s := by
  simp only [List.cons_subset, List.nil_subset, and_true] at hp
  simp [touchStack, view, viewAon, viewHost, viewSvc, viewFlt, viewNet, viewHbm, viewRctxs, viewOctxs, viewTide, viewClk, hp]

@[simp] theorem view_modRctx {ps : List Part} (c : Nat) (f : Rctx → Rctx) (s : State) (hp : [.accts, .rctxVals] ⊆ ps) :
    view ps (modRctx c f s) = view ps s := by
  simp only [List.cons_subset, List.nil_subset, and_true] at hp
  exact view_with_rctxs s (by simp [viewRctxs, map_fst_tabMod, hp])

@[simp] theorem view_modOctx {ps : List Part} (o : Nat) (f : Octx → Octx) (s : State) (hp : [.accts, .octxVals] ⊆ ps) :
    view ps (modOctx o f s) = view ps s := by
  simp only [List.cons_subset, List.nil_subset, and_true] at hp
  exact view_with_octxs s (by simp [viewOctxs, map_fst_tabMod, hp])

@[simp] theorem view_modJob {ps : List Part} (j : Nat) (f : Job → Job) (s : State) (hp : [.jobs] ⊆ ps) :
    view ps (modJob j f s) = view ps s := by
  simp only [List.cons_subset, List.nil_subset, and_true] at hp
  simp [modJob, view, viewAon, viewHost, viewSvc, viewFlt, viewNet, viewHbm, viewRctxs, viewOctxs, viewTide, viewClk, hp]

@[simp] theorem view_bumpPurser {ps : List Part} (i n : Nat) (s : State) (hp : [.purser] ⊆ ps) :
    view ps (bumpPurser i n s).1 = view ps s := by
  simp only [List.cons_subset, List.nil_subset, and_true] at hp
  simp [bumpPurser, view, viewAon, viewHost, viewSvc, viewFlt, viewNet, viewHbm, viewRctxs, viewOctxs, viewTide, viewClk, hp]

@[simp] theorem view_sendEventFrames {ps : List Part} (e : Event) (s : State) (hp : [.eventSeq, .outbox] ⊆ ps) :
    view ps (sendEventFrames e s) = view ps s := by
  simp only [List.cons_subset, List.nil_subset, and_true] at hp
  unfold sendEventFrames
  split
  · rfl
  · refine (view_with_svc _ ?_).trans (view_foldl _ (fun s mac => ?_) _ s)
    · simp [viewSvc, hp]
    · simp [hp]

@[simp] theorem view_settleEvents {ps : List Part} (s : State) (hp : [.events, .eventSeq, .outbox] ⊆ ps) :
    view ps (settleEvents s) = view ps s := by
  simp only [List.cons_subset, List.nil_subset, and_true] at hp
  refine (view_foldl _ (fun s e => ?_) _ _).trans (view_modHost s _ ?_)
  · simp [hp]
  · simp [viewHost, hp]

@[simp] theorem view_raiseRaw {ps : List Part} (code : Nat) (job : Option Nat) (params : List Byte) (s : State)
    (hp : [.events, .eventSeq, .outbox] ⊆ ps) :
    view ps (raiseRaw code job params s) = view ps s := by
  simp only [List.cons_subset, List.nil_subset, and_true] at hp
  simp [raiseRaw, view_modHost, viewHost, hp]

@[simp] theorem view_raiseSaturated {ps : List Part} (block slip index : Nat) (s : State) (hp : [.events, .eventSeq, .outbox] ⊆ ps) :
    view ps (raiseSaturated block slip index s) = view ps s := by
  simp only [List.cons_subset, List.nil_subset, and_true] at hp
  simp [raiseSaturated, hp]

@[simp] theorem view_raiseEvent {ps : List Part} (code : Nat) (job : Option Nat) (params : List Byte) (s : State)
    (hp : [.events, .eventSeq, .purser, .outbox] ⊆ ps) :
    view ps (raiseEvent code job params s) = view ps s := by
  simp only [List.cons_subset, List.nil_subset, and_true] at hp
  simp [raiseEvent, hp]

@[simp] theorem view_countPurser {ps : List Part} (i n : Nat) (s : State) (hp : [.events, .eventSeq, .purser, .outbox] ⊆ ps) :
    view ps (countPurser i n s) = view ps s := by
  simp only [List.cons_subset, List.nil_subset, and_true] at hp
  simp [countPurser, hp]

@[simp] theorem view_countNoted {ps : List Part} (i : Nat) (s : State) (hp : [.events, .eventSeq, .purser, .accts, .outbox] ⊆ ps) :
    view ps (countNoted i s) = view ps s := by
  simp only [List.cons_subset, List.nil_subset, and_true] at hp
  exact (view_with_accts _ (fun r => { r with acct := r.acct.add i }) (fun o => { o with acct := o.acct.add i }) hp.2.2.2.1
    (fun _ => rfl) (fun _ => rfl)).trans (view_countPurser i 1 s (by simp [hp]))

@[simp] theorem view_countLanding {ps : List Part} (l n : Nat) (s : State) (hp : [.events, .eventSeq, .purser, .outbox] ⊆ ps) :
    view ps (countLanding l n s) = view ps s := by
  simp only [List.cons_subset, List.nil_subset, and_true] at hp
  simp [countLanding, hp]

@[simp] theorem view_countJob {ps : List Part} (j n : Nat) (s : State) (hp : [.events, .eventSeq, .purser, .outbox] ⊆ ps) :
    view ps (countJob j n s) = view ps s := by
  simp only [List.cons_subset, List.nil_subset, and_true] at hp
  simp [countJob, hp]

@[simp] theorem view_countSlip {ps : List Part} (slip n k : Nat) (s : State) (hp : [.events, .eventSeq, .purser, .outbox] ⊆ ps) :
    view ps (countSlip slip n k s) = view ps s := by
  simp only [List.cons_subset, List.nil_subset, and_true] at hp
  simp [countSlip, hp]

@[simp] theorem view_countLink {ps : List Part} (slip k n : Nat) (s : State) (hp : [.events, .eventSeq, .purser, .slips, .outbox] ⊆ ps) :
    view ps (countLink slip k n s) = view ps s := by
  simp only [List.cons_subset, List.nil_subset, and_true] at hp
  simp [countLink, hp]

@[simp] theorem view_countLane {ps : List Part} (slip k n : Nat) (s : State) (hp : [.events, .eventSeq, .purser, .slips, .outbox] ⊆ ps) :
    view ps (countLane slip k n s) = view ps s := by
  simp only [List.cons_subset, List.nil_subset, and_true] at hp
  simp [countLane, hp]

@[simp] theorem view_countEcc {ps : List Part} (stack : Nat) (e : EccResult) (s : State)
    (hp : [.events, .eventSeq, .purser, .outbox] ⊆ ps) :
    view ps (countEcc stack e s) = view ps s := by
  simp only [List.cons_subset, List.nil_subset, and_true] at hp
  unfold countEcc
  split <;> simp [hp]

@[simp] theorem view_modHawser {ps : List Part} (h : Nat) (f : Hawser → Hawser) (s : State) (hp : [.hawsers] ⊆ ps) :
    view ps (modHawser h f s) = view ps s := by
  simp only [List.cons_subset, List.nil_subset, and_true] at hp
  simp [modHawser, view, viewAon, viewHost, viewSvc, viewFlt, viewNet, viewHbm, viewRctxs, viewOctxs, viewTide, viewClk, hp]

@[simp] theorem view_modXing {ps : List Part} (l peer pl : Nat) (f : Crossing → Crossing) (s : State) (hp : [.xings] ⊆ ps) :
    view ps (modXing l peer pl f s) = view ps s := by
  simp only [List.cons_subset, List.nil_subset, and_true] at hp
  simp [modXing, view, viewAon, viewHost, viewSvc, viewFlt, viewNet, viewHbm, viewRctxs, viewOctxs, viewTide, viewClk, hp]

@[simp] theorem view_putInc {ps : List Part} (l peer pl : Nat) (v : BitVec 2) (s : State) (hp : [.incs] ⊆ ps) :
    view ps (putInc l peer pl v s) = view ps s := by
  simp only [List.cons_subset, List.nil_subset, and_true] at hp
  simp [putInc, view, viewAon, viewHost, viewSvc, viewFlt, viewNet, viewHbm, viewRctxs, viewOctxs, viewTide, viewClk, hp]

@[simp] theorem view_noteFault {ps : List Part} (cls level : Nat) (s : State) (hp : [.accts] ⊆ ps) :
    view ps (noteFault cls level s) = view ps s := by
  simp only [List.cons_subset, List.nil_subset, and_true] at hp
  exact view_with_accts s (fun r => { r with acct := r.acct.note cls level (now s) })
    (fun o => { o with acct := o.acct.note cls level (now s) }) hp (fun _ => rfl) (fun _ => rfl)

@[simp] theorem view_raiseFaultEvent {ps : List Part} (r : FaultRecord) (s : State) (hp : [.events, .eventSeq, .purser, .outbox] ⊆ ps) :
    view ps (raiseFaultEvent r s) = view ps s := by
  simp only [List.cons_subset, List.nil_subset, and_true] at hp
  simp [raiseFaultEvent, hp]

@[simp] theorem view_keepFatal {ps : List Part} (r : FaultRecord) (s : State) (hp : [.fatal] ⊆ ps) :
    view ps (keepFatal r s) = view ps s := by
  simp only [List.cons_subset, List.nil_subset, and_true] at hp
  unfold keepFatal
  repeat' split
  all_goals simp [view, viewAon, viewHost, viewSvc, viewFlt, viewNet, viewHbm, viewRctxs, viewOctxs, viewTide, viewClk, hp]

@[simp] theorem view_addRecord {ps : List Part} (r : FaultRecord) (s : State)
    (hp : [.fatal, .events, .eventSeq, .records, .purser, .outbox] ⊆ ps) :
    view ps (addRecord r s) = view ps s := by
  simp only [List.cons_subset, List.nil_subset, and_true] at hp
  unfold addRecord
  dsimp only
  split
  · rw [view_raiseFaultEvent _ _ (by simp [hp]), view_keepFatal _ _ (by simp [hp])]
    exact view_with_flt s (by simp [viewFlt, hp])
  · simp [hp]

@[simp] theorem view_putRecord {ps : List Part} (r : FaultRecord) (s : State) (hp : [.records] ⊆ ps) :
    view ps (putRecord r s) = view ps s := by
  simp only [List.cons_subset, List.nil_subset, and_true] at hp
  simp [putRecord, view, viewAon, viewHost, viewSvc, viewFlt, viewNet, viewHbm, viewRctxs, viewOctxs, viewTide, viewClk, hp]

@[simp] theorem view_raiseFault {ps : List Part} (cls cause unit detail level : Nat) (s : State)
    (hp : [.fatal, .events, .eventSeq, .records, .purser, .accts, .outbox] ⊆ ps) :
    view ps (raiseFault cls cause unit detail level s) = view ps s := by
  simp only [List.cons_subset, List.nil_subset, and_true] at hp
  unfold raiseFault
  repeat' split
  all_goals simp [hp]

@[simp] theorem view_raiseVector {ps : List Part} (v : Nat) (s : State) (hp : [.vectors, .outbox] ⊆ ps) :
    view ps (raiseVector v s) = view ps s := by
  simp only [List.cons_subset, List.nil_subset, and_true] at hp
  simp [raiseVector, view_modHost, viewHost, hp]

@[simp] theorem view_qpWriteBack {ps : List Part} (q : Nat) (s : State) (hp : [.qps, .vectors, .outbox] ⊆ ps) :
    view ps (qpWriteBack q s) = view ps s := by
  simp only [List.cons_subset, List.nil_subset, and_true] at hp
  simp [qpWriteBack, hp]

@[simp] theorem view_evWriteBack {ps : List Part} (s : State) (hp : [.evPort, .vectors, .outbox] ⊆ ps) :
    view ps (evWriteBack s) = view ps s := by
  simp only [List.cons_subset, List.nil_subset, and_true] at hp
  simp [evWriteBack, view_modHost, viewHost, hp]

@[simp] theorem view_audWriteBack {ps : List Part} (s : State) (hp : [.vectors, .host, .outbox] ⊆ ps) :
    view ps (audWriteBack s) = view ps s := by
  simp only [List.cons_subset, List.nil_subset, and_true] at hp
  simp [audWriteBack, view_modHost, viewHost, hp]

@[simp] theorem view_linkError {ps : List Part} (s : State) (hp : [.aer, .freeCount, .outbox] ⊆ ps) :
    view ps (linkError s) = view ps s := by
  simp only [List.cons_subset, List.nil_subset, and_true] at hp
  simp [linkError, view_modHost, viewHost, hp]

@[simp] theorem view_ringError {ps : List Part} (q tag reason : Nat) (s : State) (hp : [.events, .eventSeq, .purser, .outbox] ⊆ ps) :
    view ps (ringError q tag reason s) = view ps s := by
  simp only [List.cons_subset, List.nil_subset, and_true] at hp
  simp [ringError, hp]

@[simp] theorem view_placeLost {ps : List Part} (s : State)
    (hp : [.fatal, .evPort, .events, .eventSeq, .records, .purser, .accts, .outbox] ⊆ ps) :
    view ps (placeLost s) = view ps s := by
  simp only [List.cons_subset, List.nil_subset, and_true] at hp
  simp [placeLost, view_modHost, viewHost, hp]

@[simp] theorem view_writeEvent {ps : List Part} (s : State)
    (hp : [.fatal, .evPort, .vectors, .events, .eventSeq, .records, .purser, .accts, .outbox] ⊆ ps) :
    view ps (writeEvent s) = view ps s := by
  simp only [List.cons_subset, List.nil_subset, and_true] at hp
  unfold writeEvent
  dsimp only
  repeat' split
  all_goals simp [view_modHost, viewHost, hp]

@[simp] theorem view_drainEvents {ps : List Part} (s : State)
    (hp : [.fatal, .evPort, .vectors, .events, .eventSeq, .records, .purser, .accts, .outbox] ⊆ ps) :
    view ps (drainEvents s) = view ps s := by
  simp only [List.cons_subset, List.nil_subset, and_true] at hp
  simp [drainEvents, view_foldl, hp]

@[simp] theorem view_mailboxRecord {ps : List Part} (s : State) (hp : [.vectors, .mbox, .freeCount, .outbox] ⊆ ps) :
    view ps (mailboxRecord s) = view ps s := by
  simp only [List.cons_subset, List.nil_subset, and_true] at hp
  unfold mailboxRecord
  dsimp only
  split
  · exact (view_raiseVector _ _ (by simp [hp])).trans ((view_with_mbox _ hp.2.1).trans (view_fresh _ s (by simp [hp])))
  · exact (view_with_mbox _ hp.2.1).trans (view_fresh _ s (by simp [hp]))

@[simp] theorem view_writeBytes {ps : List Part} (a : Nat) (bs : List Byte) (s : State) (hp : [.mem] ⊆ ps) :
    view ps (writeBytes a bs s) = view ps s := by
  simp only [List.cons_subset, List.nil_subset, and_true] at hp
  simp [writeBytes, view, viewAon, viewHost, viewSvc, viewFlt, viewNet, viewHbm, viewRctxs, viewOctxs, viewTide, viewClk, hp]

@[simp] theorem view_originateReps {ps : List Part} (landing : Nat) (p : Packet) (reps : List Replica) (tag : Option EmitTag) (s : State)
    (hp : [.lands] ⊆ ps) :
    view ps (originateReps landing p reps tag s) = view ps s := by
  simp only [List.cons_subset, List.nil_subset, and_true] at hp
  simp [originateReps, hp]

@[simp] theorem view_originate {ps : List Part} (landing : Nat) (p : Packet) (d : Dest) (tag : Option EmitTag) (s : State)
    (hp : [.lands] ⊆ ps) :
    view ps (originate landing p d tag s) = view ps s := by
  simp only [List.cons_subset, List.nil_subset, and_true] at hp
  simp [originate, hp]

@[simp] theorem view_originatePeer {ps : List Part} (landing lane : Nat) (p : Packet) (tag : Option EmitTag) (s : State)
    (hp : [.lands] ⊆ ps) :
    view ps (originatePeer landing lane p tag s) = view ps s := by
  simp only [List.cons_subset, List.nil_subset, and_true] at hp
  simp [originatePeer, hp]

@[simp] theorem view_originateTo {ps : List Part} (landing : Nat) (p : Packet) (follow : Option Packet) (s : State) (hp : [.lands] ⊆ ps) :
    view ps (originateTo landing p follow s) = view ps s := by
  simp only [List.cons_subset, List.nil_subset, and_true] at hp
  unfold originateTo
  split <;> simp [hp]

@[simp] theorem view_originateSlip {ps : List Part} (slip : Nat) (p : Packet) (s : State) (hp : [.lands] ⊆ ps) :
    view ps (originateSlip slip p s) = view ps s := by
  simp only [List.cons_subset, List.nil_subset, and_true] at hp
  simp [originateSlip, hp]

@[simp] theorem view_originateMember {ps : List Part} (landing hawser : Nat) (p : Packet) (s : State) (hp : [.lands] ⊆ ps) :
    view ps (originateMember landing hawser p s) = view ps s := by
  simp only [List.cons_subset, List.nil_subset, and_true] at hp
  simp [originateMember, hp]

@[simp] theorem view_pushNamed {ps : List Part} (l : Nat) (p : Packet) (reps : List Replica) (slip : Option Nat) (originated : Bool) (emit : Option EmitTag) (named : Option Naming) (s : State)
    (hp : [.lands, .outbox] ⊆ ps) :
    view ps (pushNamed l p reps slip originated emit named s) = view ps s := by
  simp only [List.cons_subset, List.nil_subset, and_true] at hp
  simp [pushNamed, view, viewAon, viewHost, viewSvc, viewFlt, viewNet, viewHbm, viewRctxs, viewOctxs, viewTide, viewClk, hp]

@[simp] theorem view_pushVoq {ps : List Part} (l : Nat) (p : Packet) (reps : List Replica) (slip : Option Nat) (originated : Bool) (emit : Option EmitTag) (s : State)
    (hp : [.lands, .outbox] ⊆ ps) :
    view ps (pushVoq l p reps slip originated emit s) = view ps s := by
  simp only [List.cons_subset, List.nil_subset, and_true] at hp
  simp [pushVoq, hp]

@[simp] theorem view_localWriteDone {ps : List Part} (status : Nat) (p : Packet) (s : State) (hp : [.lands] ⊆ ps) :
    view ps (localWriteDone status p s) = view ps s := by
  simp only [List.cons_subset, List.nil_subset, and_true] at hp
  unfold localWriteDone
  split <;> simp [hp]

@[simp] theorem view_statusToMember {ps : List Part} (hawser : Nat) (p : Packet) (ctx phase status sent expected : Nat) (s : State)
    (hp : [.lands] ⊆ ps) :
    view ps (statusToMember hawser p ctx phase status sent expected s) = view ps s := by
  simp only [List.cons_subset, List.nil_subset, and_true] at hp
  simp [statusToMember, hp]

@[simp] theorem view_statusOncePer {ps : List Part} (hawser : Nat) (p : Packet) (ctx phase status : Nat) (s : State)
    (hp : [.told, .lands] ⊆ ps) :
    view ps (statusOncePer hawser p ctx phase status s) = view ps s := by
  simp only [List.cons_subset, List.nil_subset, and_true] at hp
  unfold statusOncePer
  dsimp only
  split
  · rfl
  · exact (view_statusToMember _ _ _ _ _ _ _ _ (by simp [hp])).trans (view_with_net s (by simp [viewNet, hp]))

@[simp] theorem view_forgetTold {ps : List Part} (job num : Nat) (s : State) (hp : [.told] ⊆ ps) :
    view ps (forgetTold job num s) = view ps s := by
  simp only [List.cons_subset, List.nil_subset, and_true] at hp
  simp [forgetTold, view, viewAon, viewHost, viewSvc, viewFlt, viewNet, viewHbm, viewRctxs, viewOctxs, viewTide, viewClk, hp]

@[simp] theorem view_answerRefused {ps : List Part} (hawser : Nat) (p : Packet) (status : Nat) (s : State) (hp : [.told, .lands] ⊆ ps) :
    view ps (answerRefused hawser p status s) = view ps s := by
  simp only [List.cons_subset, List.nil_subset, and_true] at hp
  simp [answerRefused, hp]

@[simp] theorem view_refuseMember {ps : List Part} (landing hawser : Nat) (p : Packet) (status : Nat) (s : State)
    (hp : [.events, .eventSeq, .purser, .told, .lands, .outbox] ⊆ ps) :
    view ps (refuseMember landing hawser p status s) = view ps s := by
  simp only [List.cons_subset, List.nil_subset, and_true] at hp
  simp [refuseMember, hp]

@[simp] theorem view_emissionLeft {ps : List Part} (ctx q : Nat) (s : State) (hp : [.accts, .rctxVals] ⊆ ps) :
    view ps (emissionLeft ctx q s) = view ps s := by
  simp only [List.cons_subset, List.nil_subset, and_true] at hp
  simp [emissionLeft, hp]

@[simp] theorem view_emissionsLeft {ps : List Part} (e : Option EmitTag) (n : Nat) (s : State) (hp : [.accts, .rctxVals] ⊆ ps) :
    view ps (emissionsLeft e n s) = view ps s := by
  simp only [List.cons_subset, List.nil_subset, and_true] at hp
  unfold emissionsLeft
  repeat' split
  all_goals simp [view_foldl, hp]

@[simp] theorem view_discardXing {ps : List Part} (x : Crossing) (s : State) (hp : [.lands, .xings, .accts, .rctxVals] ⊆ ps) :
    view ps (discardXing x s) = view ps s := by
  simp only [List.cons_subset, List.nil_subset, and_true] at hp
  simp [discardXing, view_foldl, hp]

@[simp] theorem view_refuseWaiting {ps : List Part} (x : Crossing) (s : State)
    (hp : [.events, .eventSeq, .purser, .told, .lands, .accts, .rctxVals, .outbox] ⊆ ps) :
    view ps (refuseWaiting x s) = view ps s := by
  simp only [List.cons_subset, List.nil_subset, and_true] at hp
  unfold refuseWaiting
  dsimp only
  refine (view_foldl _ (fun s q => view_foldl _ (fun s r => ?_) _ s) _ _).trans
    ((view_foldl _ (fun s q => view_foldl _ (fun s r => ?_) _ s) _ _).trans (view_modLanding _ _ s (by simp [hp])))
  all_goals
    repeat' split
    all_goals simp [hp]

@[simp] theorem view_xingDown {ps : List Part} (x : Crossing) (lane : Nat) (s : State)
    (hp : [.fatal, .events, .eventSeq, .records, .purser, .told, .lands, .xings, .accts, .rctxVals, .outbox] ⊆ ps) :
    view ps (xingDown x lane s) = view ps s := by
  simp only [List.cons_subset, List.nil_subset, and_true] at hp
  simp [xingDown, hp]

@[simp] theorem view_xingReset {ps : List Part} (x : Crossing) (inc : BitVec 2) (cause : Nat) (s : State)
    (hp : [.events, .eventSeq, .purser, .lands, .xings, .incs, .accts, .rctxVals, .outbox] ⊆ ps) :
    view ps (xingReset x inc cause s) = view ps s := by
  simp only [List.cons_subset, List.nil_subset, and_true] at hp
  simp [xingReset, hp]

@[simp] theorem view_refreshCredits {ps : List Part} (slip : Nat) (s : State) (hp : [.slips] ⊆ ps) :
    view ps (refreshCredits slip s) = view ps s := by
  simp only [List.cons_subset, List.nil_subset, and_true] at hp
  simp [refreshCredits, view_foldl, hp]

@[simp] theorem view_openCredits {ps : List Part} (slip : Nat) (s : State) (hp : [.slips] ⊆ ps) :
    view ps (openCredits slip s) = view ps s := by
  simp only [List.cons_subset, List.nil_subset, and_true] at hp
  simp [openCredits, hp]

@[simp] theorem view_sendCodeword {ps : List Part} (slip : Nat) (frame : List Byte) (s : State) (hp : [.slips, .outbox] ⊆ ps) :
    view ps (sendCodeword slip frame s) = view ps s := by
  simp only [List.cons_subset, List.nil_subset, and_true] at hp
  simp [sendCodeword, hp]

@[simp] theorem view_transmit {ps : List Part} (slip ftype : Nat) (fseq : FSeq) (unitMap : List Nat) (units : List (List Byte)) (hseqs : List Seq) (s : State)
    (hp : [.slips, .outbox] ⊆ ps) :
    view ps (transmit slip ftype fseq unitMap units hseqs s) = view ps s := by
  simp only [List.cons_subset, List.nil_subset, and_true] at hp
  simp [transmit, hp]

@[simp] theorem view_setPowerReq {ps : List Part} (slip st : Nat) (s : State) (hp : [.slips] ⊆ ps) :
    view ps (setPowerReq slip st s) = view ps s := by
  simp only [List.cons_subset, List.nil_subset, and_true] at hp
  simp [setPowerReq, view, viewAon, viewHost, viewSvc, viewFlt, viewNet, viewHbm, viewRctxs, viewOctxs, viewTide, viewClk, hp]

@[simp] theorem view_sendFrame {ps : List Part} (slip ftype : Nat) (unitMap : List Nat) (units : List (List Byte)) (hseqs : List Seq) (pkts : List SentPkt) (s : State)
    (hp : [.slips, .outbox] ⊆ ps) :
    view ps (sendFrame slip ftype unitMap units hseqs pkts s) = view ps s := by
  simp only [List.cons_subset, List.nil_subset, and_true] at hp
  simp [sendFrame, hp]

@[simp] theorem view_sendLink {ps : List Part} (slip : Nat) (units : List (List Byte)) (s : State) (hp : [.slips, .outbox] ⊆ ps) :
    view ps (sendLink slip units s) = view ps s := by
  simp only [List.cons_subset, List.nil_subset, and_true] at hp
  simp [sendLink, hp]

@[simp] theorem view_stopRctx {ps : List Part} (ctx slot chunk opNum origin cause : Nat) (s : State)
    (hp : [.fatal, .events, .eventSeq, .records, .purser, .accts, .rctxVals, .outbox] ⊆ ps) :
    view ps (stopRctx ctx slot chunk opNum origin cause s) = view ps s := by
  simp only [List.cons_subset, List.nil_subset, and_true] at hp
  unfold stopRctx
  split <;> simp [hp]

@[simp] theorem view_stopUnnamed {ps : List Part} (ctx origin cause : Nat) (s : State)
    (hp : [.fatal, .events, .eventSeq, .records, .purser, .accts, .rctxVals, .freeCount, .outbox] ⊆ ps) :
    view ps (stopUnnamed ctx origin cause s) = view ps s := by
  simp only [List.cons_subset, List.nil_subset, and_true] at hp
  simp [stopUnnamed, hp]

@[simp] theorem view_sendRingStop {ps : List Part} (r : Rctx) (origin : Nat) (s : State) (hp : [.lands] ⊆ ps) :
    view ps (sendRingStop r origin s) = view ps s := by
  simp only [List.cons_subset, List.nil_subset, and_true] at hp
  simp [sendRingStop, hp]

@[simp] theorem view_modLane {ps : List Part} (slip : Nat) (f : Slip → Slip) (s : State) (hp : [.slips] ⊆ ps) :
    view ps (modLane slip f s) = view ps s := by
  simp only [List.cons_subset, List.nil_subset, and_true] at hp
  simp [modLane, view, viewAon, viewHost, viewSvc, viewFlt, viewNet, viewHbm, viewRctxs, viewOctxs, viewTide, viewClk, hp]

@[simp] theorem view_measureSlip {ps : List Part} (slip : Nat) (s : State) (hp : [.slips, .freeCount] ⊆ ps) :
    view ps (measureSlip slip s) = view ps s := by
  simp only [List.cons_subset, List.nil_subset, and_true] at hp
  simp [measureSlip, hp]

@[simp] theorem view_serdesFor {ps : List Part} (k : Nat) (s : State) (hp : [.serdes] ⊆ ps) :
    view ps (serdesFor k s) = view ps s := by
  simp only [List.cons_subset, List.nil_subset, and_true] at hp
  have hserdes (t : Tab LoopState) : view ps { s with clk := { s.clk with serdes := t } } = view ps s :=
    view_with_clk s (by simp [viewClk, hp])
  unfold serdesFor
  dsimp only
  repeat' split
  all_goals simp [hserdes]

@[simp] theorem view_restartBringup {ps : List Part} (slip : Nat) (s : State) (hp : [.serdes, .slips, .freeCount] ⊆ ps) :
    view ps (restartBringup slip s) = view ps s := by
  simp only [List.cons_subset, List.nil_subset, and_true] at hp
  simp [restartBringup, hp]

@[simp] theorem view_wakeSlip {ps : List Part} (slip : Nat) (s : State) (hp : [.slips, .outbox] ⊆ ps) :
    view ps (wakeSlip slip s) = view ps s := by
  simp only [List.cons_subset, List.nil_subset, and_true] at hp
  simp [wakeSlip, hp]

@[simp] theorem view_slipEvent {ps : List Part} (slip : Nat) (old new : SlipState) (reason : Nat) (s : State)
    (hp : [.events, .eventSeq, .purser, .outbox] ⊆ ps) :
    view ps (slipEvent slip old new reason s) = view ps s := by
  simp only [List.cons_subset, List.nil_subset, and_true] at hp
  simp [slipEvent, hp]

@[simp] theorem view_raiseAll {ps : List Part} (fs : List Raise) (s : State)
    (hp : [.fatal, .events, .eventSeq, .records, .purser, .accts, .outbox] ⊆ ps) :
    view ps (raiseAll fs s) = view ps s := by
  simp only [List.cons_subset, List.nil_subset, and_true] at hp
  simp [raiseAll, view_foldl, hp]

@[simp] theorem view_emptyHawser {ps : List Part} (slip h : Nat) (s : State)
    (hp : [.events, .eventSeq, .purser, .slips, .hawsers, .outbox] ⊆ ps) :
    view ps (emptyHawser slip h s) = view ps s := by
  simp only [List.cons_subset, List.nil_subset, and_true] at hp
  simp [emptyHawser, hp]

@[simp] theorem view_failover {ps : List Part} (slip h : Nat) (s : State)
    (hp : [.events, .eventSeq, .purser, .slips, .hawsers, .outbox] ⊆ ps) :
    view ps (failover slip h s) = view ps s := by
  simp only [List.cons_subset, List.nil_subset, and_true] at hp
  simp [failover, hp]

@[simp] theorem view_dropTide {ps : List Part} (slip : Nat) (s : State) (hp : [.lands] ⊆ ps) :
    view ps (dropTide slip s) = view ps s := by
  simp only [List.cons_subset, List.nil_subset, and_true] at hp
  simp [dropTide, view, viewAon, viewHost, viewSvc, viewFlt, viewNet, viewHbm, viewRctxs, viewOctxs, viewTide, viewClk, hp]

@[simp] theorem view_changeSlip {ps : List Part} (slip : Nat) (new : SlipState) (reason : Nat) (s : State)
    (hp : [.serdes, .events, .eventSeq, .purser, .svcChanged, .lands, .slips, .hawsers, .freeCount, .outbox] ⊆ ps) :
    view ps (changeSlip slip new reason s) = view ps s := by
  simp only [List.cons_subset, List.nil_subset, and_true] at hp
  have hnet (u : State) : view ps { u with net := { u.net with serviceChanged := true } } = view ps u :=
    view_with_net u (by simp [viewNet, hp])
  unfold changeSlip
  dsimp only
  split <;> simp [hp, hnet]

@[simp] theorem view_moveSlip {ps : List Part} (slip : Nat) (new : SlipState) (reason : Nat) (s : State)
    (hp : [.fatal, .serdes, .events, .eventSeq, .records, .purser, .svcChanged, .lands, .slips, .hawsers, .accts, .freeCount, .outbox] ⊆ ps) :
    view ps (moveSlip slip new reason s) = view ps s := by
  simp only [List.cons_subset, List.nil_subset, and_true] at hp
  simp [moveSlip, hp]

@[simp] theorem view_moveSlips {ps : List Part} (slips : List Nat) (new : SlipState) (reason : Nat) (others : List Raise) (s : State)
    (hp : [.fatal, .serdes, .events, .eventSeq, .records, .purser, .svcChanged, .lands, .slips, .hawsers, .accts, .freeCount, .outbox] ⊆ ps) :
    view ps (moveSlips slips new reason others s) = view ps s := by
  simp only [List.cons_subset, List.nil_subset, and_true] at hp
  unfold moveSlips
  refine (view_raiseAll _ _ (by simp [hp])).trans (view_foldl_proj (g := Prod.fst) _ (fun a n => ?_) _ _)
  simp [hp]

@[simp] theorem view_sendIdent {ps : List Part} (slip : Nat) (s : State) (hp : [.slips, .outbox] ⊆ ps) :
    view ps (sendIdent slip s) = view ps s := by
  simp only [List.cons_subset, List.nil_subset, and_true] at hp
  simp [sendIdent, hp]

@[simp] theorem view_sendIdentAck {ps : List Part} (slip proto result : Nat) (s : State) (hp : [.slips, .outbox] ⊆ ps) :
    view ps (sendIdentAck slip proto result s) = view ps s := by
  simp only [List.cons_subset, List.nil_subset, and_true] at hp
  simp [sendIdentAck, hp]

@[simp] theorem view_raiseMismatch {ps : List Part} (slip result : Nat) (s : State) (hp : [.events, .eventSeq, .purser, .outbox] ⊆ ps) :
    view ps (raiseMismatch slip result s) = view ps s := by
  simp only [List.cons_subset, List.nil_subset, and_true] at hp
  simp [raiseMismatch, hp]

@[simp] theorem view_quarantine {ps : List Part} (slip result reason : Nat) (s : State)
    (hp : [.fatal, .serdes, .events, .eventSeq, .records, .purser, .svcChanged, .lands, .slips, .hawsers, .accts, .freeCount, .outbox] ⊆ ps) :
    view ps (quarantine slip result reason s) = view ps s := by
  simp only [List.cons_subset, List.nil_subset, and_true] at hp
  simp [quarantine, hp]

@[simp] theorem view_noteNeighbour {ps : List Part} (slip : Nat) (m : Ident) (s : State) (hp : [.net] ⊆ ps) :
    view ps (noteNeighbour slip m s) = view ps s := by
  simp only [List.cons_subset, List.nil_subset, and_true] at hp
  simp [noteNeighbour, view, viewAon, viewHost, viewSvc, viewFlt, viewNet, viewHbm, viewRctxs, viewOctxs, viewTide, viewClk, hp]

@[simp] theorem view_stopForNeighbours {ps : List Part} (ms : List Ident) (s : State)
    (hp : [.fatal, .serdes, .events, .eventSeq, .records, .purser, .svcChanged, .lands, .slips, .hawsers, .accts, .rctxVals, .freeCount, .outbox] ⊆ ps) :
    view ps (stopForNeighbours ms s) = view ps s := by
  simp only [List.cons_subset, List.nil_subset, and_true] at hp
  unfold stopForNeighbours
  refine view_foldl _ (fun s r => ?_) _ s
  dsimp only
  split <;> simp [hp]

@[simp] theorem view_acceptNeighbour {ps : List Part} (slip : Nat) (m : Ident) (s : State)
    (hp : [.fatal, .serdes, .events, .eventSeq, .records, .purser, .svcChanged, .net, .lands, .slips, .hawsers, .accts, .rctxVals, .freeCount, .outbox] ⊆ ps) :
    view ps (acceptNeighbour slip m s) = view ps s := by
  simp only [List.cons_subset, List.nil_subset, and_true] at hp
  simp [acceptNeighbour, hp]

@[simp] theorem view_tryService {ps : List Part} (slip : Nat) (s : State)
    (hp : [.fatal, .serdes, .events, .eventSeq, .records, .purser, .svcChanged, .lands, .slips, .hawsers, .accts, .freeCount, .outbox] ⊆ ps) :
    view ps (tryService slip s) = view ps s := by
  simp only [List.cons_subset, List.nil_subset, and_true] at hp
  unfold tryService
  dsimp only
  split <;> simp [hp]

@[simp] theorem view_answerIdent {ps : List Part} (slip : Nat) (m : Ident) (s : State) (hp : [.slips, .outbox] ⊆ ps) :
    view ps (answerIdent slip m s) = view ps s := by
  simp only [List.cons_subset, List.nil_subset, and_true] at hp
  simp [answerIdent, hp]

@[simp] theorem view_judgeIdent {ps : List Part} (slip : Nat) (m : Ident) (s : State)
    (hp : [.fatal, .serdes, .events, .eventSeq, .records, .purser, .svcChanged, .net, .lands, .slips, .hawsers, .accts, .rctxVals, .freeCount, .outbox] ⊆ ps) :
    view ps (judgeIdent slip m s) = view ps s := by
  simp only [List.cons_subset, List.nil_subset, and_true] at hp
  simp [judgeIdent, hp]

@[simp] theorem view_recheckNeighbours {ps : List Part} (s : State)
    (hp : [.fatal, .serdes, .events, .eventSeq, .records, .purser, .svcChanged, .net, .lands, .slips, .hawsers, .accts, .rctxVals, .freeCount, .outbox] ⊆ ps) :
    view ps (recheckNeighbours s) = view ps s := by
  simp only [List.cons_subset, List.nil_subset, and_true] at hp
  unfold recheckNeighbours
  refine (view_stopForNeighbours _ _ (by simp [hp])).trans ((view_raiseAll _ _ (by simp [hp])).trans
    (view_foldl_proj (g := Recheck.state) _ (fun a n => ?_) _ _))
  unfold recheckSlip
  dsimp only
  repeat' split
  all_goals simp [hp]

@[simp] theorem view_dmaError {ps : List Part} (q tag : Nat) (s : State)
    (hp : [.qps, .aer, .events, .eventSeq, .purser, .freeCount, .outbox] ⊆ ps) :
    view ps (dmaError q tag s) = view ps s := by
  simp only [List.cons_subset, List.nil_subset, and_true] at hp
  simp [dmaError, hp]

@[simp] theorem view_pushCompletion {ps : List Part} (q : Nat) (entry : List Byte) (s : State) (hp : [.qps, .vectors, .outbox] ⊆ ps) :
    view ps (pushCompletion q entry s) = view ps s := by
  simp only [List.cons_subset, List.nil_subset, and_true] at hp
  simp [pushCompletion, hp]

@[simp] theorem view_keepCompletion {ps : List Part} (mac tag : Nat) (answer : Option (List Byte)) (s : State) (hp : [.svcCmds] ⊆ ps) :
    view ps (keepCompletion mac tag answer s) = view ps s := by
  simp only [List.cons_subset, List.nil_subset, and_true] at hp
  simp [keepCompletion, view, viewAon, viewHost, viewSvc, viewFlt, viewNet, viewHbm, viewRctxs, viewOctxs, viewTide, viewClk, hp]

@[simp] theorem view_chooseCore {ps : List Part} (s : State) (hp : [.freeCount] ⊆ ps) :
    view ps (chooseCore s).2 = view ps s := by
  simp only [List.cons_subset, List.nil_subset, and_true] at hp
  simp [chooseCore, view, viewAon, viewHost, viewSvc, viewFlt, viewNet, viewHbm, viewRctxs, viewOctxs, viewTide, viewClk, hp]

@[simp] theorem view_startOn {ps : List Part} (x : Exec) (s : State) (hp : [.running, .freeCount] ⊆ ps) :
    view ps (startOn x s) = view ps s := by
  simp only [List.cons_subset, List.nil_subset, and_true] at hp
  unfold startOn
  rw [view_modHost]
  · simp [hp]
  · simp [viewHost, hp]

@[simp] theorem view_startWaiting {ps : List Part} (mac : Nat) (s : State) (hp : [.running, .svcCmds, .freeCount] ⊆ ps) :
    view ps (startWaiting mac s) = view ps s := by
  simp only [List.cons_subset, List.nil_subset, and_true] at hp
  unfold startWaiting
  refine view_foldl_proj (g := Prod.snd) _ (fun a x => ?_) _ _
  dsimp only
  split
  · rfl
  · exact (view_startOn _ _ (by simp [hp])).trans (view_with_svc a.2 (by simp [viewSvc, hp]))

@[simp] theorem view_complete {ps : List Part} (r : Running) (status r0 r1 : Nat) (data : List Byte) (s : State)
    (hp : [.fatal, .qps, .evPort, .vectors, .aer, .events, .running, .eventSeq, .svcCmds, .records, .purser, .accts, .freeCount, .outbox] ⊆ ps) :
    view ps (complete r status r0 r1 data s) = view ps s := by
  simp only [List.cons_subset, List.nil_subset, and_true] at hp
  unfold complete
  dsimp only
  split <;> simp [hp]

@[simp] theorem view_queueRecord {ps : List Part} (r : RecordIn) (s : State) (hp : [.audit] ⊆ ps) :
    view ps (queueRecord r s) = view ps s := by
  simp only [List.cons_subset, List.nil_subset, and_true] at hp
  simp [queueRecord, view, viewAon, viewHost, viewSvc, viewFlt, viewNet, viewHbm, viewRctxs, viewOctxs, viewTide, viewClk, hp]

@[simp] theorem view_putSlot {ps : List Part} (i : Nat) (x : ImageSlot) (s : State) (hp : [.island] ⊆ ps) :
    view ps (putSlot i x s) = view ps s := by
  simp only [List.cons_subset, List.nil_subset, and_true] at hp
  simp [putSlot, view, viewAon, viewHost, viewSvc, viewFlt, viewNet, viewHbm, viewRctxs, viewOctxs, viewTide, viewClk, hp]

@[simp] theorem view_discardFrame {ps : List Part} (s : State) (hp : [.events, .eventSeq, .purser, .outbox] ⊆ ps) :
    view ps (discardFrame s) = view ps s := by
  simp only [List.cons_subset, List.nil_subset, and_true] at hp
  simp [discardFrame, hp]

@[simp] theorem view_answerMissing {ps : List Part} (s : State) (hp : [.freeCount] ⊆ ps) :
    view ps (answerMissing s).2 = view ps s := by
  simp only [List.cons_subset, List.nil_subset, and_true] at hp
  unfold answerMissing
  split <;> simp [hp]

@[simp] theorem view_statusFrame {ps : List Part} (mac slot status id missing detail : Nat) (s : State) (hp : [.outbox] ⊆ ps) :
    view ps (statusFrame mac slot status id missing detail s) = view ps s := by
  simp only [List.cons_subset, List.nil_subset, and_true] at hp
  simp [statusFrame, view, viewAon, viewHost, viewSvc, viewFlt, viewNet, viewHbm, viewRctxs, viewOctxs, viewTide, viewClk, hp]

@[simp] theorem view_answerImage {ps : List Part} (f : ImageFrame) (status : Nat) (s : State) (hp : [.freeCount, .outbox] ⊆ ps) :
    view ps (answerImage f status s) = view ps s := by
  simp only [List.cons_subset, List.nil_subset, and_true] at hp
  simp [answerImage, hp]

@[simp] theorem view_abortTransfer {ps : List Part} (s : State) (hp : [.island] ⊆ ps) :
    view ps (abortTransfer s) = view ps s := by
  simp only [List.cons_subset, List.nil_subset, and_true] at hp
  unfold abortTransfer
  split
  · rfl
  · exact (view_putSlot _ _ _ (by simp [hp])).trans (view_with_aon s (by simp [viewAon, hp]))

@[simp] theorem view_cutTransfer {ps : List Part} (s : State) (hp : [.island, .freeCount, .outbox] ⊆ ps) :
    view ps (cutTransfer s) = view ps s := by
  simp only [List.cons_subset, List.nil_subset, and_true] at hp
  unfold cutTransfer
  split <;> simp [hp]

@[simp] theorem view_toSlot {ps : List Part} (r : Rctx) (slot num chunk : Nat) (body : Nat → Body) (s : State) (hp : [.lands] ⊆ ps) :
    view ps (toSlot r slot num chunk body s) = view ps s := by
  simp only [List.cons_subset, List.nil_subset, and_true] at hp
  unfold toSlot
  repeat' split
  all_goals simp [hp]

@[simp] theorem view_statusSlot {ps : List Part} (ctx slot num chunk status sent expected : Nat) (s : State)
    (hp : [.lands, .accts, .rctxVals] ⊆ ps) :
    view ps (statusSlot ctx slot num chunk status sent expected s) = view ps s := by
  simp only [List.cons_subset, List.nil_subset, and_true] at hp
  unfold statusSlot
  split <;> simp [hp]

@[simp] theorem view_sendCredit {ps : List Part} (ctx slot : Nat) (s : State) (hp : [.lands, .accts, .rctxVals] ⊆ ps) :
    view ps (sendCredit ctx slot s) = view ps s := by
  simp only [List.cons_subset, List.nil_subset, and_true] at hp
  unfold sendCredit
  split <;> simp [hp]

@[simp] theorem view_dueCredit {ps : List Part} (ctx slot : Nat) (s : State) (hp : [.lands, .accts, .rctxVals] ⊆ ps) :
    view ps (dueCredit ctx slot s) = view ps s := by
  simp only [List.cons_subset, List.nil_subset, and_true] at hp
  unfold dueCredit
  split <;> simp [hp]

@[simp] theorem view_creditAll {ps : List Part} (ctx : Nat) (s : State) (hp : [.lands, .accts, .rctxVals] ⊆ ps) :
    view ps (creditAll ctx s) = view ps s := by
  simp only [List.cons_subset, List.nil_subset, and_true] at hp
  unfold creditAll
  repeat' split
  all_goals simp [view_foldl, hp]

@[simp] theorem view_addOperation {ps : List Part} (ctx num f k : Nat) (s : State) (hp : [.told, .lands, .accts, .rctxVals] ⊆ ps) :
    view ps (addOperation ctx num f k s).2 = view ps s := by
  simp only [List.cons_subset, List.nil_subset, and_true] at hp
  unfold addOperation
  dsimp only
  repeat' split
  all_goals simp [view_foldl, hp]

@[simp] theorem view_announceOp {ps : List Part} (ctx num f k : Nat) (s : State) (hp : [.told, .lands, .accts, .rctxVals] ⊆ ps) :
    view ps (announceOp ctx num f k s).2 = view ps s := by
  simp only [List.cons_subset, List.nil_subset, and_true] at hp
  unfold announceOp
  dsimp only
  repeat' split
  all_goals simp [hp]

@[simp] theorem view_deckReason {ps : List Part} (s : State) (hp : [.deck] ⊆ ps) :
    view ps (deckReason s) = view ps s := by
  simp only [List.cons_subset, List.nil_subset, and_true] at hp
  unfold deckReason
  repeat' split
  all_goals simp [view, viewAon, viewHost, viewSvc, viewFlt, viewNet, viewHbm, viewRctxs, viewOctxs, viewTide, viewClk, hp]

@[simp] theorem view_foldReason {ps : List Part} (ctx q : Nat) (s : State) (hp : [.deck, .stk] ⊆ ps) :
    view ps (foldReason ctx q s) = view ps s := by
  simp only [List.cons_subset, List.nil_subset, and_true] at hp
  simp [foldReason, hp]

@[simp] theorem view_putPosition {ps : List Part} (ctx q : Nat) (p : Position) (s : State) (hp : [.accts, .rctxVals, .deck, .stk] ⊆ ps) :
    view ps (putPosition ctx q p s) = view ps s := by
  simp only [List.cons_subset, List.nil_subset, and_true] at hp
  simp [putPosition, hp]

@[simp] theorem view_forwardPartial {ps : List Part} (ctx q : Nat) (tag : Option EmitTag) (s : State) (hp : [.lands] ⊆ ps) :
    view ps (forwardPartial ctx q tag s) = view ps s := by
  simp only [List.cons_subset, List.nil_subset, and_true] at hp
  unfold forwardPartial
  repeat' split
  all_goals simp [view_foldl, hp]

@[simp] theorem view_sendAgain {ps : List Part} (ctx q : Nat) (s : State) (hp : [.lands, .accts, .rctxVals] ⊆ ps) :
    view ps (sendAgain ctx q s) = view ps s := by
  simp only [List.cons_subset, List.nil_subset, and_true] at hp
  simp [sendAgain, hp]

@[simp] theorem view_finishAgain {ps : List Part} (ctx q : Nat) (s : State) (hp : [.lands, .accts, .rctxVals] ⊆ ps) :
    view ps (finishAgain ctx q s) = view ps s := by
  simp only [List.cons_subset, List.nil_subset, and_true] at hp
  simp [finishAgain, hp]

@[simp] theorem view_beginEmission {ps : List Part} (ctx q n : Nat) (s : State) (hp : [.accts, .rctxVals] ⊆ ps) :
    view ps (beginEmission ctx q n s) = view ps s := by
  simp only [List.cons_subset, List.nil_subset, and_true] at hp
  simp [beginEmission, hp]

@[simp] theorem view_sendResult {ps : List Part} (ctx : Nat) (o : Operation) (chunk k : Nat) (payload : List Byte) (last : Bool) (cond : BitVec 16) (tag : Option EmitTag) (s : State)
    (hp : [.lands] ⊆ ps) :
    view ps (sendResult ctx o chunk k payload last cond tag s) = view ps s := by
  simp only [List.cons_subset, List.nil_subset, and_true] at hp
  unfold sendResult
  dsimp only
  repeat' split
  all_goals simp [hp]

@[simp] theorem view_emitResult {ps : List Part} (ctx q : Nat) (s : State) (hp : [.lands, .accts, .rctxVals, .deck, .stk] ⊆ ps) :
    view ps (emitResult ctx q s) = view ps s := by
  simp only [List.cons_subset, List.nil_subset, and_true] at hp
  unfold emitResult
  repeat' split
  all_goals simp [view_foldl, hp]

@[simp] theorem view_advanceWindow {ps : List Part} (ctx : Nat) (s : State) (hp : [.lands, .accts, .rctxVals] ⊆ ps) :
    view ps (advanceWindow ctx s) = view ps s := by
  simp only [List.cons_subset, List.nil_subset, and_true] at hp
  unfold advanceWindow
  split <;> simp [hp]

@[simp] theorem view_releasePosition {ps : List Part} (ctx q : Nat) (s : State) (hp : [.lands, .accts, .rctxVals] ⊆ ps) :
    view ps (releasePosition ctx q s) = view ps s := by
  simp only [List.cons_subset, List.nil_subset, and_true] at hp
  unfold releasePosition
  repeat' split
  all_goals simp [hp]

@[simp] theorem view_touchRange {ps : List Part} (x : Nat × Nat) (s : State) (hp : [.stk] ⊆ ps) :
    view ps (touchRange x s) = view ps s := by
  simp only [List.cons_subset, List.nil_subset, and_true] at hp
  simp [touchRange, view_foldl, hp]

@[simp] theorem view_holdPosition {ps : List Part} (ctx q : Nat) (s : State) (hp : [.accts, .rctxVals] ⊆ ps) :
    view ps (holdPosition ctx q s) = view ps s := by
  simp only [List.cons_subset, List.nil_subset, and_true] at hp
  simp [holdPosition, hp]

@[simp] theorem view_tellContributors {ps : List Part} (ctx q status sent expected : Nat) (s : State)
    (hp : [.lands, .accts, .rctxVals] ⊆ ps) :
    view ps (tellContributors ctx q status sent expected s) = view ps s := by
  simp only [List.cons_subset, List.nil_subset, and_true] at hp
  unfold tellContributors
  repeat' split
  all_goals simp [view_foldl, hp]

@[simp] theorem view_placeChunk {ps : List Part} (ctx q : Nat) (s : State)
    (hp : [.events, .eventSeq, .purser, .lands, .accts, .rctxVals, .deck, .stk, .outbox] ⊆ ps) :
    view ps (placeChunk ctx q s) = view ps s := by
  simp only [List.cons_subset, List.nil_subset, and_true] at hp
  unfold placeChunk
  split
  · rfl
  · split
    · dsimp only
      split
      · simp [hp]
      · split
        · refine (view_deckReason _ (by simp [hp])).trans ((view_with_deck _ (by simp [hp])).trans ?_)
          simp [hp]
        · split <;> simp [hp]
    · rfl

@[simp] theorem view_completeChunk {ps : List Part} (ctx q : Nat) (s : State)
    (hp : [.events, .eventSeq, .purser, .lands, .accts, .rctxVals, .deck, .stk, .outbox] ⊆ ps) :
    view ps (completeChunk ctx q s) = view ps s := by
  simp only [List.cons_subset, List.nil_subset, and_true] at hp
  unfold completeChunk
  repeat' split
  all_goals simp [hp]

@[simp] theorem view_recheckHeld {ps : List Part} (ctx : Nat) (s : State)
    (hp : [.events, .eventSeq, .purser, .lands, .accts, .rctxVals, .deck, .stk, .outbox] ⊆ ps) :
    view ps (recheckHeld ctx s) = view ps s := by
  simp only [List.cons_subset, List.nil_subset, and_true] at hp
  unfold recheckHeld
  repeat' split
  all_goals simp [view_foldl, hp]

@[simp] theorem view_statusBack {ps : List Part} (who : Sender) (p : Packet) (status sent expected : Nat) (s : State) (hp : [.lands] ⊆ ps) :
    view ps (statusBack who p status sent expected s) = view ps s := by
  simp only [List.cons_subset, List.nil_subset, and_true] at hp
  unfold statusBack
  split <;> simp [hp]

@[simp] theorem view_statusOnce {ps : List Part} (who : Sender) (p : Packet) (status sent expected : Nat) (s : State)
    (hp : [.told, .lands, .accts, .rctxVals] ⊆ ps) :
    view ps (statusOnce who p status sent expected s) = view ps s := by
  simp only [List.cons_subset, List.nil_subset, and_true] at hp
  have hnet (t : List Told) : view ps { s with net := { s.net with told := t } } = view ps s :=
    view_with_net s (by simp [viewNet, hp])
  unfold statusOnce
  dsimp only
  repeat' split
  all_goals simp [hp, hnet]

@[simp] theorem view_dispose {ps : List Part} (row : Nat) (status : Option Nat) (who : Sender) (p : Packet) (sent expected : Nat) (s : State)
    (hp : [.events, .eventSeq, .purser, .told, .lands, .accts, .rctxVals, .outbox] ⊆ ps) :
    view ps (dispose row status who p sent expected s) = view ps s := by
  simp only [List.cons_subset, List.nil_subset, and_true] at hp
  unfold dispose
  split <;> simp [hp]

@[simp] theorem view_noteStale {ps : List Part} (octx ctx : Nat) (p : Packet) (s : State)
    (hp : [.events, .eventSeq, .purser, .accts, .octxVals, .outbox] ⊆ ps) :
    view ps (noteStale octx ctx p s) = view ps s := by
  simp only [List.cons_subset, List.nil_subset, and_true] at hp
  unfold noteStale
  dsimp only
  split <;> simp [hp]

@[simp] theorem view_dropContribution {ps : List Part} (ctx q slot : Nat) (s : State) (hp : [.accts, .rctxVals] ⊆ ps) :
    view ps (dropContribution ctx q slot s) = view ps s := by
  simp only [List.cons_subset, List.nil_subset, and_true] at hp
  simp [dropContribution, hp]

@[simp] theorem view_stagePacket {ps : List Part} (ctx q slot : Nat) (o : Operation) (who : Sender) (p : Packet) (s : State)
    (hp : [.events, .eventSeq, .purser, .told, .lands, .accts, .rctxVals, .deck, .stk, .outbox] ⊆ ps) :
    view ps (stagePacket ctx q slot o who p s) = view ps s := by
  simp only [List.cons_subset, List.nil_subset, and_true] at hp
  unfold stagePacket
  split <;> simp [hp]

@[simp] theorem view_lateTrailer {ps : List Part} (ctx q slot : Nat) (p : Packet) (s : State)
    (hp : [.events, .eventSeq, .purser, .accts, .rctxVals, .outbox] ⊆ ps) :
    view ps (lateTrailer ctx q slot p s) = view ps s := by
  simp only [List.cons_subset, List.nil_subset, and_true] at hp
  simp [lateTrailer, hp]

@[simp] theorem view_noteLate {ps : List Part} (r : Rctx) (s : State) (hp : [.accts, .octxVals] ⊆ ps) :
    view ps (noteLate r s) = view ps s := by
  simp only [List.cons_subset, List.nil_subset, and_true] at hp
  unfold noteLate
  split <;> simp [hp]

@[simp] theorem view_judgeContribution {ps : List Part} (ctx q slot : Nat) (o : Operation) (who : Sender) (p : Packet) (s : State)
    (hp : [.events, .eventSeq, .purser, .told, .lands, .accts, .rctxVals, .octxVals, .deck, .stk, .outbox] ⊆ ps) :
    view ps (judgeContribution ctx q slot o who p s) = view ps s := by
  simp only [List.cons_subset, List.nil_subset, and_true] at hp
  unfold judgeContribution
  split <;> simp [hp]

@[simp] theorem view_takeContribution {ps : List Part} (who : Sender) (p : Packet) (s : State)
    (hp : [.events, .eventSeq, .purser, .told, .lands, .accts, .rctxVals, .octxVals, .deck, .stk, .outbox] ⊆ ps) :
    view ps (takeContribution who p s) = view ps s := by
  simp only [List.cons_subset, List.nil_subset, and_true] at hp
  unfold takeContribution
  extract_lets h ctx
  split
  · simp [hp]
  split
  · simp [hp]
  split
  · simp [hp]
  split
  · simp [hp]
  extract_lets tells linked v
  split
  · simp [hp]
  split
  · simp [hp]
  rename_i u _ _ _
  have hu : view ps u = view ps s := by
    unfold u
    split <;> simp [hp]
  clear_value u
  repeat' split
  all_goals simp [hp, hu]

@[simp] theorem view_takeContribute {ps : List Part} (hawser : Nat) (n : Naming) (p : Packet) (s : State)
    (hp : [.events, .eventSeq, .purser, .told, .lands, .accts, .rctxVals, .octxVals, .outbox] ⊆ ps) :
    view ps (takeContribute hawser n p s) = view ps s := by
  simp only [List.cons_subset, List.nil_subset, and_true] at hp
  unfold takeContribute
  repeat' split
  all_goals simp [hp]

@[simp] theorem view_resendRefused {ps : List Part} (ctx : Nat) (s : State) (hp : [.lands, .accts, .rctxVals, .deck, .stk] ⊆ ps) :
    view ps (resendRefused ctx s) = view ps s := by
  simp only [List.cons_subset, List.nil_subset, and_true] at hp
  unfold resendRefused
  repeat' split
  all_goals simp [view_foldl, hp]

@[simp] theorem view_releaseCredited {ps : List Part} (ctx : Nat) (s : State) (hp : [.lands, .accts, .rctxVals] ⊆ ps) :
    view ps (releaseCredited ctx s) = view ps s := by
  simp only [List.cons_subset, List.nil_subset, and_true] at hp
  unfold releaseCredited
  repeat' split
  all_goals simp [view_foldl, hp]

@[simp] theorem view_takeCredit {ps : List Part} (p : Packet) (s : State) (hp : [.lands, .accts, .rctxVals, .deck, .stk] ⊆ ps) :
    view ps (takeCredit p s) = view ps s := by
  simp only [List.cons_subset, List.nil_subset, and_true] at hp
  unfold takeCredit
  repeat' split
  all_goals simp [hp]

@[simp] theorem view_takeResend {ps : List Part} (p : Packet) (s : State) (hp : [.lands, .accts, .rctxVals] ⊆ ps) :
    view ps (takeResend p s) = view ps s := by
  simp only [List.cons_subset, List.nil_subset, and_true] at hp
  unfold takeResend
  repeat' split
  all_goals simp [hp]

@[simp] theorem view_takeStatus {ps : List Part} (p : Packet) (s : State) (hp : [.lands, .accts, .rctxVals, .deck, .stk] ⊆ ps) :
    view ps (takeStatus p s) = view ps s := by
  simp only [List.cons_subset, List.nil_subset, and_true] at hp
  unfold takeStatus
  repeat' split
  all_goals simp [hp]

@[simp] theorem view_takeRingStop {ps : List Part} (p : Packet) (s : State)
    (hp : [.fatal, .events, .eventSeq, .records, .purser, .lands, .accts, .rctxVals, .freeCount, .outbox] ⊆ ps) :
    view ps (takeRingStop p s) = view ps s := by
  simp only [List.cons_subset, List.nil_subset, and_true] at hp
  unfold takeRingStop
  repeat' split
  all_goals simp [hp]

@[simp] theorem view_takeResult {ps : List Part} (p : Packet) (s : State) (hp : [.lands] ⊆ ps) :
    view ps (takeResult p s) = view ps s := by
  simp only [List.cons_subset, List.nil_subset, and_true] at hp
  unfold takeResult
  dsimp only
  repeat' split
  all_goals simp [hp]

@[simp] theorem view_deckWorks {ps : List Part} (s : State) (hp : [.deck] ⊆ ps) :
    view ps (deckWorks s) = view ps s := by
  simp only [List.cons_subset, List.nil_subset, and_true] at hp
  simp [deckWorks, view, viewAon, viewHost, viewSvc, viewFlt, viewNet, viewHbm, viewRctxs, viewOctxs, viewTide, viewClk, hp]

@[simp] theorem view_startFold {ps : List Part} (c q : Nat) (s : State) (hp : [.accts, .rctxVals, .deck] ⊆ ps) :
    view ps (startFold c q s) = view ps s := by
  simp only [List.cons_subset, List.nil_subset, and_true] at hp
  unfold startFold
  split
  · rfl
  · exact (view_deckWorks _ (by simp [hp])).trans ((view_with_deck _ (by simp [hp])).trans (view_modRctx _ _ s (by simp [hp])))

@[simp] theorem view_foldOutput {ps : List Part} (c q : Nat) (slots : List Nat) (s : State)
    (hp : [.events, .eventSeq, .purser, .lands, .accts, .rctxVals, .deck, .stk, .outbox] ⊆ ps) :
    view ps (foldOutput c q slots s) = view ps s := by
  simp only [List.cons_subset, List.nil_subset, and_true] at hp
  unfold foldOutput
  repeat' split
  all_goals simp [hp]

@[simp] theorem view_defer {ps : List Part} (d : Deferred) (s : State) (hp : [.deferred] ⊆ ps) :
    view ps (defer d s) = view ps s := by
  simp only [List.cons_subset, List.nil_subset, and_true] at hp
  simp [defer, view, viewAon, viewHost, viewSvc, viewFlt, viewNet, viewHbm, viewRctxs, viewOctxs, viewTide, viewClk, hp]

@[simp] theorem view_setRanks {ps : List Part} (j base n : Nat) (ws : List (BitVec 32)) (s : State) (hp : [.jobs, .net, .freeCount] ⊆ ps) :
    view ps (setRanks j base n ws s) = view ps s := by
  simp only [List.cons_subset, List.nil_subset, and_true] at hp
  simp [setRanks, view, viewAon, viewHost, viewSvc, viewFlt, viewNet, viewHbm, viewRctxs, viewOctxs, viewTide, viewClk, hp]

@[simp] theorem view_withdrawLane {ps : List Part} (mine : Option EmitTag → Bool) (x : Crossing) (lane : Nat) (s : State)
    (hp : [.lands, .xings] ⊆ ps) :
    view ps (withdrawLane mine x lane s) = view ps s := by
  simp only [List.cons_subset, List.nil_subset, and_true] at hp
  simp [withdrawLane, hp]

@[simp] theorem view_withdraw {ps : List Part} (ctx : Nat) (qs : List Nat) (s : State) (hp : [.lands, .xings] ⊆ ps) :
    view ps (withdraw ctx qs s) = view ps s := by
  simp only [List.cons_subset, List.nil_subset, and_true] at hp
  have hxl (u : State) (x : List Crossing) (l : Tab Landing) : view ps { u with lands := l, xings := x } = view ps u := by
    simp [view, hp]
  unfold withdraw
  refine (hxl _ _ _).trans (view_foldl _ (fun s x => view_foldl _ (fun s i => ?_) _ s) _ s)
  simp [hp]

@[simp] theorem view_applyReform {ps : List Part} (ctx map : Nat) (s : State) (hp : [.lands, .xings, .accts, .rctxVals, .deck] ⊆ ps) :
    view ps (applyReform ctx map s) = view ps s := by
  simp only [List.cons_subset, List.nil_subset, and_true] at hp
  unfold applyReform
  split
  · rfl
  · refine (view_advanceWindow _ _ (by simp [hp])).trans ((view_foldl _ (fun s p => view_foldl _ (fun s i => ?_) _ s) _ _).trans ?_)
    · simp [hp]
    · refine (view_modRctx _ _ _ (by simp [hp])).trans ((view_withdraw _ _ _ (by simp [hp])).trans (view_with_deck _ (by simp [hp])))

@[simp] theorem view_modChunk {ps : List Part} (octx seg j : Nat) (f : ChunkState → ChunkState) (s : State)
    (hp : [.accts, .octxVals] ⊆ ps) :
    view ps (modChunk octx seg j f s) = view ps s := by
  simp only [List.cons_subset, List.nil_subset, and_true] at hp
  simp [modChunk, hp]

@[simp] theorem view_modEntry {ps : List Part} (octx seg j b : Nat) (f : ChunkEntry → ChunkEntry) (s : State)
    (hp : [.accts, .octxVals] ⊆ ps) :
    view ps (modEntry octx seg j b f s) = view ps s := by
  simp only [List.cons_subset, List.nil_subset, and_true] at hp
  simp [modEntry, hp]

@[simp] theorem view_stageImage {ps : List Part} (k : Nat) (im : Image) (s : State) (hp : [.stk] ⊆ ps) :
    view ps (stageImage k im s) = view ps s := by
  simp only [List.cons_subset, List.nil_subset, and_true] at hp
  simp [stageImage, view, viewAon, viewHost, viewSvc, viewFlt, viewNet, viewHbm, viewRctxs, viewOctxs, viewTide, viewClk, hp]

@[simp] theorem view_mapImages {ps : List Part} (f : Image → Option Image) (s : State) (hp : [.stk] ⊆ ps) :
    view ps (mapImages f s) = view ps s := by
  simp only [List.cons_subset, List.nil_subset, and_true] at hp
  simp [mapImages, view, viewAon, viewHost, viewSvc, viewFlt, viewNet, viewHbm, viewRctxs, viewOctxs, viewTide, viewClk, hp]

@[simp] theorem view_sendGather {ps : List Part} (r : Rctx) (g : GatherPiece) (tag : Option EmitTag) (s : State) (hp : [.lands] ⊆ ps) :
    view ps (sendGather r g tag s) = view ps s := by
  simp only [List.cons_subset, List.nil_subset, and_true] at hp
  unfold sendGather
  split <;> simp [hp]

@[simp] theorem view_pushImage {ps : List Part} (octx q : Nat) (im : Image) (s : State) (hp : [.lands, .accts, .rctxVals] ⊆ ps) :
    view ps (pushImage octx q im s) = view ps s := by
  simp only [List.cons_subset, List.nil_subset, and_true] at hp
  unfold pushImage
  repeat' split
  all_goals simp [view_foldl, hp]

@[simp] theorem view_replyGather {ps : List Part} (r : Rctx) (o : Octx) (op : Operation) (chunk : Nat) (w : GatherWait) (im : Image) (s : State)
    (hp : [.lands] ⊆ ps) :
    view ps (replyGather r o op chunk w im s) = view ps s := by
  simp only [List.cons_subset, List.nil_subset, and_true] at hp
  simp [replyGather, view_foldl, hp]

@[simp] theorem view_putPeer {ps : List Part} (octx i : Nat) (p : PeerState) (s : State) (hp : [.accts, .octxVals] ⊆ ps) :
    view ps (putPeer octx i p s) = view ps s := by
  simp only [List.cons_subset, List.nil_subset, and_true] at hp
  simp [putPeer, hp]

@[simp] theorem view_sendBeacon {ps : List Part} (octx i kind step : Nat) (norms : Option Norms) (s : State) (hp : [.lands] ⊆ ps) :
    view ps (sendBeacon octx i kind step norms s) = view ps s := by
  simp only [List.cons_subset, List.nil_subset, and_true] at hp
  unfold sendBeacon
  repeat' split
  all_goals simp [view_foldl, hp]

@[simp] theorem view_sendReady {ps : List Part} (octx : Nat) (s : State) (hp : [.lands, .accts, .octxVals] ⊆ ps) :
    view ps (sendReady octx s) = view ps s := by
  simp only [List.cons_subset, List.nil_subset, and_true] at hp
  unfold sendReady
  repeat' split
  all_goals simp [view_foldl, hp]

@[simp] theorem view_sealIfWritten {ps : List Part} (octx : Nat) (s : State) (hp : [.accts, .rctxVals, .octxVals] ⊆ ps) :
    view ps (sealIfWritten octx s) = view ps s := by
  simp only [List.cons_subset, List.nil_subset, and_true] at hp
  unfold sealIfWritten
  repeat' split
  all_goals simp [hp]

@[simp] theorem view_discardHeld {ps : List Part} (ctx : Nat) (all : Bool) (s : State)
    (hp : [.lands, .accts, .rctxVals, .deck, .writes] ⊆ ps) :
    view ps (discardHeld ctx all s) = view ps s := by
  simp only [List.cons_subset, List.nil_subset, and_true] at hp
  have hw (d : Deck) (w : List RecordWrite) : view ps { s with deck := d, hbm := { s.hbm with writes := w } } = view ps s := by
    simp [view, viewHbm, hp]
  unfold discardHeld
  split
  · rfl
  · refine (view_foldl _ (fun s q => ?_) _ _).trans (hw _ _)
    simp [hp]

@[simp] theorem view_restartAccount {ps : List Part} (octx ctx : Nat) (s : State) (hp : [.accts, .rctxVals, .octxVals] ⊆ ps) :
    view ps (restartAccount octx ctx s) = view ps s := by
  simp only [List.cons_subset, List.nil_subset, and_true] at hp
  simp [restartAccount, hp]

@[simp] theorem view_writeBankPart {ps : List Part} (d : ODesc) (gs : List Segment) (b off : Nat) (bs : List Byte) (s : State)
    (hp : [.mem] ⊆ ps) :
    view ps (writeBankPart d gs b off bs s) = view ps s := by
  unfold writeBankPart
  refine view_foldl _ (fun s x => ?_) _ s
  split <;> simp [hp]

@[simp] theorem view_applyMove {ps : List Part} (octx part off : Nat) (bs : List Byte) (s : State) (hp : [.accts, .octxVals, .mem] ⊆ ps) :
    view ps (applyMove octx part off bs s) = view ps s := by
  simp only [List.cons_subset, List.nil_subset, and_true] at hp
  unfold applyMove
  repeat' split
  all_goals simp [hp]

@[simp] theorem view_sendMove {ps : List Part} (octx : Nat) (m : Move) (s : State) (hp : [.lands, .accts, .octxVals, .mem] ⊆ ps) :
    view ps (sendMove octx m s) = view ps s := by
  simp only [List.cons_subset, List.nil_subset, and_true] at hp
  unfold sendMove
  repeat' split
  all_goals simp [view_foldl, hp]

@[simp] theorem view_confirmIfHeld {ps : List Part} (octx : Nat) (s : State)
    (hp : [.events, .eventSeq, .purser, .lands, .accts, .rctxVals, .octxVals, .deck, .stk, .outbox] ⊆ ps) :
    view ps (confirmIfHeld octx s) = view ps s := by
  simp only [List.cons_subset, List.nil_subset, and_true] at hp
  unfold confirmIfHeld
  split <;> simp [hp]

@[simp] theorem view_fenceNow {ps : List Part} (octx : Nat) (s : State)
    (hp : [.events, .eventSeq, .purser, .lands, .accts, .rctxVals, .octxVals, .deck, .mem, .writes, .outbox] ⊆ ps) :
    view ps (fenceNow octx s) = view ps s := by
  simp only [List.cons_subset, List.nil_subset, and_true] at hp
  unfold fenceNow
  repeat' split
  all_goals simp [view_foldl, hp]

@[simp] theorem view_commitStep {ps : List Part} (octx : Nat) (s : State)
    (hp : [.fatal, .qps, .evPort, .vectors, .aer, .events, .running, .eventSeq, .svcCmds, .records, .purser, .lands, .accts, .rctxVals, .octxVals, .deck, .mem, .stk, .writes, .audit, .freeCount, .outbox] ⊆ ps) :
    view ps (commitStep octx s) = view ps s := by
  simp only [List.cons_subset, List.nil_subset, and_true] at hp
  unfold commitStep
  repeat' split
  all_goals simp [view_foldl, hp]

@[simp] theorem view_tryCommit {ps : List Part} (octx : Nat) (s : State)
    (hp : [.fatal, .qps, .evPort, .vectors, .aer, .events, .running, .eventSeq, .svcCmds, .records, .purser, .lands, .accts, .rctxVals, .octxVals, .deck, .mem, .stk, .writes, .audit, .freeCount, .outbox] ⊆ ps) :
    view ps (tryCommit octx s) = view ps s := by
  simp only [List.cons_subset, List.nil_subset, and_true] at hp
  unfold tryCommit
  split <;> simp [hp]

@[simp] theorem view_splitStep {ps : List Part} (octx peer reason peerStep status r0 r1 : Nat) (s : State)
    (hp : [.fatal, .qps, .evPort, .vectors, .aer, .events, .running, .eventSeq, .svcCmds, .records, .purser, .accts, .octxVals, .freeCount, .outbox] ⊆ ps) :
    view ps (splitStep octx peer reason peerStep status r0 r1 s) = view ps s := by
  simp only [List.cons_subset, List.nil_subset, and_true] at hp
  unfold splitStep
  repeat' split
  all_goals simp [hp]

@[simp] theorem view_afterWrite {ps : List Part} (octx : Nat) (s : State)
    (hp : [.fatal, .qps, .evPort, .vectors, .aer, .events, .running, .eventSeq, .svcCmds, .records, .purser, .lands, .accts, .rctxVals, .octxVals, .deck, .mem, .stk, .writes, .audit, .freeCount, .outbox] ⊆ ps) :
    view ps (afterWrite octx s) = view ps s := by
  simp only [List.cons_subset, List.nil_subset, and_true] at hp
  unfold afterWrite
  dsimp only
  split <;> simp [hp]

@[simp] theorem view_takeNorm {ps : List Part} (p : Packet) (s : State) (hp : [.accts, .octxVals] ⊆ ps) :
    view ps (takeNorm p s) = view ps s := by
  simp only [List.cons_subset, List.nil_subset, and_true] at hp
  unfold takeNorm
  dsimp only
  split <;> simp [hp]

@[simp] theorem view_takeBeacon {ps : List Part} (p : Packet) (s : State)
    (hp : [.fatal, .qps, .evPort, .vectors, .aer, .events, .running, .eventSeq, .svcCmds, .records, .purser, .lands, .accts, .rctxVals, .octxVals, .deck, .mem, .stk, .writes, .audit, .freeCount, .outbox] ⊆ ps) :
    view ps (takeBeacon p s) = view ps s := by
  simp only [List.cons_subset, List.nil_subset, and_true] at hp
  unfold takeBeacon
  dsimp only
  repeat' split
  all_goals simp [hp]

@[simp] theorem view_takeMove {ps : List Part} (p : Packet) (s : State) (hp : [.accts, .octxVals, .mem] ⊆ ps) :
    view ps (takeMove p s) = view ps s := by
  simp only [List.cons_subset, List.nil_subset, and_true] at hp
  unfold takeMove
  dsimp only
  split <;> simp [hp]

@[simp] theorem view_takeGather {ps : List Part} (p : Packet) (s : State) (hp : [.lands] ⊆ ps) :
    view ps (takeGather p s) = view ps s := by
  simp only [List.cons_subset, List.nil_subset, and_true] at hp
  unfold takeGather
  dsimp only
  repeat' split
  all_goals simp [hp]

@[simp] theorem view_answerRequest {ps : List Part} (who : Sender) (p : Packet) (status : Nat) (s : State) (hp : [.lands] ⊆ ps) :
    view ps (answerRequest who p status s) = view ps s := by
  simp only [List.cons_subset, List.nil_subset, and_true] at hp
  simp [answerRequest, hp]

@[simp] theorem view_queueGather {ps : List Part} (octx seg j b : Nat) (s : State) (hp : [.deck, .stk] ⊆ ps) :
    view ps (queueGather octx seg j b s) = view ps s := by
  simp only [List.cons_subset, List.nil_subset, and_true] at hp
  unfold queueGather
  dsimp only
  split
  · rfl
  · refine (view_deckReason _ (by simp [hp])).trans ((view_with_deck _ (by simp [hp])).trans (view_foldl _ (fun s x => ?_) _ s))
    simp [hp]

@[simp] theorem view_takeGatherReq {ps : List Part} (who : Sender) (p : Packet) (s : State)
    (hp : [.events, .eventSeq, .purser, .lands, .accts, .octxVals, .deck, .stk, .waits, .outbox] ⊆ ps) :
    view ps (takeGatherReq who p s) = view ps s := by
  simp only [List.cons_subset, List.nil_subset, and_true] at hp
  have hwaits (w : List GatherWait) : view ps { s with hbm := { s.hbm with waits := w } } = view ps s :=
    view_with_hbm s (by simp [viewHbm, hp])
  unfold takeGatherReq
  dsimp only
  repeat' split
  all_goals simp [hp, hwaits]

@[simp] theorem view_takeDrawReq {ps : List Part} (hawser : Nat) (p : Packet) (s : State) (hp : [.lands] ⊆ ps) :
    view ps (takeDrawReq hawser p s) = view ps s := by
  simp only [List.cons_subset, List.nil_subset, and_true] at hp
  unfold takeDrawReq
  split <;> simp [hp]

@[simp] theorem view_flushWrites {ps : List Part} (octx : Nat) (s : State) (hp : [.mem, .writes] ⊆ ps) :
    view ps (flushWrites octx s) = view ps s := by
  simp only [List.cons_subset, List.nil_subset, and_true] at hp
  unfold flushWrites
  refine (view_with_hbm _ ?_).trans (view_foldl _ (fun s w => ?_) _ s)
  · simp [viewHbm, hp]
  · simp [hp]

@[simp] theorem view_unqueue {ps : List Part} (w : Sweep) (s : State) (hp : [.deck] ⊆ ps) :
    view ps (unqueue w s) = view ps s := by
  simp only [List.cons_subset, List.nil_subset, and_true] at hp
  simp [unqueue, view, viewAon, viewHost, viewSvc, viewFlt, viewNet, viewHbm, viewRctxs, viewOctxs, viewTide, viewClk, hp]

@[simp] theorem view_updateChunk {ps : List Part} (ctx q : Nat) (s : State) (hp : [.accts, .rctxVals, .octxVals, .stk, .writes] ⊆ ps) :
    view ps (updateChunk ctx q s) = view ps s := by
  simp only [List.cons_subset, List.nil_subset, and_true] at hp
  have hwrites (u : State) (w : List RecordWrite) : view ps { u with hbm := { u.hbm with writes := w } } = view ps u :=
    view_with_hbm u (by simp [viewHbm, hp])
  have hite (c : Prop) [Decidable c] (u : State) (k : Nat) (im : Image) (hu : view ps u = view ps s) :
      view ps (if c then u else stageImage k im u) = view ps s := by
    split <;> simp [hp, hu]
  unfold updateChunk
  split
  · rfl
  split
  · split
    · rfl
    · refine hite _ _ _ _ ((view_touchRange _ _ (by simp [hp])).trans ((hwrites _ _).trans ?_))
      simp [hp]
  · rfl

@[simp] theorem view_failWaits {ps : List Part} (f : GatherWait → Bool) (status : Nat) (s : State) (hp : [.lands, .waits] ⊆ ps) :
    view ps (failWaits f status s) = view ps s := by
  simp only [List.cons_subset, List.nil_subset, and_true] at hp
  unfold failWaits
  refine (view_foldl _ (fun s w => ?_) _ _).trans (view_with_hbm s ?_)
  · dsimp only
    split <;> simp [hp]
  · simp [viewHbm, hp]

@[simp] theorem view_serveWaits {ps : List Part} (octx seg j b : Nat) (im : Image) (s : State) (hp : [.lands, .waits] ⊆ ps) :
    view ps (serveWaits octx seg j b im s) = view ps s := by
  simp only [List.cons_subset, List.nil_subset, and_true] at hp
  have hwaits (w : List GatherWait) : view ps { s with hbm := { s.hbm with waits := w } } = view ps s :=
    view_with_hbm s (by simp [viewHbm, hp])
  unfold serveWaits
  dsimp only
  split
  · exact hwaits _
  · split
    · exact hwaits _
    · exact (view_foldl _ (fun s w => view_replyGather _ _ _ _ _ _ s (by simp [hp])) _ _).trans (hwaits _)

@[simp] theorem view_gatherNew {ps : List Part} (octx seg j b : Nat) (r : Rctx) (o : Octx) (op : Operation) (s : State)
    (hp : [.accts, .octxVals, .stk] ⊆ ps) :
    view ps (gatherNew octx seg j b r o op s) = view ps s := by
  simp only [List.cons_subset, List.nil_subset, and_true] at hp
  simp [gatherNew, hp]

@[simp] theorem view_gatherAgain {ps : List Part} (octx seg j b : Nat) (r : Rctx) (o : Octx) (op : Operation) (s : State)
    (hp : [.lands, .accts, .octxVals, .stk, .waits] ⊆ ps) :
    view ps (gatherAgain octx seg j b r o op s) = view ps s := by
  simp only [List.cons_subset, List.nil_subset, and_true] at hp
  simp [gatherAgain, hp]

@[simp] theorem view_gatherChunk {ps : List Part} (octx seg j b : Nat) (s : State) (hp : [.lands, .accts, .octxVals, .stk, .waits] ⊆ ps) :
    view ps (gatherChunk octx seg j b s) = view ps s := by
  simp only [List.cons_subset, List.nil_subset, and_true] at hp
  unfold gatherChunk
  repeat' split
  all_goals simp [view_foldl, hp]

@[simp] theorem view_queueRow {ps : List Part} (octx seg j t : Nat) (s : State) (hp : [.deck, .stk] ⊆ ps) :
    view ps (queueRow octx seg j t s) = view ps s := by
  simp only [List.cons_subset, List.nil_subset, and_true] at hp
  unfold queueRow
  repeat' split
  all_goals simp [hp]

@[simp] theorem view_showVersion {ps : List Part} (octx : Nat) (im : Image) (s : State) (hp : [.lands, .accts, .rctxVals, .octxVals] ⊆ ps) :
    view ps (showVersion octx im s) = view ps s := by
  simp only [List.cons_subset, List.nil_subset, and_true] at hp
  unfold showVersion
  dsimp only
  split <;> simp [hp]

@[simp] theorem view_installImage {ps : List Part} (octx : Nat) (r : Rctx) (o : Octx) (f : Fence) (key b : Nat) (s : State)
    (hp : [.stk] ⊆ ps) :
    view ps (installImage octx r o f key b s) = view ps s := by
  simp only [List.cons_subset, List.nil_subset, and_true] at hp
  simp [installImage, hp]

@[simp] theorem view_queueTo {ps : List Part} (l : Nat) (p : Packet) (h : Nat) (slip : Option Nat) (originated : Bool) (emit : Option EmitTag) (s : State)
    (hp : [.lands, .outbox] ⊆ ps) :
    view ps (queueTo l p h slip originated emit s) = view ps s := by
  simp only [List.cons_subset, List.nil_subset, and_true] at hp
  simp [queueTo, hp]

@[simp] theorem view_returnTag {ps : List Part} (p : Packet) (emit : Option EmitTag) (s : State)
    (hp : [.xings, .accts, .rctxVals, .outbox] ⊆ ps) :
    view ps (returnTag p emit s) = view ps s := by
  simp only [List.cons_subset, List.nil_subset, and_true] at hp
  unfold returnTag
  repeat' split
  all_goals simp [hp]

@[simp] theorem view_dropUnrouted {ps : List Part} (l : Nat) (p : Packet) (emit : Option EmitTag) (s : State)
    (hp : [.events, .eventSeq, .purser, .xings, .accts, .rctxVals, .outbox] ⊆ ps) :
    view ps (dropUnrouted l p emit s) = view ps s := by
  simp only [List.cons_subset, List.nil_subset, and_true] at hp
  simp [dropUnrouted, hp]

@[simp] theorem view_routeOrDrop {ps : List Part} (l : Nat) (p : Packet) (slip : Option Nat) (originated : Bool) (emit : Option EmitTag) (s : State)
    (hp : [.events, .eventSeq, .purser, .lands, .xings, .accts, .rctxVals, .outbox] ⊆ ps) :
    view ps (routeOrDrop l p slip originated emit s) = view ps s := by
  simp only [List.cons_subset, List.nil_subset, and_true] at hp
  unfold routeOrDrop
  repeat' split
  all_goals simp [hp]

@[simp] theorem view_transit {ps : List Part} (a : Arrival) (s : State)
    (hp : [.events, .eventSeq, .purser, .lands, .xings, .accts, .rctxVals, .outbox] ⊆ ps) :
    view ps (transit a s) = view ps s := by
  simp only [List.cons_subset, List.nil_subset, and_true] at hp
  simp [transit, hp]

@[simp] theorem view_handUp {ps : List Part} (a : Arrival) (s : State) (hp : [.lands] ⊆ ps) :
    view ps (handUp a s) = view ps s := by
  simp only [List.cons_subset, List.nil_subset, and_true] at hp
  simp [handUp, view, viewAon, viewHost, viewSvc, viewFlt, viewNet, viewHbm, viewRctxs, viewOctxs, viewTide, viewClk, hp]

@[simp] theorem view_dropArrival {ps : List Part} (a : Arrival) (s : State) (hp : [.lands] ⊆ ps) :
    view ps (dropArrival a s) = view ps s := by
  simp only [List.cons_subset, List.nil_subset, and_true] at hp
  simp [dropArrival, view, viewAon, viewHost, viewSvc, viewFlt, viewNet, viewHbm, viewRctxs, viewOctxs, viewTide, viewClk, hp]

@[simp] theorem view_noteReply {ps : List Part} (h : Nat) (p : Packet) (s : State) (hp : [.asked] ⊆ ps) :
    view ps (noteReply h p s) = view ps s := by
  simp only [List.cons_subset, List.nil_subset, and_true] at hp
  unfold noteReply
  repeat' split
  all_goals simp [view, viewAon, viewHost, viewSvc, viewFlt, viewNet, viewHbm, viewRctxs, viewOctxs, viewTide, viewClk, hp]

@[simp] theorem view_elementBytes {ps : List Part} (s : State) (p : Packet) (extent : Nat) (hp : [.freeCount] ⊆ ps) :
    view ps (elementBytes s p extent).2 = view ps s := by
  simp only [List.cons_subset, List.nil_subset, and_true] at hp
  unfold elementBytes
  split <;> simp [hp]

@[simp] theorem view_elementRange {ps : List Part} (h : Nat) (p : Packet) (s : State) (hp : [.freeCount] ⊆ ps) :
    view ps (elementRange h p s).2.2 = view ps s := by
  unfold elementRange
  repeat' split
  all_goals simp [hp]

@[simp] theorem view_landingAfter {ps : List Part} (h : Nat) (p : Packet) (s : State) (hp : [.freeCount] ⊆ ps) :
    view ps (landingAfter h p s).2 = view ps s := by
  unfold landingAfter
  dsimp only
  repeat' split
  all_goals simp [hp]

@[simp] theorem view_sendDone {ps : List Part} (status : Nat) (p : Packet) (s : State) (hp : [.lands] ⊆ ps) :
    view ps (sendDone status p s) = view ps s := by
  simp only [List.cons_subset, List.nil_subset, and_true] at hp
  simp [sendDone, hp]

@[simp] theorem view_closeReply {ps : List Part} (h : Nat) (p : Packet) (s : State) (hp : [.asked] ⊆ ps) :
    view ps (closeReply h p s) = view ps s := by
  simp only [List.cons_subset, List.nil_subset, and_true] at hp
  unfold closeReply
  repeat' split
  all_goals simp [view, viewAon, viewHost, viewSvc, viewFlt, viewNet, viewHbm, viewRctxs, viewOctxs, viewTide, viewClk, hp]

@[simp] theorem view_deliverMember {ps : List Part} (h : Nat) (p0 : Packet) (s : State)
    (hp : [.events, .eventSeq, .purser, .asked, .lands, .freeCount, .outbox] ⊆ ps) :
    view ps (deliverMember h p0 s) = view ps s := by
  simp only [List.cons_subset, List.nil_subset, and_true] at hp
  simp [deliverMember, hp]

@[simp] theorem view_consume {ps : List Part} (p : Packet) (s : State)
    (hp : [.fatal, .qps, .evPort, .vectors, .aer, .events, .running, .eventSeq, .svcCmds, .records, .purser, .told, .lands, .accts, .rctxVals, .octxVals, .deck, .mem, .stk, .writes, .waits, .audit, .freeCount, .outbox] ⊆ ps) :
    view ps (consume p s) = view ps s := by
  simp only [List.cons_subset, List.nil_subset, and_true] at hp
  unfold consume
  split <;> simp [hp]

@[simp] theorem view_deliver {ps : List Part} (p : Packet) (s : State)
    (hp : [.fatal, .qps, .evPort, .vectors, .aer, .events, .running, .eventSeq, .svcCmds, .records, .purser, .told, .asked, .lands, .accts, .rctxVals, .octxVals, .deck, .mem, .stk, .writes, .waits, .audit, .freeCount, .outbox] ⊆ ps) :
    view ps (deliver p s) = view ps s := by
  simp only [List.cons_subset, List.nil_subset, and_true] at hp
  unfold deliver
  split <;> simp [hp]

@[simp] theorem view_sendXack {ps : List Part} (x : Crossing) (lane : Nat) (s : State) (hp : [.lands, .xings] ⊆ ps) :
    view ps (sendXack x lane s) = view ps s := by
  simp only [List.cons_subset, List.nil_subset, and_true] at hp
  simp [sendXack, hp]

@[simp] theorem view_receiveXing {ps : List Part} (x : Crossing) (a : Arrival) (s : State)
    (hp : [.fatal, .qps, .evPort, .vectors, .aer, .events, .running, .eventSeq, .svcCmds, .records, .purser, .told, .asked, .lands, .xings, .accts, .rctxVals, .octxVals, .deck, .mem, .stk, .writes, .waits, .audit, .freeCount, .outbox] ⊆ ps) :
    view ps (receiveXing x a s) = view ps s := by
  simp only [List.cons_subset, List.nil_subset, and_true] at hp
  simp [receiveXing, view_foldl, hp]

@[simp] theorem view_sendXsync {ps : List Part} (x : Crossing) (isOpen : Bool) (s : State) (hp : [.lands] ⊆ ps) :
    view ps (sendXsync x isOpen s) = view ps s := by
  simp only [List.cons_subset, List.nil_subset, and_true] at hp
  simp [sendXsync, hp]

@[simp] theorem view_takeXsync {ps : List Part} (p : Packet) (s : State)
    (hp : [.events, .eventSeq, .purser, .lands, .xings, .incs, .accts, .rctxVals, .outbox] ⊆ ps) :
    view ps (takeXsync p s) = view ps s := by
  simp only [List.cons_subset, List.nil_subset, and_true] at hp
  unfold takeXsync
  repeat' split
  all_goals simp [hp]

/-- A crossing that refuses a packet counts it. -/
theorem view_xingAccepts {ps : List Part} (p : Packet) (s : State) (hp : [.events, .eventSeq, .purser, .outbox] ⊆ ps) :
    view ps (match xingAccepts p s with | .error u => u | .ok _ => s) = view ps s := by
  simp only [List.cons_subset, List.nil_subset, and_true] at hp
  have hc (n : Nat) : view ps (countLanding p.hdr.egressLanding n s) = view ps s := by simp [hp]
  cases hx : xingAccepts p s with
  | ok x => rfl
  | error u =>
    unfold xingAccepts at hx
    split at hx
    · split at hx
      · cases hx; exact hc 8
      · split at hx
        · cases hx; exact hc 7
        · cases hx
    · cases hx; exact hc 8

@[simp] theorem view_takeXack {ps : List Part} (p : Packet) (s : State) (hp : [.events, .eventSeq, .purser, .xings, .outbox] ⊆ ps) :
    view ps (takeXack p s) = view ps s := by
  simp only [List.cons_subset, List.nil_subset, and_true] at hp
  unfold takeXack
  split
  · have hx := view_xingAccepts (ps := ps) p s (by simp [hp])
    split
    case h_1 u hu => rw [hu] at hx; exact hx
    case h_2 => simp [hp]
  · rfl

@[simp] theorem view_peerEgress {ps : List Part} (a : Arrival) (s : State)
    (hp : [.fatal, .qps, .evPort, .vectors, .aer, .events, .running, .eventSeq, .svcCmds, .records, .purser, .told, .asked, .lands, .xings, .incs, .accts, .rctxVals, .octxVals, .deck, .mem, .stk, .writes, .waits, .audit, .freeCount, .outbox] ⊆ ps) :
    view ps (peerEgress a s) = view ps s := by
  simp only [List.cons_subset, List.nil_subset, and_true] at hp
  unfold peerEgress
  split
  · simp [hp]
  · simp [hp]
  · simp [hp]
  · have hx := view_xingAccepts (ps := ps) a.pkt s (by simp [hp])
    split
    case h_1 => simp [hp]
    case h_2 u hu => rw [hu] at hx; exact hx

@[simp] theorem view_localPacket {ps : List Part} (hawser : Nat) (n : Naming) (p : Packet) (s : State)
    (hp : [.events, .eventSeq, .purser, .told, .asked, .lands, .accts, .rctxVals, .octxVals, .deck, .stk, .waits, .freeCount, .outbox] ⊆ ps) :
    view ps (localPacket hawser n p s) = view ps s := by
  simp only [List.cons_subset, List.nil_subset, and_true] at hp
  unfold localPacket
  repeat' split
  all_goals simp [hp]

@[simp] theorem view_noteAsked {ps : List Part} (h : Nat) (n : Naming) (p : Packet) (s : State) (hp : [.asked] ⊆ ps) :
    view ps (noteAsked h n p s) = view ps s := by
  simp only [List.cons_subset, List.nil_subset, and_true] at hp
  unfold noteAsked
  repeat' split
  all_goals simp [view, viewAon, viewHost, viewSvc, viewFlt, viewNet, viewHbm, viewRctxs, viewOctxs, viewTide, viewClk, hp]

@[simp] theorem view_forwardMember {ps : List Part} (a : Arrival) (p0 p : Packet) (s : State)
    (hp : [.events, .eventSeq, .purser, .told, .asked, .lands, .accts, .rctxVals, .octxVals, .deck, .stk, .waits, .freeCount, .outbox] ⊆ ps) :
    view ps (forwardMember a p0 p s) = view ps s := by
  simp only [List.cons_subset, List.nil_subset, and_true] at hp
  unfold forwardMember
  dsimp only
  repeat' split
  all_goals simp [hp]

@[simp] theorem view_memberIngress {ps : List Part} (a : Arrival) (s : State)
    (hp : [.events, .eventSeq, .purser, .told, .asked, .lands, .accts, .rctxVals, .octxVals, .deck, .stk, .waits, .freeCount, .outbox] ⊆ ps) :
    view ps (memberIngress a s) = view ps s := by
  simp only [List.cons_subset, List.nil_subset, and_true] at hp
  unfold memberIngress
  dsimp only
  repeat' split
  all_goals simp [hp]

@[simp] theorem view_actOn {ps : List Part} (a : Arrival) (s : State)
    (hp : [.fatal, .qps, .evPort, .vectors, .aer, .events, .running, .eventSeq, .svcCmds, .records, .purser, .told, .asked, .lands, .xings, .incs, .accts, .rctxVals, .octxVals, .deck, .mem, .stk, .writes, .waits, .audit, .freeCount, .outbox] ⊆ ps) :
    view ps (actOn a s) = view ps s := by
  simp only [List.cons_subset, List.nil_subset, and_true] at hp
  simp [actOn, hp]

/-- The landing's taker takes a packet without touching more than the landings. -/
theorem view_takeNext {ps : List Part} {a : Arrival} {s s' : State} (h : takeNext a s = some s') (hp : [.lands] ⊆ ps) :
    view ps s' = view ps s := by
  simp only [List.cons_subset, List.nil_subset, and_true] at hp
  unfold takeNext at h
  dsimp only at h
  split at h
  · cases h
  split at h
  · split at h
    · cases h; simp [hp]
    · cases h
  · split at h
    · cases h; simp [hp]
    · cases h

theorem view_receive {ps : List Part} (a : Arrival) (act : State → State) (s : State) (hp : [.lands] ⊆ ps)
    (hact : ∀ u, view ps (act u) = view ps u) : view ps (receive a act s) = view ps s := by
  have hs (c : Bool) : view ps (if c then s else handUp a s) = view ps s := by
    cases c <;> simp_all
  unfold receive
  dsimp only
  split
  case h_1 u hu => exact (hact u).trans ((view_takeNext hu hp).trans (hs _))
  case h_2 =>
    refine (view_foldl _ (fun u l => ?_) _ _).trans (hs _)
    split <;> simp_all

@[simp] theorem view_arrival {ps : List Part} (kinds : List Nat) (a : Arrival) (s : State)
    (hp : [.fatal, .qps, .evPort, .vectors, .aer, .events, .running, .eventSeq, .svcCmds, .records, .purser, .told, .asked, .lands, .xings, .incs, .accts, .rctxVals, .octxVals, .deck, .mem, .stk, .writes, .waits, .audit, .freeCount, .outbox] ⊆ ps) :
    view ps (arrival kinds a s) = view ps s := by
  simp only [List.cons_subset, List.nil_subset, and_true] at hp
  unfold arrival
  split
  · exact view_receive _ _ s (by simp [hp]) (fun u => view_actOn a u (by simp [hp]))
  · rfl

@[simp] theorem view_takeIdent {ps : List Part} (slip : Nat) (m : Ident) (s : State)
    (hp : [.fatal, .serdes, .events, .eventSeq, .records, .purser, .svcChanged, .net, .lands, .slips, .hawsers, .accts, .rctxVals, .freeCount, .outbox] ⊆ ps) :
    view ps (takeIdent slip m s) = view ps s := by
  simp only [List.cons_subset, List.nil_subset, and_true] at hp
  simp [takeIdent, hp]

@[simp] theorem view_takeIdentAck {ps : List Part} (slip : Nat) (m : IdentAck) (s : State)
    (hp : [.fatal, .serdes, .events, .eventSeq, .records, .purser, .svcChanged, .lands, .slips, .hawsers, .accts, .freeCount, .outbox] ⊆ ps) :
    view ps (takeIdentAck slip m s) = view ps s := by
  simp only [List.cons_subset, List.nil_subset, and_true] at hp
  simp [takeIdentAck, hp]

@[simp] theorem view_takeMessage {ps : List Part} (slip : Nat) (units : List (List Byte)) (s : State)
    (hp : [.fatal, .serdes, .events, .eventSeq, .records, .purser, .svcChanged, .net, .lands, .slips, .hawsers, .accts, .rctxVals, .freeCount, .outbox] ⊆ ps) :
    view ps (takeMessage slip units s) = view ps s := by
  simp only [List.cons_subset, List.nil_subset, and_true] at hp
  simp [takeMessage, hp]

@[simp] theorem view_drainHawser {ps : List Part} (h n : Nat) (s : State) (hp : [.lands, .hawsers] ⊆ ps) :
    view ps (drainHawser h n s) = view ps s := by
  simp only [List.cons_subset, List.nil_subset, and_true] at hp
  induction n generalizing s with
  | zero => rfl
  | succ n ih =>
    unfold drainHawser
    dsimp only
    split
    · rw [ih]
      simp [hp]
    · rfl

@[simp] theorem view_takePacket {ps : List Part} (slip : Nat) (q : Seq) (p : Packet) (s : State)
    (hp : [.events, .eventSeq, .purser, .lands, .slips, .hawsers, .outbox] ⊆ ps) :
    view ps (takePacket slip q p s) = view ps s := by
  simp only [List.cons_subset, List.nil_subset, and_true] at hp
  unfold takePacket
  split
  · simp [hp]
  · dsimp only
    split <;> simp [hp]

@[simp] theorem view_setNak {ps : List Part} (slip : Nat) (s : State) (hp : [.events, .eventSeq, .purser, .slips, .outbox] ⊆ ps) :
    view ps (setNak slip s) = view ps s := by
  simp only [List.cons_subset, List.nil_subset, and_true] at hp
  simp [setNak, hp]

@[simp] theorem view_badFrame {ps : List Part} (slip k : Nat) (s : State) (hp : [.events, .eventSeq, .purser, .slips, .outbox] ⊆ ps) :
    view ps (badFrame slip k s) = view ps s := by
  simp only [List.cons_subset, List.nil_subset, and_true] at hp
  simp [badFrame, hp]

@[simp] theorem view_acceptFrame {ps : List Part} (slip : Nat) (f : FSeq) (s : State) (hp : [.slips] ⊆ ps) :
    view ps (acceptFrame slip f s) = view ps s := by
  simp only [List.cons_subset, List.nil_subset, and_true] at hp
  simp [acceptFrame, view, viewAon, viewHost, viewSvc, viewFlt, viewNet, viewHbm, viewRctxs, viewOctxs, viewTide, viewClk, hp]

@[simp] theorem view_receiveFrame {ps : List Part} (slip : Nat) (good : Bool) (b : List Byte) (s : State)
    (hp : [.fatal, .serdes, .events, .eventSeq, .records, .purser, .svcChanged, .net, .lands, .slips, .hawsers, .accts, .rctxVals, .freeCount, .outbox] ⊆ ps) :
    view ps (receiveFrame slip good b s) = view ps s := by
  simp only [List.cons_subset, List.nil_subset, and_true] at hp
  unfold receiveFrame
  dsimp only
  repeat' split
  all_goals simp [view_foldl, hp]

@[simp] theorem view_sendIdle {ps : List Part} (slip : Nat) (s : State) (hp : [.events, .eventSeq, .purser, .slips, .outbox] ⊆ ps) :
    view ps (sendIdle slip s) = view ps s := by
  simp only [List.cons_subset, List.nil_subset, and_true] at hp
  simp [sendIdle, hp]

@[simp] theorem view_replay {ps : List Part} (slip : Nat) (byTimer : Bool) (s : State)
    (hp : [.fatal, .serdes, .events, .eventSeq, .records, .purser, .svcChanged, .lands, .slips, .hawsers, .accts, .freeCount, .outbox] ⊆ ps) :
    view ps (replay slip byTimer s) = view ps s := by
  simp only [List.cons_subset, List.nil_subset, and_true] at hp
  unfold replay
  dsimp only
  repeat' split
  all_goals simp [view_foldl, hp]

@[simp] theorem view_modRx {ps : List Part} (slip : Nat) (f : LaneRx → LaneRx) (s : State) (hp : [.slips] ⊆ ps) :
    view ps (modRx slip f s) = view ps s := by
  simp only [List.cons_subset, List.nil_subset, and_true] at hp
  simp [modRx, view, viewAon, viewHost, viewSvc, viewFlt, viewNet, viewHbm, viewRctxs, viewOctxs, viewTide, viewClk, hp]

@[simp] theorem view_modTx {ps : List Part} (slip : Nat) (f : LaneTx → LaneTx) (s : State) (hp : [.slips] ⊆ ps) :
    view ps (modTx slip f s) = view ps s := by
  simp only [List.cons_subset, List.nil_subset, and_true] at hp
  simp [modTx, view, viewAon, viewHost, viewSvc, viewFlt, viewNet, viewHbm, viewRctxs, viewOctxs, viewTide, viewClk, hp]

@[simp] theorem view_loseLanes {ps : List Part} (slip : Nat) (s : State)
    (hp : [.fatal, .serdes, .events, .eventSeq, .records, .purser, .svcChanged, .lands, .slips, .hawsers, .accts, .freeCount, .outbox] ⊆ ps) :
    view ps (loseLanes slip s) = view ps s := by
  simp only [List.cons_subset, List.nil_subset, and_true] at hp
  simp [loseLanes, hp]

@[simp] theorem view_setTraining {ps : List Part} (slip pos : Nat) (f : Training → Training) (s : State) (hp : [.slips] ⊆ ps) :
    view ps (setTraining slip pos f s) = view ps s := by
  simp only [List.cons_subset, List.nil_subset, and_true] at hp
  simp [setTraining, view, viewAon, viewHost, viewSvc, viewFlt, viewNet, viewHbm, viewRctxs, viewOctxs, viewTide, viewClk, hp]

@[simp] theorem view_sendTraining {ps : List Part} (slip : Nat) (s : State) (hp : [.slips, .outbox] ⊆ ps) :
    view ps (sendTraining slip s) = view ps s := by
  simp only [List.cons_subset, List.nil_subset, and_true] at hp
  simp [sendTraining, hp]

@[simp] theorem view_takeField {ps : List Part} (slip pos : Nat) (b : List Byte) (s : State) (hp : [.slips, .freeCount] ⊆ ps) :
    view ps (takeField slip pos b s) = view ps s := by
  simp only [List.cons_subset, List.nil_subset, and_true] at hp
  simp [takeField, hp]

@[simp] theorem view_nextStep {ps : List Part} (slip : Nat) (s : State)
    (hp : [.fatal, .serdes, .events, .eventSeq, .records, .purser, .svcChanged, .lands, .slips, .hawsers, .accts, .freeCount, .outbox] ⊆ ps) :
    view ps (nextStep slip s) = view ps s := by
  simp only [List.cons_subset, List.nil_subset, and_true] at hp
  unfold nextStep
  dsimp only
  repeat' split
  all_goals simp [hp]

@[simp] theorem view_markAm {ps : List Part} (slip pos : Nat) (bad : Bool) (s : State)
    (hp : [.events, .eventSeq, .purser, .slips, .outbox] ⊆ ps) :
    view ps (markAm slip pos bad s) = view ps s := by
  simp only [List.cons_subset, List.nil_subset, and_true] at hp
  simp [markAm, hp]

@[simp] theorem view_judgeMarkers {ps : List Part} (slip : Nat) (s : State)
    (hp : [.fatal, .serdes, .events, .eventSeq, .records, .purser, .svcChanged, .lands, .slips, .hawsers, .accts, .freeCount, .outbox] ⊆ ps) :
    view ps (judgeMarkers slip s) = view ps s := by
  simp only [List.cons_subset, List.nil_subset, and_true] at hp
  simp [judgeMarkers, hp]

@[simp] theorem view_countCodeword {ps : List Part} (slip : Nat) (fixed : List Nat) (s : State)
    (hp : [.events, .eventSeq, .purser, .slips, .outbox] ⊆ ps) :
    view ps (countCodeword slip fixed s) = view ps s := by
  simp only [List.cons_subset, List.nil_subset, and_true] at hp
  simp [countCodeword, hp]

@[simp] theorem view_takeCodeword {ps : List Part} (slip : Nat) (lower upper : List Nat) (s : State)
    (hp : [.fatal, .serdes, .events, .eventSeq, .records, .purser, .svcChanged, .net, .lands, .slips, .hawsers, .accts, .rctxVals, .freeCount, .outbox] ⊆ ps) :
    view ps (takeCodeword slip lower upper s) = view ps s := by
  simp only [List.cons_subset, List.nil_subset, and_true] at hp
  unfold takeCodeword
  dsimp only
  repeat' split
  all_goals simp [hp]

@[simp] theorem view_putOut {ps : List Part} (slip : Nat) (lower upper : List Nat) (s : State) (hp : [.outbox] ⊆ ps) :
    view ps (putOut slip lower upper s) = view ps s := by
  simp only [List.cons_subset, List.nil_subset, and_true] at hp
  simp [putOut, view, viewAon, viewHost, viewSvc, viewFlt, viewNet, viewHbm, viewRctxs, viewOctxs, viewTide, viewClk, hp]

@[simp] theorem view_sendPattern {ps : List Part} (slip : Nat) (s : State) (hp : [.slips, .outbox] ⊆ ps) :
    view ps (sendPattern slip s) = view ps s := by
  simp only [List.cons_subset, List.nil_subset, and_true] at hp
  simp [sendPattern, hp]

@[simp] theorem view_sendTestWord {ps : List Part} (slip : Nat) (s : State) (hp : [.slips, .outbox] ⊆ ps) :
    view ps (sendTestWord slip s) = view ps s := by
  simp only [List.cons_subset, List.nil_subset, and_true] at hp
  simp [sendTestWord, hp]

@[simp] theorem view_lanesTick {ps : List Part} (slip : Nat) (s : State) (hp : [.slips, .outbox] ⊆ ps) :
    view ps (lanesTick slip s) = view ps s := by
  simp only [List.cons_subset, List.nil_subset, and_true] at hp
  simp [lanesTick, hp]

@[simp] theorem view_checkPattern {ps : List Part} (slip pos : Nat) (l : List Nat) (s : State)
    (hp : [.events, .eventSeq, .purser, .slips, .outbox] ⊆ ps) :
    view ps (checkPattern slip pos l s) = view ps s := by
  simp only [List.cons_subset, List.nil_subset, and_true] at hp
  simp [checkPattern, hp]

@[simp] theorem view_takeReplica {ps : List Part} (l : Nat) (q : Queued) (r : Replica) (s : State) (hp : [.lands] ⊆ ps) :
    view ps (takeReplica l q r s) = view ps s := by
  simp only [List.cons_subset, List.nil_subset, and_true] at hp
  simp [takeReplica, view, viewAon, viewHost, viewSvc, viewFlt, viewNet, viewHbm, viewRctxs, viewOctxs, viewTide, viewClk, hp]

@[simp] theorem view_countGone {ps : List Part} (l : Nat) (r : Replica) (s : State) (hp : [.events, .eventSeq, .purser, .outbox] ⊆ ps) :
    view ps (countGone l r s) = view ps s := by
  simp only [List.cons_subset, List.nil_subset, and_true] at hp
  unfold countGone
  split <;> simp [hp]

@[simp] theorem view_countResidue {ps : List Part} (l : Nat) (r : Replica) (s : State) (hp : [.events, .eventSeq, .purser, .outbox] ⊆ ps) :
    view ps (countResidue l r s) = view ps s := by
  simp only [List.cons_subset, List.nil_subset, and_true] at hp
  unfold countResidue
  split <;> simp [hp]

@[simp] theorem view_pickClass {ps : List Part} (s : State) (slip : Nat) (hp : [.slips] ⊆ ps) :
    view ps (pickClass s slip).2 = view ps s := by
  simp only [List.cons_subset, List.nil_subset, and_true] at hp
  unfold pickClass
  repeat' split
  all_goals simp [hp]

@[simp] theorem view_sendPacketFrames {ps : List Part} (slip : Nat) (q : Seq) (p : Packet) (via : Option Nat) (s : State)
    (hp : [.slips, .outbox] ⊆ ps) :
    view ps (sendPacketFrames slip q p via s) = view ps s := by
  simp only [List.cons_subset, List.nil_subset, and_true] at hp
  simp [sendPacketFrames, view_foldl, hp]

@[simp] theorem view_payStart {ps : List Part} (slip cls u : Nat) (s : State) (hp : [.events, .eventSeq, .purser, .slips, .outbox] ⊆ ps) :
    view ps (payStart slip cls u s) = view ps s := by
  simp only [List.cons_subset, List.nil_subset, and_true] at hp
  simp [payStart, hp]

@[simp] theorem view_startFailover {ps : List Part} (slip : Nat) (f : SentPkt) (s : State)
    (hp : [.events, .eventSeq, .purser, .slips, .hawsers, .outbox] ⊆ ps) :
    view ps (startFailover slip f s) = view ps s := by
  simp only [List.cons_subset, List.nil_subset, and_true] at hp
  simp [startFailover, hp]

@[simp] theorem view_pushFollow {ps : List Part} (l h : Nat) (f : Option Packet) (s : State) (hp : [.lands] ⊆ ps) :
    view ps (pushFollow l h f s) = view ps s := by
  simp only [List.cons_subset, List.nil_subset, and_true] at hp
  unfold pushFollow
  split <;> simp [hp]

@[simp] theorem view_stampTide {ps : List Part} (p : Packet) (s : State) (hp : [.sentT1] ⊆ ps) :
    view ps (stampTide p s).2 = view ps s := by
  simp only [List.cons_subset, List.nil_subset, and_true] at hp
  unfold stampTide
  repeat' split
  all_goals simp [view, viewAon, viewHost, viewSvc, viewFlt, viewNet, viewHbm, viewRctxs, viewOctxs, viewTide, viewClk, hp]

@[simp] theorem view_startReplica {ps : List Part} (slip l cls : Nat) (q : Queued) (r : Replica) (s : State)
    (hp : [.events, .eventSeq, .purser, .sentT1, .lands, .slips, .hawsers, .accts, .rctxVals, .outbox] ⊆ ps) :
    view ps (startReplica slip l cls q r s) = view ps s := by
  simp only [List.cons_subset, List.nil_subset, and_true] at hp
  simp [startReplica, hp]

@[simp] theorem view_sendNothing {ps : List Part} (slip : Nat) (s : State) (hp : [.events, .eventSeq, .purser, .slips, .outbox] ⊆ ps) :
    view ps (sendNothing slip s) = view ps s := by
  simp only [List.cons_subset, List.nil_subset, and_true] at hp
  simp [sendNothing, hp]

@[simp] theorem view_touchLanding {ps : List Part} (l : Nat) (s : State) (hp : [.lands] ⊆ ps) :
    view ps (touchLanding l s) = view ps s := by
  simp only [List.cons_subset, List.nil_subset, and_true] at hp
  simp [touchLanding, view, viewAon, viewHost, viewSvc, viewFlt, viewNet, viewHbm, viewRctxs, viewOctxs, viewTide, viewClk, hp]

@[simp] theorem view_setBank {ps : List Part} (b : Nat) (f : Bank → Bank) (s : State) (hp : [.net] ⊆ ps) :
    view ps (setBank b f s) = view ps s := by
  simp only [List.cons_subset, List.nil_subset, and_true] at hp
  unfold setBank
  repeat' split
  all_goals simp [view, viewAon, viewHost, viewSvc, viewFlt, viewNet, viewHbm, viewRctxs, viewOctxs, viewTide, viewClk, hp]

@[simp] theorem view_switchBanks {ps : List Part} (s : State) (hp : [.svcChanged, .net] ⊆ ps) :
    view ps (switchBanks s) = view ps s := by
  simp only [List.cons_subset, List.nil_subset, and_true] at hp
  simp [switchBanks, view, viewAon, viewHost, viewSvc, viewFlt, viewNet, viewHbm, viewRctxs, viewOctxs, viewTide, viewClk, hp]

@[simp] theorem view_pendBank {ps : List Part} (t : Option Tide) (cmd : Option Running) (s : State) (hp : [.net] ⊆ ps) :
    view ps (pendBank t cmd s) = view ps s := by
  simp only [List.cons_subset, List.nil_subset, and_true] at hp
  unfold pendBank
  repeat' split
  all_goals simp [view, viewAon, viewHost, viewSvc, viewFlt, viewNet, viewHbm, viewRctxs, viewOctxs, viewTide, viewClk, hp]

@[simp] theorem view_dropBudgets {ps : List Part} (ns : List Nat) (s : State) (hp : [.pwr, .deferred] ⊆ ps) :
    view ps (dropBudgets ns s) = view ps s := by
  simp only [List.cons_subset, List.nil_subset, and_true] at hp
  simp [dropBudgets, view, viewAon, viewHost, viewSvc, viewFlt, viewNet, viewHbm, viewRctxs, viewOctxs, viewTide, viewClk, hp]

@[simp] theorem view_measureEngine {ps : List Part} (k : Nat) (s : State) (hp : [.optics, .freeCount] ⊆ ps) :
    view ps (measureEngine k s) = view ps s := by
  simp only [List.cons_subset, List.nil_subset, and_true] at hp
  simp [measureEngine, hp]

@[simp] theorem view_markUnlocked {ps : List Part} (s : State) (hp : [.sentT1, .tide, .accts] ⊆ ps) :
    view ps (markUnlocked s) = view ps s := by
  simp only [List.cons_subset, List.nil_subset, and_true] at hp
  exact (view_with_accts _ (fun r => { r with acct := { r.acct with unlocked := true } })
    (fun o => { o with acct := { o.acct with unlocked := true } }) hp.2.2 (fun _ => rfl) (fun _ => rfl)).trans
    (view_modTide s _ (by simp [hp]))

@[simp] theorem view_unlockTide {ps : List Part} (cause : Nat) (s : State)
    (hp : [.events, .eventSeq, .purser, .sentT1, .tide, .accts, .outbox] ⊆ ps) :
    view ps (unlockTide cause s) = view ps s := by
  simp only [List.cons_subset, List.nil_subset, and_true] at hp
  simp [unlockTide, hp]

@[simp] theorem view_lockTide {ps : List Part} (s : State) (hp : [.events, .eventSeq, .purser, .sentT1, .tide, .outbox] ⊆ ps) :
    view ps (lockTide s) = view ps s := by
  simp only [List.cons_subset, List.nil_subset, and_true] at hp
  simp [lockTide, hp]

@[simp] theorem view_becomeMaster {ps : List Part} (s : State) (hp : [.events, .eventSeq, .purser, .sentT1, .tide, .outbox] ⊆ ps) :
    view ps (becomeMaster s) = view ps s := by
  simp only [List.cons_subset, List.nil_subset, and_true] at hp
  simp [becomeMaster, hp]

@[simp] theorem view_elect {ps : List Part} (s : State) (hp : [.events, .eventSeq, .purser, .sentT1, .tide, .accts, .outbox] ⊆ ps) :
    view ps (elect s) = view ps s := by
  simp only [List.cons_subset, List.nil_subset, and_true] at hp
  unfold elect
  dsimp only
  repeat' split
  all_goals simp [hp]

@[simp] theorem view_takeTide {ps : List Part} (slip : Nat) (m : TideMsg) (s : State) (hp : [.lands] ⊆ ps) :
    view ps (takeTide slip m s) = view ps s := by
  simp only [List.cons_subset, List.nil_subset, and_true] at hp
  unfold takeTide
  split <;> simp [hp]

@[simp] theorem view_sendTide {ps : List Part} (slip : Nat) (m : TideMsg) (s : State) (hp : [.lands] ⊆ ps) :
    view ps (sendTide slip m s) = view ps s := by
  simp only [List.cons_subset, List.nil_subset, and_true] at hp
  simp [sendTide, hp]

@[simp] theorem view_loseLaunches {ps : List Part} (s : State) (hp : [.events, .eventSeq, .purser, .jobs, .outbox] ⊆ ps) :
    view ps (loseLaunches s) = view ps s := by
  simp only [List.cons_subset, List.nil_subset, and_true] at hp
  unfold loseLaunches
  refine view_foldl _ (fun s j => ?_) _ s
  split <;> simp [hp]

@[simp] theorem view_stepTide {ps : List Part} (d : Int) (s : State)
    (hp : [.events, .eventSeq, .purser, .sentT1, .tide, .jobs, .outbox] ⊆ ps) :
    view ps (stepTide d s) = view ps s := by
  simp only [List.cons_subset, List.nil_subset, and_true] at hp
  simp [stepTide, hp]

@[simp] theorem view_rejectRef {ps : List Part} (cause : Nat) (s : State)
    (hp : [.fatal, .events, .eventSeq, .records, .purser, .sentT1, .tide, .accts, .outbox] ⊆ ps) :
    view ps (rejectRef cause s) = view ps s := by
  simp only [List.cons_subset, List.nil_subset, and_true] at hp
  simp [rejectRef, hp]

@[simp] theorem view_setPower {ps : List Part} (u : PowerUnit) (p : IdleState) (s : State) (hp : [.lands, .deck, .stk] ⊆ ps) :
    view ps (setPower u p s) = view ps s := by
  simp only [List.cons_subset, List.nil_subset, and_true] at hp
  unfold setPower
  repeat' split
  all_goals simp [view, viewAon, viewHost, viewSvc, viewFlt, viewNet, viewHbm, viewRctxs, viewOctxs, viewTide, viewClk, hp]

@[simp] theorem view_noteWork {ps : List Part} (s : State) (hp : [.lands, .deck, .stk] ⊆ ps) :
    view ps (noteWork s) = view ps s := by
  simp only [List.cons_subset, List.nil_subset, and_true] at hp
  simp [noteWork, view_foldl, hp]

@[simp] theorem view_wakeOverBudget {ps : List Part} (s : State) (hp : [.lands, .slips, .deck, .stk, .outbox] ⊆ ps) :
    view ps (wakeOverBudget s) = view ps s := by
  simp only [List.cons_subset, List.nil_subset, and_true] at hp
  simp [wakeOverBudget, view_foldl, hp]

@[simp] theorem view_setMonitor {ps : List Part} (n : Nat) (m : Monitor) (s : State) (hp : [.island] ⊆ ps) :
    view ps (setMonitor n m s) = view ps s := by
  simp only [List.cons_subset, List.nil_subset, and_true] at hp
  simp [setMonitor, view, viewAon, viewHost, viewSvc, viewFlt, viewNet, viewHbm, viewRctxs, viewOctxs, viewTide, viewClk, hp]

@[simp] theorem view_markInvalid {ps : List Part} (i : Nat) (s : State)
    (hp : [.fatal, .island, .events, .eventSeq, .records, .purser, .accts, .outbox] ⊆ ps) :
    view ps (markInvalid i s) = view ps s := by
  simp only [List.cons_subset, List.nil_subset, and_true] at hp
  simp [markInvalid, hp]

@[simp] theorem view_takeSample {ps : List Part} (n : Nat) (x : Sample) (s : State)
    (hp : [.fatal, .island, .events, .eventSeq, .records, .purser, .accts, .outbox] ⊆ ps) :
    view ps (takeSample n x s) = view ps s := by
  simp only [List.cons_subset, List.nil_subset, and_true] at hp
  unfold takeSample
  split <;> simp [hp]

@[simp] theorem view_raiseThrottle {ps : List Part} (k : Nat) (hot : Bool) (s : State)
    (hp : [.events, .eventSeq, .purser, .freeCount, .outbox] ⊆ ps) :
    view ps (raiseThrottle k hot s) = view ps s := by
  simp only [List.cons_subset, List.nil_subset, and_true] at hp
  unfold raiseThrottle
  split <;> simp [hp]

@[simp] theorem view_failWaiting {ps : List Part} (s : State)
    (hp : [.fatal, .qps, .evPort, .vectors, .aer, .events, .running, .eventSeq, .svcCmds, .records, .purser, .accts, .freeCount, .outbox] ⊆ ps) :
    view ps (failWaiting s) = view ps s := by
  simp only [List.cons_subset, List.nil_subset, and_true] at hp
  exact view_foldl _ (fun s r => view_complete _ _ _ _ _ s (by simp [hp])) _ s

@[simp] theorem view_dropDataDomains {ps : List Part} (s : State)
    (hp : [.island, .sys, .clk, .net, .lands, .sw, .slips, .hawsers, .optics, .xings, .incs, .rctxs, .octxs, .deck, .mem, .stk, .writes, .waits, .deferred] ⊆ ps) :
    view ps (dropDataDomains s) = view ps s := by
  simp only [List.cons_subset, List.nil_subset, and_true] at hp
  simp [dropDataDomains, view, viewAon, viewHost, viewSvc, viewFlt, viewNet, viewHbm, viewRctxs, viewOctxs, viewTide, viewClk, hp]

@[simp] theorem view_dropSweeps {ps : List Part} (ctx q : Nat) (s : State) (hp : [.deck] ⊆ ps) :
    view ps (dropSweeps ctx q s) = view ps s := by
  simp only [List.cons_subset, List.nil_subset, and_true] at hp
  simp [dropSweeps, view, viewAon, viewHost, viewSvc, viewFlt, viewNet, viewHbm, viewRctxs, viewOctxs, viewTide, viewClk, hp]

@[simp] theorem view_refoldPosition {ps : List Part} (ctx q : Nat) (s : State) (hp : [.accts, .rctxVals, .deck, .stk] ⊆ ps) :
    view ps (refoldPosition ctx q s) = view ps s := by
  simp only [List.cons_subset, List.nil_subset, and_true] at hp
  unfold refoldPosition
  repeat' split
  all_goals simp [hp]

@[simp] theorem view_recallContribution {ps : List Part} (ctx q slot : Nat) (s : State)
    (hp : [.lands, .accts, .rctxVals, .deck, .stk] ⊆ ps) :
    view ps (recallContribution ctx q slot s) = view ps s := by
  simp only [List.cons_subset, List.nil_subset, and_true] at hp
  unfold recallContribution
  repeat' split
  all_goals simp [hp]

@[simp] theorem view_loseLaneGroup {ps : List Part} (g detail : Nat) (s : State)
    (hp : [.fatal, .events, .eventSeq, .records, .purser, .accts, .rctxVals, .deck, .stk, .outbox] ⊆ ps) :
    view ps (loseLaneGroup g detail s) = view ps s := by
  simp only [List.cons_subset, List.nil_subset, and_true] at hp
  unfold loseLaneGroup
  dsimp only
  split
  · exact (view_refoldPosition _ _ _ (by simp [hp])).trans ((view_with_deck _ (by simp [hp])).trans (by simp [hp]))
  · simp [hp]

@[simp] theorem view_haltOctx {ps : List Part} (n : Nat) (o : Octx) (s : State)
    (hp : [.fatal, .qps, .evPort, .vectors, .aer, .events, .running, .eventSeq, .svcCmds, .records, .purser, .accts, .rctxVals, .octxVals, .deck, .freeCount, .outbox] ⊆ ps) :
    view ps (haltOctx n o s) = view ps s := by
  simp only [List.cons_subset, List.nil_subset, and_true] at hp
  have hd : view ps (modRctx o.d.rctx (fun r => { r with positions := r.positions.map (fun p =>
      (p.1, if p.2.queued then { p.2 with queued := false, held := true } else p.2)) })
      { modOctx n (fun o => { o with state := .halted, command := none, sentReady := false }) s with
        deck := { s.deck with queue := s.deck.queue.filter (fun e => !(match e.sweep with
          | .update c _ => c == o.d.rctx
          | _ => false)) } }) = view ps s :=
    (view_modRctx _ _ _ (by simp [hp])).trans ((view_with_deck _ (by simp [hp])).trans (view_modOctx _ _ s (by simp [hp])))
  unfold haltOctx
  dsimp only
  split
  · exact (view_complete _ _ _ _ _ _ (by simp [hp])).trans hd
  · exact hd

@[simp] theorem view_requeueWaits {ps : List Part} (s : State) (hp : [.deck, .stk] ⊆ ps) :
    view ps (requeueWaits s) = view ps s := by
  simp only [List.cons_subset, List.nil_subset, and_true] at hp
  simp [requeueWaits, view_foldl, hp]

@[simp] theorem view_loseStack {ps : List Part} (k : Nat) (s : State)
    (hp : [.fatal, .qps, .evPort, .vectors, .aer, .events, .running, .mbox, .eventSeq, .svcCmds, .records, .purser, .accts, .rctxVals, .octxVals, .deck, .mem, .stk, .writes, .freeCount, .outbox] ⊆ ps) :
    view ps (loseStack k s) = view ps s := by
  simp only [List.cons_subset, List.nil_subset, and_true] at hp
  unfold loseStack
  refine (view_mailboxRecord _ (by simp [hp])).trans ((view_requeueWaits _ (by simp [hp])).trans
    ((view_foldl _ (fun s o => view_haltOctx _ _ s (by simp [hp])) _ _).trans ((view_raiseFault _ _ _ _ _ _ (by simp [hp])).trans
    ((view_foldl _ (fun s r => ?_) _ _).trans (view_with_hbm s ?_)))))
  · split <;> simp [hp]
  · simp [viewHbm, hp]

@[simp] theorem view_loseEngine {ps : List Part} (k detail : Nat) (s : State)
    (hp : [.fatal, .serdes, .events, .eventSeq, .records, .purser, .svcChanged, .lands, .slips, .hawsers, .optics, .accts, .freeCount, .outbox] ⊆ ps) :
    view ps (loseEngine k detail s) = view ps s := by
  simp only [List.cons_subset, List.nil_subset, and_true] at hp
  simp [loseEngine, view_foldl, hp]

@[simp] theorem view_loseLanding {ps : List Part} (l detail : Nat) (s : State)
    (hp : [.fatal, .serdes, .events, .eventSeq, .records, .purser, .told, .svcChanged, .lands, .slips, .hawsers, .xings, .accts, .rctxVals, .freeCount, .outbox] ⊆ ps) :
    view ps (loseLanding l detail s) = view ps s := by
  simp only [List.cons_subset, List.nil_subset, and_true] at hp
  unfold loseLanding
  dsimp only
  rw [view_raiseFault _ _ _ _ _ _ (by simp [hp]), view_ite, view_modLanding _ _ _ (by simp [hp]), ite_self]
  refine (view_foldl _ (fun s q => view_foldl _ (fun s r => view_returnTag _ _ s (by simp [hp])) _ s) _ _).trans
    ((view_with_lands _ (by simp [hp])).trans ((view_foldl _ (fun s x => ?_) _ _).trans (view_moveSlips _ _ _ _ s (by simp [hp]))))
  simp [hp]

@[simp] theorem view_failCore {ps : List Part} (c : Nat) (s : State)
    (hp : [.fatal, .qps, .evPort, .vectors, .aer, .events, .running, .eventSeq, .svcCmds, .records, .purser, .net, .accts, .octxVals, .audit, .freeCount, .outbox] ⊆ ps) :
    view ps (failCore c s) = view ps s := by
  simp only [List.cons_subset, List.nil_subset, and_true] at hp
  have hcores (l : List Running) (u : State) : view ps (l.foldl (fun s r => complete r stFaulted 0 0 [] s) u) = view ps u :=
    view_foldl _ (fun s r => view_complete _ _ _ _ _ s (by simp [hp])) _ _
  have hctx (u : State) (f : Octx → Octx) : view ps { u with octxs := u.octxs.map (fun o => (o.1, f o.2)) } = view ps u :=
    view_with_octxs u (by simp [viewOctxs, hp, Function.comp_def])
  have hnet (u : State) (c : Prop) [Decidable c] (x : Net) : view ps (if c then { u with net := x } else u) = view ps u := by
    rw [view_ite, view_with_net u (by simp [viewNet, hp]), ite_self]
  have haudit (u : State) (x : Audit) : view ps { u with audit := x } = view ps u := view_with_audit u (by simp [hp])
  unfold failCore
  exact (hcores _ _).trans ((hctx _ (fun o => if (o.command.map (fun r : Running => r.core == c)).getD false then
      { o with command := none, sentReady := false, state := if o.state == .committing then .opened else o.state } else o)).trans
    ((hnet _ _ _).trans ((haudit _ _).trans (view_modHost s _ (by simp [viewHost, hp])))))

@[simp] theorem view_loseUnit {ps : List Part} (u : UnitRef) (detail : Nat) (s : State)
    (hp : [.fatal, .serdes, .units, .qps, .evPort, .vectors, .aer, .events, .running, .mbox, .eventSeq, .svcCmds, .records, .purser, .told, .svcChanged, .net, .lands, .slips, .hawsers, .optics, .xings, .accts, .rctxVals, .octxVals, .deck, .mem, .stk, .writes, .audit, .freeCount, .outbox] ⊆ ps) :
    view ps (loseUnit u detail s) = view ps s := by
  simp only [List.cons_subset, List.nil_subset, and_true] at hp
  have hunits (x : List (UnitRef × Nat)) : view ps { s with units := x } = view ps s := view_with_units s (by simp [hp])
  unfold loseUnit
  dsimp only
  repeat' split
  all_goals simp [hp, hunits]

@[simp] theorem view_parityFault {ps : List Part} (row unit level : Nat) (s : State)
    (hp : [.fatal, .events, .eventSeq, .records, .purser, .accts, .freeCount, .outbox] ⊆ ps) :
    view ps (parityFault row unit level s) = view ps s := by
  simp only [List.cons_subset, List.nil_subset, and_true] at hp
  simp [parityFault, hp]

@[simp] theorem view_loseReplica {ps : List Part} (l : Nat) (q : Queued) (s : State) (r : Replica)
    (hp : [.events, .eventSeq, .purser, .lands, .xings, .accts, .rctxVals, .outbox] ⊆ ps) :
    view ps (loseReplica l q s r) = view ps s := by
  simp only [List.cons_subset, List.nil_subset, and_true] at hp
  unfold loseReplica
  split <;> simp [hp]

@[simp] theorem view_loseQueued {ps : List Part} (l entry : Nat) (s : State)
    (hp : [.fatal, .events, .eventSeq, .records, .purser, .lands, .xings, .accts, .rctxVals, .freeCount, .outbox] ⊆ ps) :
    view ps (loseQueued l entry s) = view ps s := by
  simp only [List.cons_subset, List.nil_subset, and_true] at hp
  unfold loseQueued
  repeat' split
  all_goals simp [view_foldl, hp]

@[simp] theorem view_holdUpdate {ps : List Part} (octx seg chunk : Nat) (s : State)
    (hp : [.fatal, .events, .eventSeq, .records, .purser, .accts, .rctxVals, .deck, .stk, .outbox] ⊆ ps) :
    view ps (holdUpdate octx seg chunk s) = view ps s := by
  simp only [List.cons_subset, List.nil_subset, and_true] at hp
  unfold holdUpdate
  dsimp only
  split
  · rfl
  · exact (view_raiseFault _ _ _ _ _ _ (by simp [hp])).trans ((view_with_deck _ (by simp [hp])).trans
      (view_putPosition _ _ _ s (by simp [hp])))

@[simp] theorem view_failGather {ps : List Part} (octx seg chunk : Nat) (s : State)
    (hp : [.fatal, .events, .eventSeq, .records, .purser, .lands, .accts, .deck, .waits, .freeCount, .outbox] ⊆ ps) :
    view ps (failGather octx seg chunk s) = view ps s := by
  simp only [List.cons_subset, List.nil_subset, and_true] at hp
  unfold failGather
  dsimp only
  split
  · exact (view_parityFault _ _ _ _ (by simp [hp])).trans ((view_failWaits _ _ _ (by simp [hp])).trans (view_with_deck s (by simp [hp])))
  · rfl

@[simp] theorem view_reformImage {ps : List Part} (octx seg chunk version : Nat) (s : State)
    (hp : [.fatal, .events, .eventSeq, .records, .purser, .accts, .deck, .stk, .freeCount, .outbox] ⊆ ps) :
    view ps (reformImage octx seg chunk version s) = view ps s := by
  simp only [List.cons_subset, List.nil_subset, and_true] at hp
  unfold reformImage
  split <;> simp [hp]

@[simp] theorem view_disposeParity {ps : List Part} (loc : ParityLoc) (s : State)
    (hp : [.fatal, .serdes, .units, .qps, .evPort, .vectors, .aer, .events, .running, .mbox, .eventSeq, .svcCmds, .records, .purser, .told, .svcChanged, .net, .lands, .slips, .hawsers, .optics, .xings, .accts, .rctxVals, .octxVals, .deck, .mem, .stk, .writes, .waits, .audit, .freeCount, .outbox] ⊆ ps) :
    view ps (disposeParity loc s) = view ps s := by
  simp only [List.cons_subset, List.nil_subset, and_true] at hp
  unfold disposeParity
  repeat' split
  all_goals simp [hp]

@[simp] theorem view_startLoops {ps : List Part} (recoveryN : Bool) (s : State) (hp : [.sys, .serdes, .clk] ⊆ ps) :
    view ps (startLoops recoveryN s) = view ps s := by
  simp only [List.cons_subset, List.nil_subset, and_true] at hp
  simp [startLoops, view, viewAon, viewHost, viewSvc, viewFlt, viewNet, viewHbm, viewRctxs, viewOctxs, viewTide, viewClk, hp]

@[simp] theorem view_startLoopsFree {ps : List Part} (s : State) (hp : [.sys, .serdes, .clk, .freeCount] ⊆ ps) :
    view ps (startLoopsFree s) = view ps s := by
  simp only [List.cons_subset, List.nil_subset, and_true] at hp
  simp [startLoopsFree, hp]

@[simp] theorem view_startLoopsEdge {ps : List Part} (s : State) (hp : [.sys, .serdes, .clk, .freeCount] ⊆ ps) :
    view ps (startLoopsEdge s) = view ps s := by
  simp only [List.cons_subset, List.nil_subset, and_true] at hp
  unfold startLoopsEdge
  split <;> simp [hp]

@[simp] theorem view_enterRecovery {ps : List Part} (detail : Nat) (s : State)
    (hp : [.errorN, .fatal, .island, .sys, .events, .eventSeq, .records, .purser, .accts, .outbox] ⊆ ps) :
    view ps (enterRecovery detail s) = view ps s := by
  simp only [List.cons_subset, List.nil_subset, and_true] at hp
  simp [enterRecovery, hp]

@[simp] theorem view_failTrial {ps : List Part} (s : State) (hp : [.errorN, .fatal, .island] ⊆ ps) :
    view ps (failTrial s) = view ps s := by
  simp only [List.cons_subset, List.nil_subset, and_true] at hp
  simp [failTrial, hp]

@[simp] theorem view_startFirmware {ps : List Part} (i : Nat) (s : State) (hp : [.errorN, .fatal, .island, .sys, .freeCount] ⊆ ps) :
    view ps (startFirmware i s) = view ps s := by
  simp only [List.cons_subset, List.nil_subset, and_true] at hp
  unfold startFirmware
  dsimp only
  rw [view_modSys _ _ (by simp [hp])]
  exact (view_with_freeCount _ (by simp [hp])).trans (view_modAon s _ (by simp [hp]))

@[simp] theorem view_chooseImage {ps : List Part} (s : State)
    (hp : [.errorN, .fatal, .island, .sys, .events, .eventSeq, .records, .purser, .accts, .freeCount, .outbox] ⊆ ps) :
    view ps (chooseImage s) = view ps s := by
  simp only [List.cons_subset, List.nil_subset, and_true] at hp
  unfold chooseImage
  dsimp only
  repeat' split
  all_goals simp [hp]

@[simp] theorem view_runRom {ps : List Part} (s : State)
    (hp : [.errorN, .fatal, .island, .sys, .events, .host, .eventSeq, .records, .purser, .accts, .deck, .freeCount, .outbox] ⊆ ps) :
    view ps (runRom s) = view ps s := by
  simp only [List.cons_subset, List.nil_subset, and_true] at hp
  have hrom (u : State) : view ps { u with deck := { u.deck with trunc := true }, host := { u.host with bar0 := true } } = view ps u := by
    simp [view, viewHost, hp]
  have hfail (c : Bool) : view ps (if c then failTrial s else s) = view ps s := by
    cases c <;> simp [hp]
  unfold runRom
  dsimp only
  rw [view_ite, view_chooseImage _ (by simp [hp]), view_enterRecovery _ _ (by simp [hp]), hrom, view_modAon _ _ (by simp [hp]), hfail, ite_self]

@[simp] theorem view_passBoot {ps : List Part} (s : State)
    (hp : [.errorN, .fatal, .island, .events, .eventSeq, .records, .purser, .accts, .outbox] ⊆ ps) :
    view ps (passBoot s) = view ps s := by
  simp only [List.cons_subset, List.nil_subset, and_true] at hp
  unfold passBoot
  simp [hp]

@[simp] theorem view_ringReset {ps : List Part} (s : State) (hp : [.qps, .evPort, .running, .host, .net, .accts, .octxVals, .audit] ⊆ ps) :
    view ps (ringReset s) = view ps s := by
  simp only [List.cons_subset, List.nil_subset, and_true] at hp
  simp [ringReset, modHost, view, viewHost, viewNet, viewOctxs, hp, Function.comp_def]

@[simp] theorem view_afterRead {ps : List Part} (o size : Nat) (s : State) (hp : [.host] ⊆ ps) :
    view ps (afterRead o size s) = view ps s := by
  simp only [List.cons_subset, List.nil_subset, and_true] at hp
  simp [afterRead, view_modHost, viewHost, hp]

@[simp] theorem view_readBar0 {ps : List Part} (o size : Nat) (s : State) (hp : [.host, .outbox] ⊆ ps) :
    view ps (readBar0 o size s) = view ps s := by
  simp only [List.cons_subset, List.nil_subset, and_true] at hp
  simp [readBar0, hp]

@[simp] theorem view_cfgError {ps : List Part} (r : RingId) (s : State) (hp : [.qps, .events, .host, .eventSeq, .purser, .outbox] ⊆ ps) :
    view ps (cfgError r s) = view ps s := by
  simp only [List.cons_subset, List.nil_subset, and_true] at hp
  unfold cfgError
  dsimp only
  repeat' split
  all_goals simp [view_modHost, viewHost, hp]

@[simp] theorem view_setStatus {ps : List Part} (r : RingId) (f : RingStatus → RingStatus) (s : State) (hp : [.qps, .host] ⊆ ps) :
    view ps (setStatus r f s) = view ps s := by
  simp only [List.cons_subset, List.nil_subset, and_true] at hp
  unfold setStatus
  dsimp only
  repeat' split
  all_goals simp [view_modHost, viewHost, hp]

@[simp] theorem view_setCtrl {ps : List Part} (r : RingId) (c : RingCtrl) (s : State) (hp : [.qps, .host] ⊆ ps) :
    view ps (setCtrl r c s) = view ps s := by
  simp only [List.cons_subset, List.nil_subset, and_true] at hp
  unfold setCtrl
  dsimp only
  repeat' split
  all_goals simp [view_modHost, viewHost, hp]

@[simp] theorem view_zeroIndices {ps : List Part} (r : RingId) (s : State) (hp : [.qps, .host] ⊆ ps) :
    view ps (zeroIndices r s) = view ps s := by
  simp only [List.cons_subset, List.nil_subset, and_true] at hp
  unfold zeroIndices
  dsimp only
  repeat' split
  all_goals simp [view_modHost, viewHost, hp]

@[simp] theorem view_writeCtrl {ps : List Part} (r : RingId) (v : Nat) (s : State)
    (hp : [.qps, .events, .host, .eventSeq, .purser, .outbox] ⊆ ps) :
    view ps (writeCtrl r v s) = view ps s := by
  simp only [List.cons_subset, List.nil_subset, and_true] at hp
  simp [writeCtrl, hp]

@[simp] theorem view_writeRingReg {ps : List Part} (r : RingId) (reg : RingReg) (v : Nat) (s : State)
    (hp : [.qps, .events, .host, .eventSeq, .purser, .outbox] ⊆ ps) :
    view ps (writeRingReg r reg v s) = view ps s := by
  simp only [List.cons_subset, List.nil_subset, and_true] at hp
  unfold writeRingReg
  dsimp only
  repeat' split
  all_goals simp [view_modHost, viewHost, hp]

@[simp] theorem view_writeStatus {ps : List Part} (r : RingId) (v setting : Nat) (s : State) (hp : [.qps, .host] ⊆ ps) :
    view ps (writeStatus r v setting s) = view ps s := by
  simp only [List.cons_subset, List.nil_subset, and_true] at hp
  simp [writeStatus, hp]

@[simp] theorem view_overrun {ps : List Part} (r : RingId) (s : State) (hp : [.qps, .host] ⊆ ps) :
    view ps (overrun r s) = view ps s := by
  simp only [List.cons_subset, List.nil_subset, and_true] at hp
  simp [overrun, hp]

@[simp] theorem view_qpOverrun {ps : List Part} (q : Nat) (s : State) (hp : [.qps, .events, .host, .eventSeq, .purser, .outbox] ⊆ ps) :
    view ps (qpOverrun q s) = view ps s := by
  simp only [List.cons_subset, List.nil_subset, and_true] at hp
  simp [qpOverrun, hp]

@[simp] theorem view_writeSqTail {ps : List Part} (q : Nat) (v : Index) (s : State)
    (hp : [.qps, .events, .host, .eventSeq, .purser, .outbox] ⊆ ps) :
    view ps (writeSqTail q v s) = view ps s := by
  simp only [List.cons_subset, List.nil_subset, and_true] at hp
  simp [writeSqTail, hp]

@[simp] theorem view_writeCqHead {ps : List Part} (q : Nat) (v : Index) (s : State)
    (hp : [.qps, .events, .host, .eventSeq, .purser, .outbox] ⊆ ps) :
    view ps (writeCqHead q v s) = view ps s := by
  simp only [List.cons_subset, List.nil_subset, and_true] at hp
  simp [writeCqHead, hp]

@[simp] theorem view_writeEvHead {ps : List Part} (v : Index) (s : State) (hp : [.qps, .host] ⊆ ps) :
    view ps (writeEvHead v s) = view ps s := by
  simp only [List.cons_subset, List.nil_subset, and_true] at hp
  simp [writeEvHead, view_modHost, viewHost, hp]

@[simp] theorem view_writeAudHead {ps : List Part} (v : Index) (s : State) (hp : [.qps, .host] ⊆ ps) :
    view ps (writeAudHead v s) = view ps s := by
  simp only [List.cons_subset, List.nil_subset, and_true] at hp
  simp [writeAudHead, view_modHost, viewHost, hp]

@[simp] theorem view_flushPending {ps : List Part} (s : State) (hp : [.host, .outbox] ⊆ ps) :
    view ps (flushPending s) = view ps s := by
  simp only [List.cons_subset, List.nil_subset, and_true] at hp
  refine view_foldl _ (fun s v => ?_) _ s
  split
  · exact (view_emit _ _ (by simp [hp])).trans (view_modHost s _ (by simp [viewHost, hp]))
  · rfl

@[simp] theorem view_writeMsix {ps : List Part} (d v : Nat) (s : State) (hp : [.host] ⊆ ps) :
    view ps (writeMsix d v s) = view ps s := by
  simp only [List.cons_subset, List.nil_subset, and_true] at hp
  simp [writeMsix, view, viewAon, viewHost, viewSvc, viewFlt, viewNet, viewHbm, viewRctxs, viewOctxs, viewTide, viewClk, hp]

@[simp] theorem view_writeHdm {ps : List Part} (d v : Nat) (s : State) (hp : [.host] ⊆ ps) :
    view ps (writeHdm d v s) = view ps s := by
  simp only [List.cons_subset, List.nil_subset, and_true] at hp
  simp [writeHdm, view_modHost, viewHost, hp]

@[simp] theorem view_writeRegister {ps : List Part} (o size v : Nat) (s : State)
    (hp : [.qps, .events, .host, .eventSeq, .purser, .outbox] ⊆ ps) :
    view ps (writeRegister o size v s) = view ps s := by
  simp only [List.cons_subset, List.nil_subset, and_true] at hp
  unfold writeRegister
  repeat' split
  all_goals simp [hp]

@[simp] theorem view_dispatchOn {ps : List Part} (x : Exec) (s : State)
    (hp : [.fatal, .qps, .evPort, .vectors, .aer, .events, .running, .eventSeq, .svcCmds, .records, .purser, .accts, .freeCount, .outbox] ⊆ ps) :
    view ps (dispatchOn x s) = view ps s := by
  simp only [List.cons_subset, List.nil_subset, and_true] at hp
  simp [dispatchOn, hp]

@[simp] theorem view_dropLink {ps : List Part} (s : State) (hp : [.qps, .evPort, .running, .host, .net, .accts, .octxVals, .audit] ⊆ ps) :
    view ps (dropLink s) = view ps s := by
  simp only [List.cons_subset, List.nil_subset, and_true] at hp
  unfold dropLink
  rw [view_modHost]
  · simp [hp]
  · simp [viewHost, hp]

@[simp] theorem view_modConfig {ps : List Part} (f : ConfigSpace → ConfigSpace) (s : State) (hp : [.aer, .host] ⊆ ps) :
    view ps (modConfig f s) = view ps s := by
  simp only [List.cons_subset, List.nil_subset, and_true] at hp
  simp [modConfig, view, viewAon, viewHost, viewSvc, viewFlt, viewNet, viewHbm, viewRctxs, viewOctxs, viewTide, viewClk, hp]

@[simp] theorem view_writeConfig {ps : List Part} (r : ConfigReg) (v : Nat) (s : State)
    (hp : [.qps, .evPort, .aer, .running, .host, .net, .accts, .octxVals, .audit, .outbox] ⊆ ps) :
    view ps (writeConfig r v s) = view ps s := by
  simp only [List.cons_subset, List.nil_subset, and_true] at hp
  unfold writeConfig
  dsimp only
  repeat' split
  all_goals simp [view_modHost, viewHost, hp]

@[simp] theorem view_readLine {ps : List Part} (line st : Nat) (p : ParityResult) (s : State)
    (hp : [.fatal, .vectors, .events, .mbox, .eventSeq, .records, .purser, .accts, .freeCount, .outbox] ⊆ ps) :
    view ps (readLine line st p s) = view ps s := by
  simp only [List.cons_subset, List.nil_subset, and_true] at hp
  unfold readLine
  split <;> simp [hp]

@[simp] theorem view_startService {ps : List Part} (x : Exec) (mac : Nat) (s : State)
    (hp : [.fatal, .qps, .evPort, .vectors, .aer, .events, .running, .eventSeq, .svcCmds, .records, .purser, .accts, .freeCount, .outbox] ⊆ ps) :
    view ps (startService x mac s) = view ps s := by
  simp only [List.cons_subset, List.nil_subset, and_true] at hp
  have hsvc (u : State) (w : List Exec) : view ps { u with svc := { u.svc with waiting := w } } = view ps u :=
    view_with_svc u (by simp [viewSvc, hp])
  unfold startService
  dsimp only
  repeat' split
  all_goals simp [hp, hsvc]

@[simp] theorem view_refuseClient {ps : List Part} (mac : Nat) (s : State) (hp : [.freeCount, .outbox] ⊆ ps) :
    view ps (refuseClient mac s) = view ps s := by
  simp only [List.cons_subset, List.nil_subset, and_true] at hp
  simp [refuseClient, view, viewAon, viewHost, viewSvc, viewFlt, viewNet, viewHbm, viewRctxs, viewOctxs, viewTide, viewClk, hp]

@[simp] theorem view_applyDeferred {ps : List Part} (d : Deferred) (s : State)
    (hp : [.serdes, .pwr, .jobs, .net, .lands, .sw, .slips, .freeCount] ⊆ ps) :
    view ps (applyDeferred d s) = view ps s := by
  simp only [List.cons_subset, List.nil_subset, and_true] at hp
  have hpwr (x : Power) : view ps { s with pwr := x } = view ps s := view_with_pwr s (by simp [hp])
  have hsw (x : SwitchCfg) : view ps { s with sw := x } = view ps s := view_with_sw s (by simp [hp])
  have hnet (x : Net) : view ps { s with net := x } = view ps s := view_with_net s (by simp [viewNet, hp])
  cases d with
  | buffers l b => simp [applyDeferred, hp]
  | toll slip c t => simp [applyDeferred, hp]
  | switch c => exact hsw c
  | throttle cap temp => exact hpwr _
  | deviceBudget b => exact hpwr _
  | jobBudget j b => simp [applyDeferred, hp]
  | hawserBudget h b => exact hpwr _
  | releaseSlips =>
    refine (view_foldl _ (fun s n => ?_) _ _).trans (hnet _)
    split <;> simp [hp]

@[simp] theorem view_gainTokens {ps : List Part} (s : State) (hp : [.slips] ⊆ ps) :
    view ps (gainTokens s) = view ps s := by
  simp only [List.cons_subset, List.nil_subset, and_true] at hp
  simp [gainTokens, view, viewAon, viewHost, viewSvc, viewFlt, viewNet, viewHbm, viewRctxs, viewOctxs, viewTide, viewClk, hp]

@[simp] theorem view_countIdleTicks {ps : List Part} (s : State) (hp : [.events, .eventSeq, .purser, .outbox] ⊆ ps) :
    view ps (countIdleTicks s) = view ps s := by
  simp only [List.cons_subset, List.nil_subset, and_true] at hp
  simp [countIdleTicks, view_foldl, hp]

@[simp] theorem view_watchDrain {ps : List Part} (s : State) (hp : [.net] ⊆ ps) :
    view ps (watchDrain s) = view ps s := by
  simp only [List.cons_subset, List.nil_subset, and_true] at hp
  unfold watchDrain
  split <;> simp [hp]

@[simp] theorem view_closeTick {ps : List Part} (s : State) (hp : [.events, .eventSeq, .sentT1, .tide, .lands, .slips, .outbox] ⊆ ps) :
    view ps (closeTick s) = view ps s := by
  simp only [List.cons_subset, List.nil_subset, and_true] at hp
  have hs := view_settleEvents (ps := ps) s (by simp [hp])
  simp only [view, State.mk.injEq] at hs
  simp only [closeTick, view, viewTide, modTide_fields, hp, hs, if_true]

@[simp] theorem view_applyAll {ps : List Part} (s : State)
    (hp : [.serdes, .pwr, .jobs, .net, .lands, .sw, .slips, .deferred, .freeCount] ⊆ ps) :
    view ps (applyAll s) = view ps s := by
  simp only [List.cons_subset, List.nil_subset, and_true] at hp
  unfold applyAll
  exact (view_foldl _ (fun s d => view_applyDeferred _ s (by simp [hp])) _ _).trans ((view_with_deferred _ (by simp [hp])).trans
    (view_gainTokens s (by simp [hp])))

@[simp] theorem view_sendLanes {ps : List Part} (s : State) (hp : [.slips, .outbox] ⊆ ps) :
    view ps (sendLanes s) = view ps s := by
  simp only [List.cons_subset, List.nil_subset, and_true] at hp
  simp [sendLanes, view_foldl, hp]

@[simp] theorem view_tideTick {ps : List Part} (s : State)
    (hp : [.serdes, .pwr, .events, .eventSeq, .purser, .sentT1, .tide, .jobs, .net, .lands, .sw, .slips, .accts, .deck, .stk, .deferred, .freeCount, .outbox] ⊆ ps) :
    view ps (tideTick s) = view ps s := by
  simp only [List.cons_subset, List.nil_subset, and_true] at hp
  unfold tideTick
  split
  · rfl
  · dsimp only
    simp [hp]

end Sys2Proof.Proofs

/-!
The state area's canonical form, over every operation that writes it or drops some of it.
-/
namespace Sys2Proof.Proofs
open Sys2Proof Sys2Proof.Machine Sys2Proof.Laws

/-- Every part but the bytes of the state area. -/
def beyondMem : List Part :=
  [.errorN, .fatal, .island, .sys, .serdes, .clk, .pwr, .units, .qps, .evPort, .vectors, .aer, .events, .running, .host, .mbox, .eventSeq,
    .svcCmds, .svc, .records, .flt, .purser, .sentT1, .tide, .jobs, .told, .asked, .svcChanged, .net, .lands, .sw, .slips, .hawsers,
    .optics, .xings, .incs, .accts, .rctxVals, .rctxs, .octxVals, .octxs, .deck, .stk, .writes, .waits, .audit, .deferred, .freeCount,
    .outbox, .pending]

@[simp] theorem mem_beyondMem (p : Part) : p ∈ beyondMem ↔ p ≠ .mem := by
  cases p <;> decide

@[simp] theorem beyondMem_with_aon (s : State) (v : AlwaysOn) : view beyondMem { s with aon := v } = view beyondMem s := rfl

@[simp] theorem beyondMem_with_clk (s : State) (v : Clocks) : view beyondMem { s with clk := v } = view beyondMem s := rfl

@[simp] theorem beyondMem_with_host (s : State) (v : HostIf) : view beyondMem { s with host := v } = view beyondMem s := rfl

@[simp] theorem beyondMem_with_svc (s : State) (v : Service) : view beyondMem { s with svc := v } = view beyondMem s := rfl

@[simp] theorem beyondMem_with_flt (s : State) (v : Faults) : view beyondMem { s with flt := v } = view beyondMem s := rfl

@[simp] theorem beyondMem_with_tide (s : State) (v : TideUnit) : view beyondMem { s with tide := v } = view beyondMem s := rfl

@[simp] theorem beyondMem_with_net (s : State) (v : Net) : view beyondMem { s with net := v } = view beyondMem s := rfl

@[simp] theorem beyondMem_with_rctxs (s : State) (v : Tab Rctx) : view beyondMem { s with rctxs := v } = view beyondMem s := rfl

@[simp] theorem beyondMem_with_octxs (s : State) (v : Tab Octx) : view beyondMem { s with octxs := v } = view beyondMem s := rfl

/-- The state area is in its canonical form, read in the view that holds nothing else. -/
abbrev Canonical (s : State) : Prop := Memory.wf (view beyondMem s).hbm.mem

theorem canonical_iff (s : State) : Canonical s ↔ Memory.wf s.hbm.mem := by
  simp [Canonical, view, viewHbm]

theorem canonical_foldl {α : Type} (f : State → α → State) (h : ∀ s a, Canonical s → Canonical (f s a)) (l : List α) :
    ∀ s, Canonical s → Canonical (l.foldl f s) := by
  induction l with
  | nil => exact fun _ hs => hs
  | cons a l ih => exact fun s hs => ih (f s a) (h s a hs)

section
variable {s : State} (h : Canonical s)
include h

theorem canonical_of_mem_eq {t : State} (ht : t.hbm.mem = s.hbm.mem) : Canonical t := by
  rw [canonical_iff] at h ⊢
  rwa [ht]

theorem canonical_of_view {t : State} (ht : view beyondMem t = view beyondMem s) : Canonical t := by
  rwa [Canonical, ht]

@[simp] theorem canonical_writeBytes (a : Nat) (bs : List Byte) : Canonical (writeBytes a bs s) :=
  (canonical_iff _).mpr (wf_writeBytes ((canonical_iff s).mp h) a bs)

@[simp] theorem canonical_writeBankPart (d : ODesc) (gs : List Segment) (b off : Nat) (bs : List Byte) :
    Canonical (writeBankPart d gs b off bs s) := by
  refine canonical_foldl _ (fun s x hs => ?_) _ s h
  split
  · exact canonical_writeBytes hs _ _
  · exact hs

@[simp] theorem canonical_applyMove (octx part off : Nat) (bs : List Byte) : Canonical (applyMove octx part off bs s) := by
  unfold applyMove
  repeat' split
  all_goals simp [Canonical, h]

@[simp] theorem canonical_sendMove (octx : Nat) (m : Move) : Canonical (sendMove octx m s) := by
  unfold sendMove
  split
  · exact h
  split
  · exact h
  · dsimp only
    split
    · exact canonical_foldl _ (fun s p hs => canonical_applyMove hs _ _ _ _) _ s h
    · exact canonical_foldl _ (fun s p hs => by simpa [Canonical] using hs) _ s h

@[simp] theorem canonical_fenceNow (octx : Nat) : Canonical (fenceNow octx s) := by
  unfold fenceNow
  split
  · exact h
  split
  · exact h
  · refine canonical_foldl _ (fun s m hs => canonical_sendMove hs _ _) _ _ ?_
    rw [Canonical, view_discardHeld _ _ _ (by simp), view_modOctx _ _ _ (by simp), view_foldl _ (fun s _ => by simp)]
    exact h

@[simp] theorem canonical_commitStep (octx : Nat) : Canonical (commitStep octx s) := by
  have hbeacons (t : Nat) (n : Norms) (l : List Nat) (u : State) (hu : Canonical u) :
      Canonical (l.foldl (fun s i => sendBeacon octx i 1 t (some n) s) u) :=
    canonical_of_view hu (view_foldl _ (fun s i => by simp) _ u)
  have hfence (c : Bool) (d : Nat) (u : State) (hu : Canonical u) :
      Canonical (confirmIfHeld octx (if c then recheckHeld d (fenceNow octx u) else fenceNow octx u)) := by
    cases c <;> simp [Canonical, hu]
  unfold commitStep
  split
  · exact h
  split
  · exact h
  · refine hfence _ _ _ (hbeacons _ _ _ _ ?_)
    dsimp only
    split <;> simp [Canonical, h]

@[simp] theorem canonical_tryCommit (octx : Nat) : Canonical (tryCommit octx s) := by
  unfold tryCommit
  split
  · exact h
  split
  · exact canonical_commitStep h octx
  · exact h

@[simp] theorem canonical_afterWrite (octx : Nat) : Canonical (afterWrite octx s) := by
  unfold afterWrite
  dsimp only
  repeat' split
  all_goals simp [Canonical, h]

@[simp] theorem canonical_takeBeacon (p : Packet) : Canonical (takeBeacon p s) := by
  unfold takeBeacon
  dsimp only
  repeat' split
  all_goals simp [Canonical, h]

@[simp] theorem canonical_takeMove (p : Packet) : Canonical (takeMove p s) := by
  unfold takeMove
  dsimp only
  repeat' split
  all_goals simp [Canonical, h]

@[simp] theorem canonical_flushWrites (octx : Nat) : Canonical (flushWrites octx s) :=
  canonical_of_mem_eq (s := (s.hbm.writes.filter (fun w => w.octx == octx)).foldl (fun s w => writeBytes w.addr w.bytes s) s)
    (canonical_foldl _ (fun _ w hs => canonical_writeBytes hs w.addr w.bytes) _ s h) rfl

@[simp] theorem canonical_consume (p : Packet) : Canonical (consume p s) := by
  unfold consume
  split <;> simp [Canonical, h]

@[simp] theorem canonical_deliver (p : Packet) : Canonical (deliver p s) := by
  unfold deliver
  split <;> simp [Canonical, h]

@[simp] theorem canonical_receiveXing (x : Crossing) (a : Arrival) : Canonical (receiveXing x a s) := by
  have hout (c : Bool) (l : List Packet) (u : State) (hu : Canonical u) :
      Canonical (if c then u else l.foldl (fun s k => deliver k s) u) := by
    split
    · exact hu
    · exact canonical_foldl _ (fun s k hs => canonical_deliver hs k) _ u hu
  unfold receiveXing
  dsimp only
  split
  · simp [Canonical, h]
  split
  · simp [Canonical, h]
  split
  · simp [Canonical, h]
  · refine hout _ _ _ ?_
    split <;> simp [Canonical, h]

@[simp] theorem canonical_peerEgress (a : Arrival) : Canonical (peerEgress a s) := by
  unfold peerEgress
  split
  · simp [Canonical, h]
  · simp [Canonical, h]
  · simp [Canonical, h]
  · have hx := view_xingAccepts (ps := beyondMem) a.pkt s (by simp)
    split
    case h_1 => simp [Canonical, h]
    case h_2 u hu => rw [hu] at hx; simpa [Canonical, hx] using h

@[simp] theorem canonical_actOn (a : Arrival) : Canonical (actOn a s) := by
  unfold actOn
  repeat' split
  all_goals simp [Canonical, h]

@[simp] theorem canonical_receive (a : Arrival) : Canonical (receive a (actOn a) s) := by
  have hup (c : Bool) : Canonical (if c then s else handUp a s) := by
    cases c <;> simp [Canonical, h]
  unfold receive
  dsimp only
  split
  case h_1 u hu =>
    refine canonical_actOn ?_ a
    rw [Canonical, view_takeNext hu (by simp)]
    exact hup _
  case h_2 =>
    refine canonical_foldl _ (fun u l hs => ?_) _ _ (hup _)
    split <;> simpa [Canonical] using hs

@[simp] theorem canonical_arrival (kinds : List Nat) (a : Arrival) : Canonical (arrival kinds a s) := by
  unfold arrival
  split
  · exact canonical_receive h a
  · exact h

omit h in
/-- An empty state area is in its canonical form. -/
theorem canonical_of_mem_nil {t : State} (ht : t.hbm.mem = []) : Canonical t := by
  rw [canonical_iff, ht]
  exact List.Pairwise.nil

omit h in
@[simp] theorem canonical_powerOff (s : State) : Canonical (powerOff s) := canonical_of_mem_nil rfl

omit h in
@[simp] theorem canonical_resetModule (s : State) : Canonical (resetModule s) := canonical_of_mem_nil rfl

omit h in
@[simp] theorem canonical_resetAndStart (s : State) : Canonical (resetAndStart s) := by
  simp [Canonical, resetAndStart]

omit h in
@[simp] theorem canonical_dropDataDomains (s : State) : Canonical (dropDataDomains s) := canonical_of_mem_nil rfl

@[simp] theorem canonical_loseStack (k : Nat) : Canonical (loseStack k s) := by
  have hdrop (x : Tab Stack) (w : List RecordWrite) (lo hi : Nat) :
      Canonical { s with hbm := { s.hbm with mem := dropCells s.hbm.mem lo hi, stk := x, writes := w } } :=
    (canonical_iff _).mpr (wf_dropCells ((canonical_iff s).mp h) lo hi)
  have hstop (l : Tab Rctx) (u : State) (hu : Canonical u) :
      Canonical (l.foldl (fun s r => if r.2.d.deep then stopUnnamed r.1 (ownAddr s) 2 s else s) u) :=
    canonical_foldl _ (fun s r hs => by split <;> simpa [Canonical] using hs) _ u hu
  unfold loseStack
  dsimp only
  rw [Canonical, view_mailboxRecord _ (by simp), view_requeueWaits _ (by simp), view_foldl _ (fun s o => by simp),
    view_raiseFault _ _ _ _ _ _ (by simp)]
  exact hstop _ _ (hdrop _ _ _ _)

@[simp] theorem canonical_loseUnit (u : UnitRef) (detail : Nat) : Canonical (loseUnit u detail s) := by
  have hunits (x : List (UnitRef × Nat)) : Canonical { s with units := x } := canonical_of_mem_eq h rfl
  unfold loseUnit
  dsimp only
  repeat' split
  all_goals simp [Canonical, h]

@[simp] theorem canonical_disposeParity (loc : ParityLoc) : Canonical (disposeParity loc s) := by
  unfold disposeParity
  dsimp only
  repeat' split
  all_goals simp [Canonical, h]

end

end Sys2Proof.Proofs

/-!
What every step keeps: the pin is driven from its causes, and the state area stays canonical.
-/
namespace Sys2Proof.Proofs
open Sys2Proof Sys2Proof.Machine Sys2Proof.Laws

/-- Whatever a row leaves is a settled state (the pin agrees with its causes), its state area canonical where it was before. -/
def Settles (s : State) (r : Result) : Prop :=
  ∀ t, r = .next t → ∃ u, t = settle u ∧ (Canonical s → Canonical u)

theorem settles_finish {s u : State} (h : Canonical s → Canonical u) : Settles s (finish u) := by
  exact fun _ ht => ⟨u, (Host.Outcome.next.inj ht).symm, h⟩

theorem settles_fault {s : State} {f : Fault} : Settles s (.fault f) := fun _ h => by simp at h

theorem settles_ite {s : State} {c : Prop} [Decidable c] {a b : Result} (ha : Settles s a) (hb : Settles s b) :
    Settles s (if c then a else b) := by
  split
  · exact ha
  · exact hb

theorem settles_finish_view {s u : State} (h : view beyondMem u = view beyondMem s) : Settles s (finish u) :=
  settles_finish fun hs => canonical_of_view hs h

theorem settles_finish_of_mem_eq {s u : State} (h : u.hbm.mem = s.hbm.mem) : Settles s (finish u) :=
  settles_finish fun hs => canonical_of_mem_eq hs h

theorem canonical_admitCmd {x : Exec} {op : Nat} {s s1 : State} {r : Running} (h : admitCmd x op s = some (r, s1))
    (hs : Canonical s) : Canonical s1 := by
  obtain ⟨l, rfl⟩ | rfl := admitted_state h
  · exact canonical_of_mem_eq hs rfl
  · exact canonical_of_mem_eq hs rfl

theorem settles_runCmd {x : Exec} {s : State} {row : State → Row} {effect : State → Effect}
    (h : ∀ u, Canonical u → Canonical (effect u).state) : Settles s (runCmd x s row effect) := by
  unfold runCmd
  split
  case h_1 => exact settles_finish id
  case h_2 r s1 hadmit =>
    split
    · exact settles_finish fun hs => by simp [Canonical, canonical_admitCmd hadmit hs]
    · exact settles_finish fun hs => by simp [Canonical, h _ (canonical_admitCmd hadmit hs)]

theorem settles_runLater {x : Exec} {s : State} {row : State → Row} {start : Running → State → State}
    (h : ∀ r u, Canonical u → Canonical (start r u)) : Settles s (runLater x s row start) := by
  unfold runLater
  split
  case h_1 => exact settles_finish id
  case h_2 r s1 hadmit =>
    split
    · exact settles_finish fun hs => by simp [Canonical, canonical_admitCmd hadmit hs]
    · exact settles_finish fun hs => h _ _ (canonical_admitCmd hadmit hs)

theorem settles_mailboxAnswer {s : State} {payload : State → List Byte × State}
    (h : ∀ u, Canonical u → Canonical (payload u).2) : Settles s (mailboxAnswer payload s) := by
  unfold mailboxAnswer
  split
  · exact settles_finish fun hs => by simp [Canonical, h s hs]
  · exact settles_finish id

theorem settles_smbusAnswer (o : State → Output) (s : State) : Settles s (smbusAnswer o s) := by
  unfold smbusAnswer
  split
  · exact settles_finish fun hs => by simp [Canonical, hs]
  · refine settles_finish fun hs => ?_
    by_cases hf : (fresh 1 s).1 = 1#1 <;> simp [Canonical, hf, hs]
  · exact settles_finish id



@[simp] theorem settles_execAfiqueSign (s : State) :
    Settles s (execAfiqueSign s) := by
  unfold execAfiqueSign
  dsimp only
  repeat' split
  case h_1 => exact settles_finish id
  case isTrue => exact settles_finish id
  case h_1 => exact settles_finish_of_mem_eq rfl
  case h_2 =>
    refine settles_finish fun h => ?_
    have hq (x : Audit) (n : Nat) : Canonical { s with audit := x, freeCount := n } := canonical_of_mem_eq h rfl
    simp [Canonical, hq]

@[simp] theorem settles_execAuditRingWrite (s : State) (ok : Bool) :
    Settles s (execAuditRingWrite s ok) := by
  have hm (f : HostIf → HostIf) : view beyondMem (modHost f s) = view beyondMem s := view_modHost s f (by simp [viewHost])
  unfold execAuditRingWrite
  split
  · exact settles_finish id
  refine settles_ite (settles_ite ?_ ?_) (settles_finish id)
  · exact settles_finish fun h => by simp [Canonical, hm, h]
  · refine settles_finish fun h => ?_
    rw [Canonical, view_raiseEvent _ _ _ _ (by simp), view_audWriteBack _ (by simp)]
    exact canonical_of_mem_eq h rfl

@[simp] theorem settles_execAuditRingSet (x : Exec) (s : State) :
    Settles s (execAuditRingSet x s) := by
  exact settles_runCmd fun u hu => hu

@[simp] theorem settles_execAuditPath (x : Exec) (s : State) :
    Settles s (execAuditPath x s) := by
  exact settles_runCmd fun u hu => hu

@[simp] theorem settles_execFaultRead (x : Exec) (s : State) :
    Settles s (execFaultRead x s) := by
  exact settles_runCmd fun u hu => hu

@[simp] theorem settles_execFaultAck (x : Exec) (s : State) :
    Settles s (execFaultAck x s) := by
  refine settles_runCmd fun u hu => ?_
  dsimp only
  split <;> simp [Canonical, Effect.ok, hu]

@[simp] theorem settles_execFaultClear (x : Exec) (s : State) :
    Settles s (execFaultClear x s) := by
  refine settles_runCmd fun u hu => ?_
  dsimp only
  split <;> simp [Canonical, Effect.ok, hu]

@[simp] theorem settles_execFaultModeSet (x : Exec) (s : State) :
    Settles s (execFaultModeSet x s) := by
  exact settles_runCmd fun u hu => hu

@[simp] theorem settles_execFaultInject (x : Exec) (s : State) :
    Settles s (execFaultInject x s) := by
  exact settles_runCmd fun u hu => hu

@[simp] theorem settles_execPurserRead (x : Exec) (s : State) :
    Settles s (execPurserRead x s) := by
  refine settles_runCmd fun u hu => ?_
  dsimp only [Effect.ok]
  split
  · exact canonical_of_mem_eq hu rfl
  · exact hu

@[simp] theorem settles_execAttest (x : Exec) (s : State) :
    Settles s (execAttest x s) := by
  exact settles_runLater fun r u hu => hu

@[simp] theorem settles_execCertRead (x : Exec) (s : State) :
    Settles s (execCertRead x s) := by
  exact settles_runCmd fun u hu => hu

@[simp] theorem settles_execImageQuery (x : Exec) (s : State) :
    Settles s (execImageQuery x s) := by
  exact settles_runCmd fun u hu => hu

@[simp] theorem settles_execActivate (x : Exec) (s : State) :
    Settles s (execActivate x s) := by
  exact settles_runCmd fun u hu => hu

@[simp] theorem settles_execImageBegin (f : ImageFrame) (s : State) :
    Settles s (execImageBegin f s) := by
  unfold execImageBegin
  repeat' split
  all_goals exact settles_finish fun h => by simp [Canonical, h]

@[simp] theorem settles_execSlotEraseDone (s : State) :
    Settles s (execSlotEraseDone s) := by
  unfold execSlotEraseDone
  repeat' split
  all_goals exact settles_finish fun h => by simp [Canonical, h]

@[simp] theorem settles_execImageData (f : ImageFrame) (s : State) :
    Settles s (execImageData f s) := by
  unfold execImageData
  dsimp only
  repeat' split
  all_goals exact settles_finish fun h => by simp [Canonical, h]

@[simp] theorem settles_execImageEnd (f : ImageFrame) (s : State) :
    Settles s (execImageEnd f s) := by
  unfold execImageEnd
  repeat' split
  all_goals exact settles_finish fun h => by simp [Canonical, h]

@[simp] theorem settles_execImageAbort (f : ImageFrame) (s : State) :
    Settles s (execImageAbort f s) := by
  unfold execImageAbort
  repeat' split
  all_goals exact settles_finish fun h => by simp [Canonical, h]

@[simp] theorem settles_execTransferSilence (s : State) :
    Settles s (execTransferSilence s) := by
  exact settles_finish fun h => by simp [Canonical, h]

@[simp] theorem settles_execFoldBatchDone (s : State) :
    Settles s (execFoldBatchDone s) := by
  unfold execFoldBatchDone
  repeat' split
  all_goals exact settles_finish fun h => by simp [Canonical, h]

@[simp] theorem settles_execSoftLagExpiry (ctx q : Nat) (s : State) :
    Settles s (execSoftLagExpiry ctx q s) := by
  unfold execSoftLagExpiry
  dsimp only
  repeat' split
  all_goals exact settles_finish fun h => by simp [Canonical, view_foldl, h]

@[simp] theorem settles_execHardLagExpiry (ctx q : Nat) (s : State) :
    Settles s (execHardLagExpiry ctx q s) := by
  unfold execHardLagExpiry
  repeat' split
  all_goals exact settles_finish fun h => by simp [Canonical, h]

@[simp] theorem settles_execCreditSend (ctx slot : Nat) (s : State) :
    Settles s (execCreditSend ctx slot s) := by
  unfold execCreditSend
  repeat' split
  all_goals exact settles_finish fun h => by simp [Canonical, h]

@[simp] theorem settles_execChunkRelease (ctx q : Nat) (s : State) :
    Settles s (execChunkRelease ctx q s) := by
  unfold execChunkRelease
  repeat' split
  all_goals exact settles_finish fun h => by simp [Canonical, h]

@[simp] theorem settles_execDevInfo (x : Exec) (s : State) :
    Settles s (execDevInfo x s) := by
  exact settles_runCmd fun u hu => hu

@[simp] theorem settles_execNop (x : Exec) (s : State) :
    Settles s (execNop x s) := by
  exact settles_runCmd fun u hu => hu

@[simp] theorem settles_execMonitorRead (x : Exec) (s : State) :
    Settles s (execMonitorRead x s) := by
  exact settles_runCmd fun u hu => hu

@[simp] theorem settles_execSetLatencyBudget (x : Exec) (s : State) :
    Settles s (execSetLatencyBudget x s) := by
  refine settles_runCmd fun u hu => ?_
  dsimp only [Effect.ok]
  repeat' split
  all_goals simp [Canonical, hu]

@[simp] theorem settles_execThrottleSet (x : Exec) (s : State) :
    Settles s (execThrottleSet x s) := by
  exact settles_runCmd fun u hu => hu

@[simp] theorem settles_execDevReset (x : Exec) (s : State) :
    Settles s (execDevReset x s) := by
  exact settles_runCmd fun u hu => hu

@[simp] theorem settles_execJobCreate (x : Exec) (s : State) :
    Settles s (execJobCreate x s) := by
  exact settles_runCmd fun u hu => hu

@[simp] theorem settles_execJobDestroy (x : Exec) (s : State) :
    Settles s (execJobDestroy x s) := by
  exact settles_runCmd fun u hu => hu

@[simp] theorem settles_execJobRanksSet (x : Exec) (s : State) :
    Settles s (execJobRanksSet x s) := by
  exact settles_runCmd fun u hu => hu

@[simp] theorem settles_execJobClassSet (x : Exec) (s : State) :
    Settles s (execJobClassSet x s) := by
  exact settles_runCmd fun u hu => hu

@[simp] theorem settles_execJobSliceSet (x : Exec) (s : State) :
    Settles s (execJobSliceSet x s) := by
  exact settles_runCmd fun u hu => hu

@[simp] theorem settles_execPhaseMapSet (x : Exec) (s : State) :
    Settles s (execPhaseMapSet x s) := by
  exact settles_runCmd fun u hu => hu

@[simp] theorem settles_execJobQuery (x : Exec) (s : State) :
    Settles s (execJobQuery x s) := by
  exact settles_runCmd fun u hu => hu

@[simp] theorem settles_execRctxCreate (x : Exec) (s : State) :
    Settles s (execRctxCreate x s) := by
  exact settles_runCmd fun u hu => hu

@[simp] theorem settles_execRctxDestroy (x : Exec) (s : State) :
    Settles s (execRctxDestroy x s) := by
  exact settles_runCmd fun u hu => by simp [Canonical, Effect.ok, hu]

@[simp] theorem settles_execRctxQuery (x : Exec) (s : State) :
    Settles s (execRctxQuery x s) := by
  refine settles_runCmd fun u hu => ?_
  dsimp only
  split <;> simp [Canonical, Effect.ok, hu]

@[simp] theorem settles_execRctxReform (x : Exec) (s : State) :
    Settles s (execRctxReform x s) := by
  exact settles_runCmd fun u hu => by simp [Canonical, Effect.ok, hu]

@[simp] theorem settles_execAuditSeal (x : Exec) (s : State) :
    Settles s (execAuditSeal x s) := by
  refine settles_runCmd fun u hu => ?_
  dsimp only
  split <;> simp [Canonical, Effect.ok, hu]

@[simp] theorem settles_execOctxCreate (x : Exec) (s : State) :
    Settles s (execOctxCreate x s) := by
  exact settles_runCmd fun u hu => hu

@[simp] theorem settles_execOctxDestroy (x : Exec) (s : State) :
    Settles s (execOctxDestroy x s) := by
  refine settles_runCmd fun u hu => ?_
  have hd (x : Tab Octx) (v : State) (hv : Canonical v) : Canonical { v with octxs := x } := canonical_of_mem_eq hv rfl
  dsimp only [Effect.ok]
  split
  · exact hu
  · exact hd _ _ (by simp [Canonical, hu])

@[simp] theorem settles_execOctxQuery (x : Exec) (s : State) :
    Settles s (execOctxQuery x s) := by
  refine settles_runCmd fun u hu => ?_
  dsimp only
  split <;> simp [Canonical, Effect.ok, hu]

@[simp] theorem settles_execStepCommit (x : Exec) (s : State) :
    Settles s (execStepCommit x s) := by
  exact settles_runLater fun r u hu => by simp [Canonical, hu]

@[simp] theorem settles_execStepRollback (x : Exec) (s : State) :
    Settles s (execStepRollback x s) := by
  refine settles_runCmd fun u hu => ?_
  dsimp only [Effect.ok]
  repeat' split
  all_goals simp [Canonical, hu]

@[simp] theorem settles_execReshardFence (x : Exec) (s : State) :
    Settles s (execReshardFence x s) := by
  exact settles_runCmd fun u hu => hu

@[simp] theorem settles_execFoldBatch (s : State) :
    Settles s (execFoldBatch s) := by
  unfold execFoldBatch
  repeat' split
  all_goals exact settles_finish fun h => by simp [Canonical, h]

@[simp] theorem settles_execUpdateSweep (s : State) :
    Settles s (execUpdateSweep s) := by
  unfold execUpdateSweep
  repeat' split
  all_goals exact settles_finish fun h => by simp [Canonical, h]

@[simp] theorem settles_execGatherSweep (s : State) :
    Settles s (execGatherSweep s) := by
  unfold execGatherSweep
  repeat' split
  all_goals exact settles_finish fun h => by simp [Canonical, h]

@[simp] theorem settles_execRecordWriteDone (octx seg chunk : Nat) (s : State) :
    Settles s (execRecordWriteDone octx seg chunk s) := by
  unfold execRecordWriteDone
  split
  · exact settles_finish id
  · refine settles_finish fun h => ?_
    have he (x : List RecordWrite) : Canonical { s with hbm := { s.hbm with writes := x } } := canonical_of_mem_eq h rfl
    simp [Canonical, he]

@[simp] theorem settles_execImageDigestDone (octx seg chunk : Nat) (s : State) :
    Settles s (execImageDigestDone octx seg chunk s) := by
  unfold execImageDigestDone
  dsimp only
  repeat' split
  all_goals exact settles_finish fun h => by simp [Canonical, view_foldl, h]

@[simp] theorem settles_execBeaconTimeout (octx : Nat) (s : State) :
    Settles s (execBeaconTimeout octx s) := by
  unfold execBeaconTimeout
  repeat' split
  all_goals exact settles_finish fun h => by simp [Canonical, h]

@[simp] theorem settles_execReshardInstall (octx : Nat) (s : State) :
    Settles s (execReshardInstall octx s) := by
  unfold execReshardInstall
  dsimp only
  repeat' split
  all_goals exact settles_finish fun h => by simp [Canonical, view_foldl, h]

@[simp] theorem settles_execReroute (hawser : Nat) (s : State) :
    Settles s (execReroute hawser s) := by
  unfold execReroute
  dsimp only
  split
  · exact settles_finish id
  · refine settles_finish fun h => ?_
    rw [Canonical, view_foldl _ (fun u l => ?_)]
    · exact h
    · rw [view_foldl _ (fun v q => by simp)]
      simp

@[simp] theorem settles_execPartitionEvaluation (s : State) :
    Settles s (execPartitionEvaluation s) := by
  unfold execPartitionEvaluation
  dsimp only
  repeat' split
  all_goals exact settles_finish fun h => by simp [Canonical, view_foldl, h]

@[simp] theorem settles_execIdentTimer (slip : Nat) (s : State) :
    Settles s (execIdentTimer slip s) := by
  unfold execIdentTimer
  dsimp only
  repeat' split
  all_goals exact settles_finish fun h => by simp [Canonical, h]

@[simp] theorem settles_execIdent (slip : Nat) (m : Ident) (s : State) :
    Settles s (execIdent slip m s) := by
  exact settles_finish fun h => by simp [Canonical, h]

@[simp] theorem settles_execIdentAck (slip : Nat) (m : IdentAck) (s : State) :
    Settles s (execIdentAck slip m s) := by
  exact settles_finish fun h => by simp [Canonical, h]

@[simp] theorem settles_execIdentTimeout (slip : Nat) (s : State) :
    Settles s (execIdentTimeout slip s) := by
  unfold execIdentTimeout
  dsimp only
  repeat' split
  all_goals exact settles_finish fun h => by simp [Canonical, h]

@[simp] theorem settles_execNakReplay (slip : Nat) (s : State) :
    Settles s (execNakReplay slip s) := by
  unfold execNakReplay
  dsimp only
  repeat' split
  all_goals exact settles_finish fun h => by simp [Canonical, h]

@[simp] theorem settles_execReplayTimeout (slip : Nat) (s : State) :
    Settles s (execReplayTimeout slip s) := by
  unfold execReplayTimeout
  dsimp only
  repeat' split
  all_goals exact settles_finish fun h => by simp [Canonical, h]

@[simp] theorem settles_execTrainingFrame (slip : Nat) (rx : TrainRx) (s : State) :
    Settles s (execTrainingFrame slip rx s) := by
  unfold execTrainingFrame
  dsimp only
  repeat' split
  all_goals exact settles_finish fun h => by simp [Canonical, h]

@[simp] theorem settles_execBringupStepDone (slip : Nat) (s : State) :
    Settles s (execBringupStepDone slip s) := by
  unfold execBringupStepDone
  dsimp only
  repeat' split
  all_goals exact settles_finish fun h => by simp [Canonical, h]

@[simp] theorem settles_execBringupStepTimeout (slip : Nat) (s : State) :
    Settles s (execBringupStepTimeout slip s) := by
  unfold execBringupStepTimeout
  dsimp only
  repeat' split
  all_goals exact settles_finish fun h => by simp [Canonical, h]

@[simp] theorem settles_execLightLoss (slip : Nat) (s : State) :
    Settles s (execLightLoss slip s) := by
  unfold execLightLoss
  dsimp only
  repeat' split
  all_goals exact settles_finish fun h => by simp [Canonical, h]

@[simp] theorem settles_execAlignmentMarker (slip : Nat) (lower upper : List Nat) (skew : Int) (s : State) :
    Settles s (execAlignmentMarker slip lower upper skew s) := by
  unfold execAlignmentMarker
  dsimp only
  split
  · exact settles_finish id
  · exact settles_finish fun h => by simp [Canonical, h]

@[simp] theorem settles_execCodewordReceive (slip : Nat) (lower upper : List Nat) (s : State) :
    Settles s (execCodewordReceive slip lower upper s) := by
  unfold execCodewordReceive
  dsimp only
  repeat' split
  all_goals exact settles_finish fun h => by simp [Canonical, h]

@[simp] theorem settles_execPatternSymbolReceive (slip lane : Nat) (levels : List Nat) (s : State) :
    Settles s (execPatternSymbolReceive slip lane levels s) := by
  unfold execPatternSymbolReceive
  dsimp only
  repeat' split
  all_goals exact settles_finish fun h => by simp [Canonical, h]

@[simp] theorem settles_execOpticsAlarm (engine lane : Nat) (power : Bool) (s : State) :
    Settles s (execOpticsAlarm engine lane power s) := by
  unfold execOpticsAlarm
  dsimp only
  repeat' split
  all_goals exact settles_finish fun h => by simp [Canonical, h]

@[simp] theorem settles_execOpticsAlarmClear (engine lane : Nat) (power : Bool) (s : State) :
    Settles s (execOpticsAlarmClear engine lane power s) := by
  exact settles_finish id

@[simp] theorem settles_execTransitPacket (a : Arrival) (s : State) :
    Settles s (execTransitPacket a s) := by
  unfold execTransitPacket

  split
  · exact settles_finish fun h => canonical_receive h a
  · exact settles_finish id

@[simp] theorem settles_execUnknownPacket (a : Arrival) (s : State) :
    Settles s (execUnknownPacket a s) := by
  unfold execUnknownPacket
  dsimp only
  split
  · exact settles_finish fun h => canonical_receive h a
  · exact settles_finish id

@[simp] theorem settles_execWrite (a : Arrival) (s : State) :
    Settles s (execWrite a s) := by
  exact settles_finish fun h => by simp [Canonical, h]

@[simp] theorem settles_execContribute (a : Arrival) (s : State) :
    Settles s (execContribute a s) := by
  exact settles_finish fun h => by simp [Canonical, h]

@[simp] theorem settles_execContrib (a : Arrival) (s : State) :
    Settles s (execContrib a s) := by
  exact settles_finish fun h => by simp [Canonical, h]

@[simp] theorem settles_execScale (a : Arrival) (s : State) :
    Settles s (execScale a s) := by
  exact settles_finish fun h => by simp [Canonical, h]

@[simp] theorem settles_execTrailer (a : Arrival) (s : State) :
    Settles s (execTrailer a s) := by
  exact settles_finish fun h => by simp [Canonical, h]

@[simp] theorem settles_execPdesc (a : Arrival) (s : State) :
    Settles s (execPdesc a s) := by
  exact settles_finish fun h => by simp [Canonical, h]

@[simp] theorem settles_execPdata (a : Arrival) (s : State) :
    Settles s (execPdata a s) := by
  exact settles_finish fun h => by simp [Canonical, h]

@[simp] theorem settles_execCredit (a : Arrival) (s : State) :
    Settles s (execCredit a s) := by
  exact settles_finish fun h => by simp [Canonical, h]

@[simp] theorem settles_execResend (a : Arrival) (s : State) :
    Settles s (execResend a s) := by
  exact settles_finish fun h => by simp [Canonical, h]

@[simp] theorem settles_execStatus (a : Arrival) (s : State) :
    Settles s (execStatus a s) := by
  exact settles_finish fun h => by simp [Canonical, h]

@[simp] theorem settles_execRingStop (a : Arrival) (s : State) :
    Settles s (execRingStop a s) := by
  exact settles_finish fun h => by simp [Canonical, h]

@[simp] theorem settles_execResult (a : Arrival) (s : State) :
    Settles s (execResult a s) := by
  exact settles_finish fun h => by simp [Canonical, h]

@[simp] theorem settles_execGather (a : Arrival) (s : State) :
    Settles s (execGather a s) := by
  exact settles_finish fun h => by simp [Canonical, h]

@[simp] theorem settles_execGatherReq (a : Arrival) (s : State) :
    Settles s (execGatherReq a s) := by
  exact settles_finish fun h => by simp [Canonical, h]

@[simp] theorem settles_execDrawReq (a : Arrival) (s : State) :
    Settles s (execDrawReq a s) := by
  exact settles_finish fun h => by simp [Canonical, h]

@[simp] theorem settles_execBeacon (a : Arrival) (s : State) :
    Settles s (execBeacon a s) := by
  exact settles_finish fun h => by simp [Canonical, h]

@[simp] theorem settles_execNorm (a : Arrival) (s : State) :
    Settles s (execNorm a s) := by
  exact settles_finish fun h => by simp [Canonical, h]

@[simp] theorem settles_execMove (a : Arrival) (s : State) :
    Settles s (execMove a s) := by
  exact settles_finish fun h => by simp [Canonical, h]

@[simp] theorem settles_execWriteDoneArrival (a : Arrival) (s : State) :
    Settles s (execWriteDoneArrival a s) := by
  exact settles_finish fun h => by simp [Canonical, h]

@[simp] theorem settles_execXsync (a : Arrival) (s : State) :
    Settles s (execXsync a s) := by
  exact settles_finish fun h => by simp [Canonical, h]

@[simp] theorem settles_execXsyncTimer (landing peer peerLanding : Nat) (s : State) :
    Settles s (execXsyncTimer landing peer peerLanding s) := by
  unfold execXsyncTimer
  repeat' split
  all_goals exact settles_finish fun h => by simp [Canonical, h]

@[simp] theorem settles_execXack (a : Arrival) (s : State) :
    Settles s (execXack a s) := by
  exact settles_finish fun h => by simp [Canonical, h]

@[simp] theorem settles_execXackTimer (landing peer peerLanding lane : Nat) (s : State) :
    Settles s (execXackTimer landing peer peerLanding lane s) := by
  unfold execXackTimer
  repeat' split
  all_goals exact settles_finish fun h => by simp [Canonical, h]

@[simp] theorem settles_execCrossingSend (landing peer peerLanding lane : Nat) (s : State) :
    Settles s (execCrossingSend landing peer peerLanding lane s) := by
  unfold execCrossingSend
  dsimp only
  repeat' split
  all_goals exact settles_finish fun h => by simp [Canonical, h]

@[simp] theorem settles_execRetransmitTimeout (landing peer peerLanding lane : Nat) (s : State) :
    Settles s (execRetransmitTimeout landing peer peerLanding lane s) := by
  unfold execRetransmitTimeout
  repeat' split
  all_goals exact settles_finish fun h => by simp [Canonical, h]

@[simp] theorem settles_execOriginSend (landing : Nat) (s : State) :
    Settles s (execOriginSend landing s) := by
  unfold execOriginSend
  dsimp only
  repeat' split
  all_goals exact settles_finish fun h => by simp [Canonical, view_foldl, h]

@[simp] theorem settles_execMcastResidue (landing entry : Nat) (s : State) :
    Settles s (execMcastResidue landing entry s) := by
  unfold execMcastResidue
  dsimp only
  repeat' split
  all_goals exact settles_finish fun h => by simp [Canonical, view_foldl, h]

@[simp] theorem settles_execPacketStart (slip : Nat) (s : State) :
    Settles s (execPacketStart slip s) := by
  unfold execPacketStart
  dsimp only
  repeat' split
  all_goals exact settles_finish fun h => by simp [Canonical, h]

@[simp] theorem settles_execCrossingOpen (x : Exec) (s : State) :
    Settles s (execCrossingOpen x s) := by
  exact settles_runCmd fun u hu => hu

@[simp] theorem settles_execCrossingClose (x : Exec) (s : State) :
    Settles s (execCrossingClose x s) := by
  refine settles_runCmd fun u hu => ?_
  dsimp only
  split <;> simp [Canonical, Effect.ok, hu]

@[simp] theorem settles_execCrossingReset (x : Exec) (s : State) :
    Settles s (execCrossingReset x s) := by
  refine settles_runCmd fun u hu => ?_
  dsimp only [Effect.ok]
  repeat' split
  all_goals simp [Canonical, hu]

@[simp] theorem settles_execCrossingQuery (x : Exec) (s : State) :
    Settles s (execCrossingQuery x s) := by
  refine settles_runCmd fun u hu => ?_
  dsimp only
  split <;> simp [Canonical, Effect.ok, hu]

@[simp] theorem settles_execEndpointSet (x : Exec) (s : State) :
    Settles s (execEndpointSet x s) := by
  exact settles_runCmd fun u hu => hu

@[simp] theorem settles_execRouteSet (x : Exec) (s : State) :
    Settles s (execRouteSet x s) := by
  refine settles_runCmd fun u hu => ?_
  dsimp only [Effect.ok]
  repeat' split
  all_goals simp [Canonical, hu]

@[simp] theorem settles_execRouteSwitch (x : Exec) (s : State) :
    Settles s (execRouteSwitch x s) := by
  exact settles_runLater fun r u hu => by simp [Canonical, hu]

@[simp] theorem settles_execRouteSwitchTime (s : State) :
    Settles s (execRouteSwitchTime s) := by
  unfold execRouteSwitchTime
  dsimp only
  repeat' split
  all_goals exact settles_finish fun h => by simp [Canonical, h]

@[simp] theorem settles_execBankRetire (s : State) :
    Settles s (execBankRetire s) := by
  unfold execBankRetire
  dsimp only
  repeat' split
  all_goals exact settles_finish fun h => by simp [Canonical, h]

@[simp] theorem settles_execRouteQuery (x : Exec) (s : State) :
    Settles s (execRouteQuery x s) := by
  exact settles_runCmd fun u hu => hu

@[simp] theorem settles_execFabricAddrSet (x : Exec) (s : State) :
    Settles s (execFabricAddrSet x s) := by
  exact settles_runCmd fun u hu => by simp [Canonical, Effect.ok, hu]

@[simp] theorem settles_execBufferSet (x : Exec) (s : State) :
    Settles s (execBufferSet x s) := by
  exact settles_runCmd fun u hu => hu

@[simp] theorem settles_execServiceSet (x : Exec) (s : State) :
    Settles s (execServiceSet x s) := by
  exact settles_runCmd fun u hu => hu

@[simp] theorem settles_execTollSet (x : Exec) (s : State) :
    Settles s (execTollSet x s) := by
  exact settles_runCmd fun u hu => hu

@[simp] theorem settles_execSwitchSet (x : Exec) (s : State) :
    Settles s (execSwitchSet x s) := by
  exact settles_runCmd fun u hu => hu

@[simp] theorem settles_execTideTableSet (x : Exec) (s : State) :
    Settles s (execTideTableSet x s) := by
  exact settles_runCmd fun u hu => hu

@[simp] theorem settles_execHawserSet (x : Exec) (s : State) :
    Settles s (execHawserSet x s) := by
  refine settles_runCmd fun u hu => ?_
  have hs (x : Tab Hawser) : Canonical { u with hawsers := x } := canonical_of_mem_eq hu rfl
  simp [Canonical, Effect.ok, hs]

@[simp] theorem settles_execHawserClear (x : Exec) (s : State) :
    Settles s (execHawserClear x s) := by
  refine settles_runCmd fun u hu => ?_
  have hs (x : Tab Hawser) : Canonical { u with hawsers := x } := canonical_of_mem_eq hu rfl
  simp [Canonical, Effect.ok, hs]

@[simp] theorem settles_execNeighbourMapSet (x : Exec) (s : State) :
    Settles s (execNeighbourMapSet x s) := by
  refine settles_runCmd fun u hu => ?_
  have hs (x : Net) : Canonical { u with net := x } := canonical_of_mem_eq hu rfl
  simp [Canonical, Effect.ok, hs]

@[simp] theorem settles_execNeighbourQuery (x : Exec) (s : State) :
    Settles s (execNeighbourQuery x s) := by
  exact settles_runCmd fun u hu => hu

@[simp] theorem settles_execLinkCountersRead (x : Exec) (s : State) :
    Settles s (execLinkCountersRead x s) := by
  refine settles_runCmd fun u hu => ?_
  dsimp only [Effect.ok]
  repeat' split
  all_goals simp [Canonical, view_foldl, hu]

@[simp] theorem settles_execLaneConfig (x : Exec) (s : State) :
    Settles s (execLaneConfig x s) := by
  exact settles_runCmd fun u hu => by simp [Canonical, Effect.ok, hu]

@[simp] theorem settles_execLaneLoopback (x : Exec) (s : State) :
    Settles s (execLaneLoopback x s) := by
  exact settles_runCmd fun u hu => by simp [Canonical, Effect.ok, hu]

@[simp] theorem settles_execLaneStatusRead (x : Exec) (s : State) :
    Settles s (execLaneStatusRead x s) := by
  refine settles_runCmd fun u hu => ?_
  dsimp only [Effect.ok]
  all_goals simp [Canonical, view_foldl, hu]

@[simp] theorem settles_execLaneCountersRead (x : Exec) (s : State) :
    Settles s (execLaneCountersRead x s) := by
  refine settles_runCmd fun u hu => ?_
  dsimp only [Effect.ok]
  repeat' split
  all_goals simp [Canonical, view_foldl, hu]

@[simp] theorem settles_execOpticsRead (x : Exec) (s : State) :
    Settles s (execOpticsRead x s) := by
  refine settles_runCmd fun u hu => ?_
  dsimp only [Effect.ok]
  all_goals simp [Canonical, view_foldl, hu]

@[simp] theorem settles_execAnnounceTimer (s : State) :
    Settles s (execAnnounceTimer s) := by
  unfold execAnnounceTimer
  repeat' split
  all_goals exact settles_finish fun h => by simp [Canonical, view_foldl, h]

@[simp] theorem settles_execAnnounce (slip : Nat) (m : TideMsg) (s : State) :
    Settles s (execAnnounce slip m s) := by
  unfold execAnnounce
  dsimp only
  repeat' split
  all_goals exact settles_finish fun h => by simp [Canonical, h]

@[simp] theorem settles_execSyncTimer (s : State) :
    Settles s (execSyncTimer s) := by
  unfold execSyncTimer
  repeat' split
  all_goals exact settles_finish fun h => by simp [Canonical, h]

@[simp] theorem settles_execSyncReq (slip : Nat) (m : TideMsg) (t2 : Tide) (t2Frac : Nat) (s : State) :
    Settles s (execSyncReq slip m t2 t2Frac s) := by
  unfold execSyncReq
  dsimp only
  repeat' split
  all_goals exact settles_finish fun h => by simp [Canonical, h]

@[simp] theorem settles_execSyncResp (slip : Nat) (m : TideMsg) (t4 : Tide) (t4Frac : Nat) (s : State) :
    Settles s (execSyncResp slip m t4 t4Frac s) := by
  unfold execSyncResp
  dsimp only
  repeat' split
  all_goals exact settles_finish fun h => by simp [Canonical, h]

@[simp] theorem settles_execParentSilence (s : State) :
    Settles s (execParentSilence s) := by
  unfold execParentSilence
  dsimp only
  repeat' split
  all_goals exact settles_finish fun h => by simp [Canonical, h]

@[simp] theorem settles_execPpsEdge (intervalNs : Nat) (refOk : Bool) (s : State) :
    Settles s (execPpsEdge intervalNs refOk s) := by
  unfold execPpsEdge
  dsimp only
  repeat' split
  all_goals exact settles_finish fun h => by simp [Canonical, h]

@[simp] theorem settles_execPpsMissing (s : State) :
    Settles s (execPpsMissing s) := by
  unfold execPpsMissing
  repeat' split
  all_goals exact settles_finish fun h => by simp [Canonical, h]

@[simp] theorem settles_execBadCycle (s : State) :
    Settles s (execBadCycle s) := by
  unfold execBadCycle
  repeat' split
  all_goals exact settles_finish fun h => by simp [Canonical, h]

@[simp] theorem settles_execTideConfig (x : Exec) (s : State) :
    Settles s (execTideConfig x s) := by
  exact settles_runCmd fun u hu => by simp [Canonical, Effect.ok, hu]

@[simp] theorem settles_execTideQuery (x : Exec) (s : State) :
    Settles s (execTideQuery x s) := by
  exact settles_runCmd fun u hu => hu

@[simp] theorem settles_execLaunchAt (x : Exec) (s : State) :
    Settles s (execLaunchAt x s) := by
  exact settles_runCmd fun u hu => hu

@[simp] theorem settles_execDeterminismSet (x : Exec) (s : State) :
    Settles s (execDeterminismSet x s) := by
  exact settles_runCmd fun u hu => hu

@[simp] theorem settles_execTopologySet (x : Exec) (s : State) :
    Settles s (execTopologySet x s) := by
  exact settles_runCmd fun u hu => hu

@[simp] theorem settles_execJobLaunch (job : Nat) (s : State) :
    Settles s (execJobLaunch job s) := by
  unfold execJobLaunch
  repeat' split
  · exact settles_finish id
  · refine settles_finish fun h => ?_
    rw [Canonical, view_foldl _ (fun u m => by split <;> simp), view_modJob _ _ _ (by simp)]
    exact h
  · exact settles_finish id

@[simp] theorem settles_execTideTableInstall (slip : Nat) (s : State) :
    Settles s (execTideTableInstall slip s) := by
  unfold execTideTableInstall
  repeat' split
  all_goals exact settles_finish fun h => by simp [Canonical, h]

@[simp] theorem settles_execLaneIdleEntry (slip : Nat) (s : State) :
    Settles s (execLaneIdleEntry slip s) := by
  unfold execLaneIdleEntry
  dsimp only
  repeat' split
  all_goals exact settles_finish fun h => by simp [Canonical, h]

@[simp] theorem settles_execLaneWake (slip : Nat) (s : State) :
    Settles s (execLaneWake slip s) := by
  exact settles_finish fun h => by simp [Canonical, h]

@[simp] theorem settles_execLaneWakeDone (slip : Nat) (s : State) :
    Settles s (execLaneWakeDone slip s) := by
  unfold execLaneWakeDone
  dsimp only
  repeat' split
  all_goals exact settles_finish fun h => by simp [Canonical, h]

@[simp] theorem settles_execWakeFail (slip : Nat) (s : State) :
    Settles s (execWakeFail slip s) := by
  unfold execWakeFail
  dsimp only
  repeat' split
  all_goals exact settles_finish fun h => by simp [Canonical, h]

@[simp] theorem settles_execUnitIdleEntry (u : PowerUnit) (s : State) :
    Settles s (execUnitIdleEntry u s) := by
  unfold execUnitIdleEntry
  dsimp only
  repeat' split
  all_goals exact settles_finish fun h => by simp [Canonical, h]

@[simp] theorem settles_execUnitWake (u : PowerUnit) (s : State) :
    Settles s (execUnitWake u s) := by
  unfold execUnitWake
  repeat' split
  all_goals exact settles_finish fun h => by simp [Canonical, h]

@[simp] theorem settles_execUnitWakeDone (u : PowerUnit) (s : State) :
    Settles s (execUnitWakeDone u s) := by
  unfold execUnitWakeDone
  dsimp only
  repeat' split
  all_goals exact settles_finish fun h => by simp [Canonical, h]

@[simp] theorem settles_execMonitorSample (samples : List Sample) (power current : Nat) (s : State) :
    Settles s (execMonitorSample samples power current s) := by
  unfold execMonitorSample
  split
  · exact settles_finish id
  · refine settles_finish fun h => ?_
    have hf : Canonical ((List.range 112).foldl (fun u n => match samples[n]? with | some x => takeSample n x u | none => u) s) :=
      canonical_of_view h (view_foldl _ (fun u n => by split <;> simp) _ s)
    exact canonical_of_mem_eq hf rfl

@[simp] theorem settles_execVoltageWindowTimeout (i : Nat) (s : State) :
    Settles s (execVoltageWindowTimeout i s) := by
  unfold execVoltageWindowTimeout
  dsimp only
  repeat' split
  all_goals exact settles_finish fun h => by simp [Canonical, h]

@[simp] theorem settles_execThrottleTick (s : State) :
    Settles s (execThrottleTick s) := by
  unfold execThrottleTick
  repeat' split
  all_goals exact settles_finish fun h => by simp [Canonical, h]

@[simp] theorem settles_execThermalTrip (i : Nat) (s : State) :
    Settles s (execThermalTrip i s) := by
  unfold execThermalTrip
  dsimp only
  repeat' split
  all_goals exact settles_finish fun h => by simp [Canonical, h]

@[simp] theorem settles_execUnitHeartbeatTimeout (u : UnitRef) (s : State) :
    Settles s (execUnitHeartbeatTimeout u s) := by
  unfold execUnitHeartbeatTimeout
  repeat' split
  all_goals exact settles_finish fun h => by simp [Canonical, h]

@[simp] theorem settles_execEngineLost (engine : Nat) (laserSupply : Bool) (s : State) :
    Settles s (execEngineLost engine laserSupply s) := by
  unfold execEngineLost
  repeat' split
  all_goals exact settles_finish fun h => by simp [Canonical, h]

@[simp] theorem settles_execParityFailure (loc : ParityLoc) (r : ParityResult) (s : State) (ecc : EccResult) :
    Settles s (execParityFailure loc r s ecc) := by
  unfold execParityFailure
  repeat' split
  all_goals exact settles_finish fun h => by simp [Canonical, h]

@[simp] theorem settles_execInputInRange (s : State) :
    Settles s (execInputInRange s) := by
  unfold execInputInRange
  repeat' split
  all_goals exact settles_finish fun h => by simp [Canonical, h]

@[simp] theorem settles_execInputStable (s : State) :
    Settles s (execInputStable s) := by
  unfold execInputStable
  repeat' split
  all_goals exact settles_finish fun h => by simp [Canonical, h]

@[simp] theorem settles_execRailInWindow (s : State) :
    Settles s (execRailInWindow s) := by
  unfold execRailInWindow
  repeat' split
  all_goals exact settles_finish fun h => by simp [Canonical, h]

@[simp] theorem settles_execInputOutOfRange (s : State) :
    Settles s (execInputOutOfRange s) := by
  unfold execInputOutOfRange
  split
  · exact settles_finish id
  · exact settles_finish fun _ => canonical_powerOff s

@[simp] theorem settles_execInputUndervoltage (s : State) :
    Settles s (execInputUndervoltage s) := by
  unfold execInputUndervoltage
  split
  · exact settles_finish id
  · exact settles_finish fun _ => canonical_powerOff s

@[simp] theorem settles_execInputOvervoltage (s : State) :
    Settles s (execInputOvervoltage s) := by
  unfold execInputOvervoltage
  dsimp only
  split
  · exact settles_finish fun h => by simp [Canonical, h]
  · exact settles_finish fun _ => canonical_powerOff _

@[simp] theorem settles_execResetAssert (s : State) :
    Settles s (execResetAssert s) := by
  unfold execResetAssert
  dsimp only
  split
  · exact settles_finish fun _ => canonical_resetModule _
  · exact settles_finish fun h => by simp [Canonical, h]

@[simp] theorem settles_execResetRelease (recoveryN : Bool) (s : State) :
    Settles s (execResetRelease recoveryN s) := by
  unfold execResetRelease
  repeat' split
  all_goals exact settles_finish fun h => by simp [Canonical, h]

@[simp] theorem settles_execDevResetExpiry (s : State) :
    Settles s (execDevResetExpiry s) := by
  unfold execDevResetExpiry
  repeat' split
  · exact settles_finish id
  · exact settles_finish fun _ => canonical_resetAndStart _
  · exact settles_finish id

@[simp] theorem settles_execPllLock (l : Loop) (s : State) :
    Settles s (execPllLock l s) := by
  unfold execPllLock
  repeat' split
  all_goals exact settles_finish fun h => by simp [Canonical, h]

@[simp] theorem settles_execPllLockLoss (l : Loop) (s : State) :
    Settles s (execPllLockLoss l s) := by
  unfold execPllLockLoss
  repeat' split
  all_goals exact settles_finish fun h => by simp [Canonical, h]

@[simp] theorem settles_execComponentLoadDone (s : State) :
    Settles s (execComponentLoadDone s) := by
  unfold execComponentLoadDone
  repeat' split
  all_goals exact settles_finish fun h => by simp [Canonical, h]

@[simp] theorem settles_execSelfTestDone (u : UnitRef) (passed : Bool) (s : State) :
    Settles s (execSelfTestDone u passed s) := by
  have hs (f : Sys → Sys) (c : Bool) (h : Canonical s) : Canonical (if c then modSys f s else loseUnit u 0 (modSys f s)) := by
    cases c <;> simp [Canonical, h]
  have hd (c : Bool) (d : Deck) (v : State) (hv : Canonical v) : Canonical (if c then { v with deck := d } else v) := by
    cases c
    · exact hv
    · exact canonical_of_mem_eq hv rfl
  unfold execSelfTestDone
  split
  · exact settles_finish id
  · exact settles_finish fun h => hd _ _ _ (hs _ _ h)

@[simp] theorem settles_execHbmInitDone (failed : List Nat) (s : State) :
    Settles s (execHbmInitDone failed s) := by
  unfold execHbmInitDone
  dsimp only
  split
  · exact settles_finish id
  · refine settles_finish fun h => ?_
    rw [Canonical, view_modSys _ _ (by simp), view_foldl _ (fun u k => by simp)]
    exact canonical_foldl _ (fun u k hu => canonical_loseUnit hu _ _) _ s h

@[simp] theorem settles_execOpticsCalibrationDone (k : Nat) (passed : Bool) (bias : List Nat) (txPower : List Int) (s : State) :
    Settles s (execOpticsCalibrationDone k passed bias txPower s) := by
  unfold execOpticsCalibrationDone
  repeat' split
  all_goals exact settles_finish fun h => by simp [Canonical, h]

@[simp] theorem settles_execStartupComplete (s : State) :
    Settles s (execStartupComplete s) := by
  unfold execStartupComplete
  repeat' split
  all_goals exact settles_finish fun h => by simp [Canonical, h]

@[simp] theorem settles_execHealthCheckTimeout (s : State) :
    Settles s (execHealthCheckTimeout s) := by
  unfold execHealthCheckTimeout
  repeat' split
  · exact settles_finish id
  · exact settles_finish fun _ => canonical_resetAndStart _
  · exact settles_finish fun _ => canonical_resetAndStart _

@[simp] theorem settles_execBar0RefusedAccess (o size : Nat) (write : Bool) (s : State) :
    Settles s (execBar0RefusedAccess o size write s) := by
  unfold execBar0RefusedAccess
  repeat' split
  all_goals exact settles_finish fun h => by simp [Canonical, h]

@[simp] theorem settles_execTideLowRead (s : State) :
    Settles s (execTideLowRead s) := by
  exact settles_finish id

@[simp] theorem settles_execRingConfigWrite (r : RingId) (reg : RingReg) (v : Nat) (s : State) :
    Settles s (execRingConfigWrite r reg v s) := by
  unfold execRingConfigWrite
  repeat' split
  all_goals exact settles_finish fun h => by simp [Canonical, h]

@[simp] theorem settles_execRingEnable (r : RingId) (v : Nat) (s : State) :
    Settles s (execRingEnable r v s) := by
  unfold execRingEnable
  repeat' split
  all_goals exact settles_finish fun h => by simp [Canonical, h]

@[simp] theorem settles_execRingDisable (r : RingId) (v : Nat) (s : State) :
    Settles s (execRingDisable r v s) := by
  unfold execRingDisable
  repeat' split
  all_goals exact settles_finish fun h => by simp [Canonical, h]

@[simp] theorem settles_execRingIdle (r : RingId) (s : State) :
    Settles s (execRingIdle r s) := by
  unfold execRingIdle
  repeat' split
  all_goals exact settles_finish fun h => by simp [Canonical, h]

@[simp] theorem settles_execStatusW1cWrite (r : RingId) (v setting : Nat) (s : State) :
    Settles s (execStatusW1cWrite r v setting s) := by
  unfold execStatusW1cWrite
  repeat' split
  all_goals exact settles_finish fun h => by simp [Canonical, h]

@[simp] theorem settles_execSqTailDoorbell (q : Nat) (v : Index) (s : State) :
    Settles s (execSqTailDoorbell q v s) := by
  unfold execSqTailDoorbell
  repeat' split
  all_goals exact settles_finish fun h => by simp [Canonical, h]

@[simp] theorem settles_execCqHeadDoorbell (q : Nat) (v : Index) (s : State) :
    Settles s (execCqHeadDoorbell q v s) := by
  unfold execCqHeadDoorbell
  repeat' split
  all_goals exact settles_finish fun h => by simp [Canonical, h]

@[simp] theorem settles_execEvHeadDoorbell (v : Index) (s : State) :
    Settles s (execEvHeadDoorbell v s) := by
  exact settles_finish fun h => by simp [Canonical, h]

@[simp] theorem settles_execAudHeadDoorbell (v : Index) (s : State) :
    Settles s (execAudHeadDoorbell v s) := by
  exact settles_finish fun h => by simp [Canonical, h]

@[simp] theorem settles_execRegisterWrite (o size v : Nat) (s : State) :
    Settles s (execRegisterWrite o size v s) := by
  unfold execRegisterWrite
  repeat' split
  all_goals exact settles_finish fun h => by simp [Canonical, h]

@[simp] theorem settles_execCommandFetch (q : Nat) (entry : Option (List Byte)) (s : State) :
    Settles s (execCommandFetch q entry s) := by
  unfold execCommandFetch
  dsimp only
  repeat' split
  all_goals exact settles_finish fun h => by simp [Canonical, h]

@[simp] theorem settles_execCommandDispatch (q : Nat) (desc : Option (List Byte)) (resultOk : Bool) (s : State) (entryOk : Bool) :
    Settles s (execCommandDispatch q desc resultOk s entryOk) := by
  unfold execCommandDispatch
  dsimp only
  repeat' split
  all_goals exact settles_finish fun h => by simp [Canonical, h]

@[simp] theorem settles_execIrqCoalTimer (r : RingId) (s : State) :
    Settles s (execIrqCoalTimer r s) := by
  have hm (f : HostIf → HostIf) (h : Canonical s) : Canonical (modHost f s) := canonical_of_mem_eq h rfl
  unfold execIrqCoalTimer
  dsimp only
  repeat' split
  all_goals exact settles_finish fun h => by simp [Canonical, h, hm]

@[simp] theorem settles_execEventRingWrite (s : State) (ok : Bool) :
    Settles s (execEventRingWrite s ok) := by
  unfold execEventRingWrite
  repeat' split
  all_goals exact settles_finish fun h => by simp [Canonical, h]

@[simp] theorem settles_execCxlLinkTrained (mode width : Nat) (s : State) :
    Settles s (execCxlLinkTrained mode width s) := by
  unfold execCxlLinkTrained
  split
  · exact settles_finish_of_mem_eq rfl
  · exact settles_finish id

@[simp] theorem settles_execCxlLinkDown (s : State) :
    Settles s (execCxlLinkDown s) := by
  unfold execCxlLinkDown
  repeat' split
  all_goals exact settles_finish fun h => by simp [Canonical, h]

@[simp] theorem settles_execLinkHotReset (s : State) :
    Settles s (execLinkHotReset s) := by
  exact settles_finish id

@[simp] theorem settles_execFunctionLevelReset (s : State) :
    Settles s (execFunctionLevelReset s) := by
  exact settles_finish id

@[simp] theorem settles_execD3hotExit (s : State) :
    Settles s (execD3hotExit s) := by
  exact settles_finish id

@[simp] theorem settles_execConfigRequest (s : State) (r : ConfigReg) (write : Option Nat) :
    Settles s (execConfigRequest s r write) := by
  unfold execConfigRequest
  repeat' split
  all_goals exact settles_finish fun h => by simp [Canonical, h]

@[simp] theorem settles_execCxlMemRead (hpa : Nat) (p : ParityResult) (s : State) (e : EccResult) :
    Settles s (execCxlMemRead hpa p s e) := by
  unfold execCxlMemRead
  split
  · exact settles_finish id
  split
  · exact settles_fault
  dsimp only
  split
  all_goals exact settles_finish fun h => by simp [Canonical, h]

@[simp] theorem settles_execCxlMemWrite (hpa : Nat) (data : List Byte) (s : State) :
    Settles s (execCxlMemWrite hpa data s) := by
  unfold execCxlMemWrite
  split
  · exact settles_finish id
  split
  · exact settles_fault
  dsimp only
  split
  · exact settles_finish fun h => canonical_writeBytes (by simpa [Canonical] using h) _ _
  · exact settles_finish fun h => by simp [Canonical, h]

@[simp] theorem settles_execIdentify (s : State) :
    Settles s (execIdentify s) := by
  exact settles_mailboxAnswer fun u hu => hu

@[simp] theorem settles_execIdentifyMemoryDevice (s : State) :
    Settles s (execIdentifyMemoryDevice s) := by
  exact settles_mailboxAnswer fun u hu => hu

@[simp] theorem settles_execGetSupportedLogs (s : State) :
    Settles s (execGetSupportedLogs s) := by
  exact settles_mailboxAnswer fun u hu => hu

@[simp] theorem settles_execGetLog (log offset length : Nat) (s : State) :
    Settles s (execGetLog log offset length s) := by
  unfold execGetLog
  split
  · exact settles_finish fun h => by simp [Canonical, h]
  · exact settles_mailboxAnswer fun u hu => hu

@[simp] theorem settles_execGetEventRecords (log : Nat) (s : State) :
    Settles s (execGetEventRecords log s) := by
  exact settles_mailboxAnswer fun u hu => hu

@[simp] theorem settles_execClearEventRecords (log : Nat) (all : Bool) (handles : List Nat) (s : State) :
    Settles s (execClearEventRecords log all handles s) := by
  exact settles_mailboxAnswer fun u hu => hu

@[simp] theorem settles_execGetEventInterruptPolicy (s : State) :
    Settles s (execGetEventInterruptPolicy s) := by
  exact settles_mailboxAnswer fun u hu => hu

@[simp] theorem settles_execSetEventInterruptPolicy (policy : List Byte) (s : State) :
    Settles s (execSetEventInterruptPolicy policy s) := by
  exact settles_mailboxAnswer fun u hu => hu

@[simp] theorem settles_execGetHealthInfo (s : State) :
    Settles s (execGetHealthInfo s) := by
  exact settles_mailboxAnswer fun u hu => hu

@[simp] theorem settles_execGetAlertConfiguration (s : State) :
    Settles s (execGetAlertConfiguration s) := by
  exact settles_mailboxAnswer fun u hu => hu

@[simp] theorem settles_execSetAlertConfiguration (config : List Byte) (s : State) :
    Settles s (execSetAlertConfiguration config s) := by
  exact settles_mailboxAnswer fun u hu => hu

@[simp] theorem settles_execGetTimestamp (s : State) :
    Settles s (execGetTimestamp s) := by
  refine settles_mailboxAnswer fun u hu => ?_
  dsimp only
  split <;> simp [Canonical, hu]

@[simp] theorem settles_execSetTimestamp (value : Nat) (s : State) :
    Settles s (execSetTimestamp value s) := by
  exact settles_mailboxAnswer fun u hu => hu

@[simp] theorem settles_execGetFwInfo (s : State) :
    Settles s (execGetFwInfo s) := by
  exact settles_mailboxAnswer fun u hu => hu

@[simp] theorem settles_execMailboxUnsupported (_opcode : Nat) (s : State) :
    Settles s (execMailboxUnsupported _opcode s) := by
  unfold execMailboxUnsupported
  repeat' split
  all_goals exact settles_finish fun h => by simp [Canonical, h]

@[simp] theorem settles_execDiscover (f : FrameHdr) (s : State) :
    Settles s (execDiscover f s) := by
  unfold execDiscover
  repeat' split
  all_goals exact settles_finish fun h => by simp [Canonical, h]

@[simp] theorem settles_execServiceFrameDiscard (s : State) (f : FrameHdr) :
    Settles s (execServiceFrameDiscard s f) := by
  unfold execServiceFrameDiscard
  repeat' split
  all_goals exact settles_finish fun h => by simp [Canonical, h]

@[simp] theorem settles_execServiceCommand (dst src : Nat) (h : ServiceHdr) (payload : List Byte) (s : State) :
    Settles s (execServiceCommand dst src h payload s) := by
  unfold execServiceCommand
  dsimp only
  repeat' split
  all_goals exact settles_finish fun h => by simp [Canonical, h]

@[simp] theorem settles_execSubscribe (f : FrameHdr) (on : Bool) (s : State) :
    Settles s (execSubscribe f on s) := by
  unfold execSubscribe
  dsimp only
  repeat' split
  all_goals exact settles_finish fun h => by simp [Canonical, h]

@[simp] theorem settles_execSmbusMonitorRead (command : Nat) (s : State) :
    Settles s (execSmbusMonitorRead command s) := by
  exact settles_smbusAnswer _ _

@[simp] theorem settles_execSmbusDevStatusRead (s : State) :
    Settles s (execSmbusDevStatusRead s) := by
  exact settles_smbusAnswer _ _

@[simp] theorem settles_execSmbusSerialRead (s : State) :
    Settles s (execSmbusSerialRead s) := by
  exact settles_smbusAnswer _ _

@[simp] theorem settles_execSmbusPowerRead (s : State) :
    Settles s (execSmbusPowerRead s) := by
  exact settles_smbusAnswer _ _

@[simp] theorem settles_execSmbusThrottleRead (s : State) :
    Settles s (execSmbusThrottleRead s) := by
  exact settles_smbusAnswer _ _

@[simp] theorem settles_execSmbusNack (_command : Nat) (s : State) :
    Settles s (execSmbusNack _command s) := by
  exact settles_smbusAnswer _ _

@[simp] theorem settles_execSmbusTimeout (s : State) :
    Settles s (execSmbusTimeout s) := by
  exact settles_smbusAnswer _ _

@[simp] theorem settles_execTideWrap (s : State) :
    Settles s (execTideWrap s) := by
  unfold execTideWrap
  repeat' split
  all_goals exact settles_finish fun h => by simp [Canonical, h]

/-- Every meaning settles the state it leaves. -/
theorem settles_exec (i : Instr) (s : State) : Settles s (exec i s) := by
  cases i <;> simp [exec]

theorem settles_step (s : State) : Settles s (step s) := by
  unfold step
  split
  case h_1 => exact settles_finish fun h => by simp [Canonical, h]
  case h_2 c rest _ =>
    intro t ht
    obtain ⟨u, rfl, hu⟩ := settles_exec c _ t ht
    exact ⟨u, rfl, fun h => hu (canonical_of_mem_eq h rfl)⟩

theorem errorPin_settle (s : State) : errorPin (settle s) = errorPin s := rfl

/-- Settles O2: every step ends in `settle`, which drives the pin from its causes. -/
theorem errorPinFollowsFaults : Obligations.error_pin_follows_faults := by
  unfold Obligations.error_pin_follows_faults PinAgrees
  intro s t _ ht
  obtain ⟨u, rfl, _⟩ := settles_step s t ht
  refine ⟨rfl, fun hon => ?_⟩
  change u.aon.stage ≠ .off at hon
  simp [settle, errorPin, hon, anyUncleared, FaultRecord.uncleared, and_assoc]

/-- Settles O59: every meaning writes the state area by `writeBytes`, drops cells or leaves them. -/
theorem memoryStaysCanonical : Obligations.memory_stays_canonical := by
  unfold Obligations.memory_stays_canonical
  intro s t hs ht
  obtain ⟨u, rfl, hu⟩ := settles_step s t ht
  exact (canonical_iff u).mp (hu ((canonical_iff s).mpr hs))

end Sys2Proof.Proofs

/-!
Fields read off a view. Where an operation leaves the view of a field's parts alone, the field is as before.
-/
namespace Sys2Proof.Proofs
open Sys2Proof Sys2Proof.Machine Sys2Proof.Laws

/-- Every part but those listed. -/
def others (keep : List Part) : List Part := (.mem :: beyondMem).filter (· ∉ keep)

@[simp] theorem mem_others (keep : List Part) (p : Part) : p ∈ others keep ↔ p ∉ keep := by
  cases p <;> simp [others]

theorem ite_mem_of_subset {ps qs : List Part} (h : ps ⊆ qs) {α : Type} (p : Part) (d x : α) :
    (if p ∈ qs then d else if p ∈ ps then d else x) = if p ∈ qs then d else x := by
  by_cases hq : p ∈ qs
  · simp [hq]
  · have hp : p ∉ ps := fun hp => hq (h hp)
    rw [if_neg hq, if_neg hq, if_neg hp]

/-- A smaller view tells as much as the larger one that it is a view of. -/
theorem view_view {ps qs : List Part} (h : ps ⊆ qs) (s : State) : view qs (view ps s) = view qs s := by
  have e {α : Type} (p : Part) (d x : α) := ite_mem_of_subset h p d x
  have hr : viewRctxs qs (viewRctxs ps s.rctxs) = viewRctxs qs s.rctxs := by
    have h1 := @h .rctxs
    have h2 := @h .rctxVals
    have h3 := @h .accts
    unfold viewRctxs
    by_cases a : Part.rctxs ∈ qs
    · simp [a]
    · by_cases b : Part.rctxVals ∈ qs
      · by_cases c : Part.rctxVals ∈ ps <;> by_cases d : Part.accts ∈ ps <;> simp_all [Function.comp_def]
      · by_cases d : Part.accts ∈ qs <;> by_cases d : Part.accts ∈ ps <;> simp_all [Function.comp_def]
  have ho : viewOctxs qs (viewOctxs ps s.octxs) = viewOctxs qs s.octxs := by
    have h1 := @h .octxs
    have h2 := @h .octxVals
    have h3 := @h .accts
    unfold viewOctxs
    by_cases a : Part.octxs ∈ qs
    · simp [a]
    · by_cases b : Part.octxVals ∈ qs
      · by_cases c : Part.octxVals ∈ ps <;> by_cases d : Part.accts ∈ ps <;> simp_all [Function.comp_def]
      · by_cases d : Part.accts ∈ qs <;> by_cases d : Part.accts ∈ ps <;> simp_all [Function.comp_def]
  have ha : viewAon qs (viewAon ps s.aon) = viewAon qs s.aon := by
    have h1 := @h .island
    unfold viewAon
    by_cases a : Part.island ∈ qs
    · simp [a]
    · simp only [a, mt h1 a, e, if_false]
  have hh : viewHost qs (viewHost ps s.host) = viewHost qs s.host := by
    have h1 := @h .host
    have h2 := @h .aer
    unfold viewHost
    by_cases a : Part.host ∈ qs
    · simp [a]
    · by_cases b : Part.aer ∈ qs
      · by_cases b : Part.aer ∈ ps <;> simp_all
      · simp_all
  have hn : viewNet qs (viewNet ps s.net) = viewNet qs s.net := by
    have h1 := @h .net
    unfold viewNet
    by_cases a : Part.net ∈ qs
    · simp [a]
    · simp only [a, mt h1 a, e, if_false]
  have ht : viewTide qs (viewTide ps s.tide) = viewTide qs s.tide := by
    have h1 := @h .tide
    unfold viewTide
    by_cases a : Part.tide ∈ qs
    · simp [a]
    · simp only [a, mt h1 a, e, if_false]
  have hc : viewClk qs (viewClk ps s.clk) = viewClk qs s.clk := by
    have h1 := @h .clk
    unfold viewClk
    by_cases a : Part.clk ∈ qs
    · simp [a]
    · simp only [a, mt h1 a, e, if_false]
  have hsvc : viewSvc qs (viewSvc ps s.svc) = viewSvc qs s.svc := by simp only [viewSvc, e]
  have hf : viewFlt qs (viewFlt ps s.flt) = viewFlt qs s.flt := by simp only [viewFlt, e]
  have hb : viewHbm qs (viewHbm ps s.hbm) = viewHbm qs s.hbm := by simp only [viewHbm, e]
  simp only [view, hr, ho, ha, hh, hn, ht, hc, hsvc, hf, hb, e]

theorem view_of_subset {ps qs : List Part} {s t : State} (hv : view ps t = view ps s) (h : ps ⊆ qs) : view qs t = view qs s := by
  rw [← view_view h t, hv, view_view h]

section
variable {s t : State}

theorem aon_of_view (h : view (others [.errorN, .fatal, .island]) t = view (others [.errorN, .fatal, .island]) s) : t.aon = s.aon := by
  have hv (u : State) : (view (others [.errorN, .fatal, .island]) u).aon = u.aon := by simp [view, viewAon]
  rw [← hv t, h, hv]

theorem sys_of_view (h : view (others [.sys]) t = view (others [.sys]) s) : t.sys = s.sys := by
  simpa [view] using congrArg State.sys h

theorem clk_of_view (h : view (others [.serdes, .clk]) t = view (others [.serdes, .clk]) s) : t.clk = s.clk := by
  have hv (u : State) : (view (others [.serdes, .clk]) u).clk = u.clk := by simp [view, viewClk]
  rw [← hv t, h, hv]

theorem pwr_of_view (h : view (others [.pwr]) t = view (others [.pwr]) s) : t.pwr = s.pwr := by
  simpa [view] using congrArg State.pwr h

theorem units_of_view (h : view (others [.units]) t = view (others [.units]) s) : t.units = s.units := by
  simpa [view] using congrArg State.units h

theorem host_of_view (h : view (others [.qps, .evPort, .vectors, .aer, .events, .running, .host]) t = view (others [.qps, .evPort, .vectors, .aer, .events, .running, .host]) s) : t.host = s.host := by
  have hv (u : State) : (view (others [.qps, .evPort, .vectors, .aer, .events, .running, .host]) u).host = u.host := by simp [view, viewHost]
  rw [← hv t, h, hv]

theorem mbox_of_view (h : view (others [.mbox]) t = view (others [.mbox]) s) : t.mbox = s.mbox := by
  simpa [view] using congrArg State.mbox h

theorem svc_of_view (h : view (others [.eventSeq, .svcCmds, .svc]) t = view (others [.eventSeq, .svcCmds, .svc]) s) : t.svc = s.svc := by
  have hv (u : State) : (view (others [.eventSeq, .svcCmds, .svc]) u).svc = u.svc := by simp [view, viewSvc]
  rw [← hv t, h, hv]

theorem flt_of_view (h : view (others [.records, .flt]) t = view (others [.records, .flt]) s) : t.flt = s.flt := by
  have hv (u : State) : (view (others [.records, .flt]) u).flt = u.flt := by simp [view, viewFlt]
  rw [← hv t, h, hv]

theorem purser_of_view (h : view (others [.purser]) t = view (others [.purser]) s) : t.purser = s.purser := by
  simpa [view] using congrArg State.purser h

theorem tide_of_view (h : view (others [.sentT1, .tide]) t = view (others [.sentT1, .tide]) s) : t.tide = s.tide := by
  have hv (u : State) : (view (others [.sentT1, .tide]) u).tide = u.tide := by simp [view, viewTide]
  rw [← hv t, h, hv]

theorem jobs_of_view (h : view (others [.jobs]) t = view (others [.jobs]) s) : t.jobs = s.jobs := by
  simpa [view] using congrArg State.jobs h

theorem net_of_view (h : view (others [.told, .asked, .svcChanged, .net]) t = view (others [.told, .asked, .svcChanged, .net]) s) : t.net = s.net := by
  have hv (u : State) : (view (others [.told, .asked, .svcChanged, .net]) u).net = u.net := by simp [view, viewNet]
  rw [← hv t, h, hv]

theorem lands_of_view (h : view (others [.lands]) t = view (others [.lands]) s) : t.lands = s.lands := by
  simpa [view] using congrArg State.lands h

theorem sw_of_view (h : view (others [.sw]) t = view (others [.sw]) s) : t.sw = s.sw := by
  simpa [view] using congrArg State.sw h

theorem slips_of_view (h : view (others [.slips]) t = view (others [.slips]) s) : t.slips = s.slips := by
  simpa [view] using congrArg State.slips h

theorem hawsers_of_view (h : view (others [.hawsers]) t = view (others [.hawsers]) s) : t.hawsers = s.hawsers := by
  simpa [view] using congrArg State.hawsers h

theorem optics_of_view (h : view (others [.optics]) t = view (others [.optics]) s) : t.optics = s.optics := by
  simpa [view] using congrArg State.optics h

theorem xings_of_view (h : view (others [.xings]) t = view (others [.xings]) s) : t.xings = s.xings := by
  simpa [view] using congrArg State.xings h

theorem incs_of_view (h : view (others [.incs]) t = view (others [.incs]) s) : t.incs = s.incs := by
  simpa [view] using congrArg State.incs h

theorem rctxs_of_view (h : view (others [.accts, .rctxVals, .rctxs]) t = view (others [.accts, .rctxVals, .rctxs]) s) : t.rctxs = s.rctxs := by
  have hv (u : State) : (view (others [.accts, .rctxVals, .rctxs]) u).rctxs = u.rctxs := by simp [view, viewRctxs]
  rw [← hv t, h, hv]

theorem octxs_of_view (h : view (others [.accts, .octxVals, .octxs]) t = view (others [.accts, .octxVals, .octxs]) s) : t.octxs = s.octxs := by
  have hv (u : State) : (view (others [.accts, .octxVals, .octxs]) u).octxs = u.octxs := by simp [view, viewOctxs]
  rw [← hv t, h, hv]

theorem deck_of_view (h : view (others [.deck]) t = view (others [.deck]) s) : t.deck = s.deck := by
  simpa [view] using congrArg State.deck h

theorem hbm_of_view (h : view (others [.mem, .stk, .writes, .waits]) t = view (others [.mem, .stk, .writes, .waits]) s) : t.hbm = s.hbm := by
  have hv (u : State) : (view (others [.mem, .stk, .writes, .waits]) u).hbm = u.hbm := by simp [view, viewHbm]
  rw [← hv t, h, hv]

theorem audit_of_view (h : view (others [.audit]) t = view (others [.audit]) s) : t.audit = s.audit := by
  simpa [view] using congrArg State.audit h

theorem deferred_of_view (h : view (others [.deferred]) t = view (others [.deferred]) s) : t.deferred = s.deferred := by
  simpa [view] using congrArg State.deferred h

theorem freeCount_of_view (h : view (others [.freeCount]) t = view (others [.freeCount]) s) : t.freeCount = s.freeCount := by
  simpa [view] using congrArg State.freeCount h

theorem outbox_of_view (h : view (others [.outbox]) t = view (others [.outbox]) s) : t.outbox = s.outbox := by
  simpa [view] using congrArg State.outbox h

theorem pending_of_view (h : view (others [.pending]) t = view (others [.pending]) s) : t.pending = s.pending := by
  simpa [view] using congrArg State.pending h

/-- The always-on island without its pin and its copy of the last fatal fault. -/
def island (a : AlwaysOn) : AlwaysOn := { a with errorN := false, priorFatal := none, priorFatalTide := 0 }

theorem island_of_view (h : view (others [.island]) t = view (others [.island]) s) : island t.aon = island s.aon := by
  have hv (u : State) : (view (others [.island]) u).aon = island u.aon := by simp [view, viewAon, island]
  rw [← hv t, h, hv]

theorem hostQuiet_of_view (h : view (others [.host]) t = view (others [.host]) s) : t.host.quiet = s.host.quiet := by
  have hv (u : State) : (view (others [.host]) u).host = u.host.quiet := by simp [view, viewHost, HostIf.quiet]
  rw [← hv t, h, hv]

theorem running_of_view (h : view (others [.host, .running]) t = view (others [.host, .running]) s) : t.host.running = s.host.running := by
  simpa [view, viewHost] using congrArg (fun u => u.host.running) h

theorem rctxKeys_of_view (h : view (others [.rctxs]) t = view (others [.rctxs]) s) : t.rctxs.map Prod.fst = s.rctxs.map Prod.fst := by
  simpa [view, viewRctxs, Function.comp_def] using congrArg (fun u => u.rctxs.map Prod.fst) h

theorem octxKeys_of_view (h : view (others [.octxs]) t = view (others [.octxs]) s) : t.octxs.map Prod.fst = s.octxs.map Prod.fst := by
  simpa [view, viewOctxs, Function.comp_def] using congrArg (fun u => u.octxs.map Prod.fst) h

/-- The contexts but for the accounts of their audit records. -/
theorem rctxs_of_view_accts (h : view (others [.rctxs, .rctxVals]) t = view (others [.rctxs, .rctxVals]) s) :
    t.rctxs.map (fun p => (p.1, { p.2 with acct := Account.zero })) = s.rctxs.map (fun p => (p.1, { p.2 with acct := Account.zero })) := by
  have hv (u : State) : (view (others [.rctxs, .rctxVals]) u).rctxs = u.rctxs.map (fun p => (p.1, { p.2 with acct := Account.zero })) := by
    simp [view, viewRctxs]
  rw [← hv t, h, hv]

theorem octxs_of_view_accts (h : view (others [.octxs, .octxVals]) t = view (others [.octxs, .octxVals]) s) :
    t.octxs.map (fun p => (p.1, { p.2 with acct := Account.zero })) = s.octxs.map (fun p => (p.1, { p.2 with acct := Account.zero })) := by
  have hv (u : State) : (view (others [.octxs, .octxVals]) u).octxs = u.octxs.map (fun p => (p.1, { p.2 with acct := Account.zero })) := by
    simp [view, viewOctxs]
  rw [← hv t, h, hv]

/-- The network state but for what members were told. -/
theorem net_of_view_told (h : view (others [.net, .asked, .svcChanged]) t = view (others [.net, .asked, .svcChanged]) s) :
    t.net = { s.net with told := t.net.told } := by
  have hv (u : State) : (view (others [.net, .asked, .svcChanged]) u).net = { u.net with told := [] } := by simp [view, viewNet]
  have hn : ({ t.net with told := [] } : Net) = { s.net with told := [] } := by rw [← hv t, h, hv]
  exact congrArg (fun n : Net => { n with told := t.net.told }) hn

theorem stk_of_view (h : view (others [.stk]) t = view (others [.stk]) s) : t.hbm.stk = s.hbm.stk := by
  simpa [view, viewHbm] using congrArg (fun u => u.hbm.stk) h

theorem mem_of_view (h : view (others [.mem]) t = view (others [.mem]) s) : t.hbm.mem = s.hbm.mem := by
  simpa [view, viewHbm] using congrArg (fun u => u.hbm.mem) h

theorem writes_of_view (h : view (others [.writes]) t = view (others [.writes]) s) : t.hbm.writes = s.hbm.writes := by
  simpa [view, viewHbm] using congrArg (fun u => u.hbm.writes) h

theorem waits_of_view (h : view (others [.waits]) t = view (others [.waits]) s) : t.hbm.waits = s.hbm.waits := by
  simpa [view, viewHbm] using congrArg (fun u => u.hbm.waits) h

theorem merge_of_view (h : view (others [.flt]) t = view (others [.flt]) s) : t.flt.merge = s.flt.merge := by
  simpa [view, viewFlt] using congrArg (fun u => u.flt.merge) h

end

end Sys2Proof.Proofs

/-!
Power-on, reset, the loops and the tasks of start-up.
-/
namespace Sys2Proof.Proofs
open Sys2Proof Sys2Proof.Machine Sys2Proof.Laws

/-- Settles O1. -/
theorem stepRunsFrontCommand : Obligations.step_runs_front_command := by
  intro c rest s h
  simp [step, h]

/-- Settles O3. -/
theorem resetState : Obligations.reset_state := by
  unfold Obligations.reset_state PinAgrees
  refine ⟨rfl, rfl, rfl, rfl, rfl, rfl, rfl, rfl, rfl, rfl, rfl, rfl, rfl, rfl, List.Pairwise.nil, rfl⟩

section
variable (s : State)

/-! ### The transfer that a loss of power or a reset cuts short -/

@[simp] theorem abortTransfer_fields :
    (abortTransfer s).sys = s.sys ∧ (abortTransfer s).freeCount = s.freeCount ∧ (abortTransfer s).outbox = s.outbox ∧
      (abortTransfer s).pending = s.pending := by
  unfold abortTransfer
  split <;> exact ⟨rfl, rfl, rfl, rfl⟩

/-- Of the island, a transfer that ends changes the transfer and the slots. -/
theorem abortTransfer_aon : ∃ x y, (abortTransfer s).aon =
    { s.aon with transfer := none, lastEnd := x, slots := y } ∧ ((∀ t, s.aon.transfer = some t → False) → y = s.aon.slots) := by
  unfold abortTransfer
  split
  case h_1 h => exact ⟨s.aon.lastEnd, s.aon.slots, by rw [← h], fun _ => rfl⟩
  case h_2 t h => exact ⟨none, _, rfl, fun hn => (hn t h).elim⟩

theorem slots_abortTransfer : (abortTransfer s).aon.slots =
    (s.aon.transfer.map (fun t => tabPut s.aon.slots t.slot ImageSlot.empty)).getD s.aon.slots := by
  unfold abortTransfer
  split
  case h_1 h => simp [h]
  case h_2 t h => simp [h, putSlot]

theorem getSlot_abortTransfer {i : Nat} (h : ∀ t, s.aon.transfer = some t → t.slot ≠ i) :
    getSlot (abortTransfer s) i = getSlot s i := by
  unfold abortTransfer
  split
  · rfl
  · exact tabGet_tabPut_ne _ _ _ (Ne.symm (h _ ‹_›))

theorem unpowered_powerOff : Unpowered s (settle (powerOff s)) ∧ (powerOff s).aon.hotSwapOpen = s.aon.hotSwapOpen := by
  obtain ⟨x, y, ha, _⟩ := abortTransfer_aon s
  simp [Unpowered, powerOff, settle, ha]
  simp [State.reset, Sys.reset]

/-- Settles O4. -/
theorem powerOnAndLoss : Obligations.power_on_and_loss := by
  refine ⟨fun s => ⟨fun h => ?_, fun h => ?_, fun h h7 => ?_, fun h h7 hr => ?_, fun h h7 hr => ?_⟩, fun s h => ⟨?_, ?_, ?_⟩⟩
  · simp [exec, execInputInRange, h, finish, modAon]
  · simp [exec, execInputStable, h, finish, modAon]
  · simp [exec, execRailInWindow, h, h7, finish, modAon]
  · simp [exec, execRailInWindow, h, h7.not_gt, hr, finish, modAon, modSys]
  · cases he : s.aon.edge with
    | none => exact ⟨_, by simp [exec, execRailInWindow, h, h7.not_gt, hr, finish, startLoopsEdge, he]; rfl,
        by simp [startLoopsFree, startLoops]⟩
    | some level => exact ⟨_, by simp [exec, execRailInWindow, h, h7.not_gt, hr, finish, startLoopsEdge, he]; rfl,
        by simp [startLoops]⟩
  · exact ⟨_, if_neg h, (unpowered_powerOff s).1, (unpowered_powerOff s).2⟩
  · exact ⟨_, if_neg h, (unpowered_powerOff s).1, (unpowered_powerOff s).2⟩
  · have hp := unpowered_powerOff (modAon (fun a => { a with hotSwapOpen := true }) s)
    simp only [Unpowered, slots_abortTransfer] at hp ⊢
    exact ⟨_, if_neg h, hp.1, hp.2⟩

/-! ### Reset (R377) -/

theorem wasReset_resetModule : WasReset s (settle (resetModule s)) ∧ (resetModule s).aon.resetN = s.aon.resetN ∧
    (resetModule s).sys.phase = .inReset := by
  obtain ⟨x, y, ha, _⟩ := abortTransfer_aon s
  simp [WasReset, resetModule, settle, ha]
  simp [State.reset, Sys.reset]

theorem wasReset_resetAndStart : WasReset s (settle (resetAndStart s)) ∧ (resetAndStart s).aon.resetN = s.aon.resetN ∧
    (resetAndStart s).sys.phase = .loopsStarting ∧ (resetAndStart s).clk.core = .starting := by
  obtain ⟨x, y, ha, _⟩ := abortTransfer_aon s
  simp [WasReset, resetAndStart, startLoopsFree, startLoops, resetModule, settle, ha]
  simp [State.reset, Sys.reset]

theorem errorPin_of_resetN_low {s : State} (hn : s.aon.resetN = false) (h : s.aon.stage = .railsOn) : errorPin s = false := by
  simp [errorPin, hn, h]

/-- What a reset keeps of the boot: the choice of image, and the slots but for one that a transfer was filling. -/
theorem resetAndStart_boot : (resetAndStart s).aon.boot = s.aon.boot ∧ (resetAndStart s).aon.nextSlot = s.aon.nextSlot ∧
    (resetAndStart s).aon.slots = (abortTransfer s).aon.slots := by
  obtain ⟨x, y, ha, _⟩ := abortTransfer_aon s
  simp [resetAndStart, startLoopsFree, startLoops, resetModule, ha]

/-- Settles O5. -/
theorem resetEvents : Obligations.reset_events := by
  intro s recoveryN at_
  refine ⟨fun h => ?_, fun hr hp => ?_, fun hr hp h => ?_, fun h ht => ?_⟩
  · obtain ⟨hw, hn, hphase⟩ :=
      wasReset_resetModule (modAon (fun a => { a with resetN := false, edge := none, boot := { a.boot with retried := false } }) s)
    exact ⟨_, if_pos h, hw, hn, errorPin_of_resetN_low hn (hw.2.1.trans h), hphase⟩
  · exact ⟨_, by simp [exec, execResetRelease, hr, hp, finish]; rfl, by simp [startLoops]⟩
  · simp [exec, execResetRelease, hr, hp, h, finish, modAon]
  · have hr := wasReset_resetAndStart (modAon (fun a => { a with boot := { a.boot with retried := false } }) s)
    exact ⟨_, by simp only [exec, execDevResetExpiry, h, ht, finish, if_true], hr⟩

/-! ### The ROM (events 6 and 7) -/

/-- The loops as given, and what the ROM sets up before it chooses an image. -/
def RomReady (c : Clocks) (u : State) : Prop := u.clk = c ∧ u.aon.collector = true ∧ u.host.bar0 = true ∧ u.deck.trunc = true

/-- What the ROM has done once it hands over or goes to recovery. -/
def RomRan (c : Clocks) (t : State) : Prop := RomReady c t ∧ (t.sys.phase = .startup ∨ t.sys.phase = .recovery)

theorem romRan_ite {c : Clocks} {p : Prop} [Decidable p] {a b : State} (ha : RomRan c a) (hb : RomRan c b) :
    RomRan c (if p then a else b) := by
  split
  · exact ha
  · exact hb

section
variable {s} {c : Clocks} (h : RomReady c s)
include h

theorem romReady_modAon (f : AlwaysOn → AlwaysOn) (hf : (f s.aon).collector = s.aon.collector) : RomReady c (modAon f s) :=
  ⟨h.1, hf.trans h.2.1, h.2.2⟩

theorem romReady_putSlot (i : Nat) (x : ImageSlot) : RomReady c (putSlot i x s) := h

theorem romRan_startFirmware (i : Nat) : RomRan c (startFirmware i s) := ⟨h, .inl rfl⟩

theorem romRan_enterRecovery (d : Nat) : RomRan c (enterRecovery d s) := by
  obtain ⟨hclk, hcol, hbar, htr⟩ := h
  have ha : island (enterRecovery d s).aon = island { s.aon with boot :=
      { s.aon.boot with trial := false, started := false, reverting := false, recovered := true } } :=
    island_of_view (view_raiseFault _ _ _ _ _ _ (by simp))
  refine ⟨⟨?_, (congrArg AlwaysOn.collector ha).trans hcol, ?_, ?_⟩, .inr ?_⟩
  · exact (clk_of_view (view_enterRecovery _ _ (by simp))).trans hclk
  · exact (congrArg HostIf.bar0 (hostQuiet_of_view (view_raiseFault _ _ _ _ _ _ (by simp)))).trans hbar
  · exact (congrArg Deck.trunc (deck_of_view (view_enterRecovery _ _ (by simp)))).trans htr
  · exact congrArg Sys.phase (sys_of_view (view_raiseFault _ _ _ _ _ _ (by simp)))

theorem romRan_chooseImage : RomRan c (chooseImage s) := by
  have h1 (i : Nat) (x : ImageSlot) := romReady_putSlot h i x
  have h2 (i j : Nat) (x y : ImageSlot) := romReady_putSlot (h1 i x) j y
  exact romRan_ite (romRan_startFirmware (h1 _ _) _)
    (romRan_ite (romRan_startFirmware (romReady_modAon (h2 _ _ _ _) _ rfl) _) (romRan_enterRecovery (h2 _ _ _ _) _))

end

theorem romRan_runRom : RomRan s.clk (runRom s) := by
  have h (u : State) (hu : u.clk = s.clk) : RomReady s.clk
      { modAon (fun a => { a with collector := true }) u with
        deck := { u.deck with trunc := true }, host := { u.host with bar0 := true } } := ⟨hu, rfl, rfl, rfl⟩
  have hclk (c : Bool) : (if c then failTrial s else s).clk = s.clk := by cases c <;> rfl
  exact romRan_ite (romRan_chooseImage (h _ (hclk _))) (romRan_enterRecovery (h _ (hclk _)) 1)

/-! ### The tide count under an election -/

@[simp] theorem tideCount_raiseEvent (code : Nat) (job : Option Nat) (params : List Byte) :
    (raiseEvent code job params s).tide.count = s.tide.count := by
  rw [tide_of_view (view_raiseEvent _ _ _ _ (by simp))]

theorem tideCount_elect : (elect s).tide.count = s.tide.count := by
  simp only [elect, becomeMaster, lockTide, unlockTide, markUnlocked]
  repeat' split
  all_goals simp

/-- Settles O6. -/
theorem loopsLock : Obligations.loops_lock := by
  refine ⟨fun s k => ⟨fun h hp => ?_, fun h hp => ?_, fun h => if_pos h, fun h => ?_, fun h => if_pos h, fun h => if_pos h,
    fun h => if_pos h⟩, fun s k => ⟨fun h => if_pos h, fun h => if_pos h, fun h => if_pos h, fun h => if_pos h, fun h => if_pos h,
    fun h => if_pos h⟩⟩
  · simp [exec, execPllLock, h, hp, finish]
  · obtain ⟨⟨hclk, hcol, hbar, htr⟩, hph⟩ := romRan_runRom { s with clk := { s.clk with core := .locked } }
    refine ⟨settle (runRom { s with clk := { s.clk with core := .locked } }), ?_, hclk, hcol, hbar, htr, hph⟩
    simp only [exec, execPllLock, h, hp, finish, if_true]
  · exact ⟨_, if_pos h, clk_of_view (view_elect _ (by simp)), tideCount_elect _⟩

/-! ### The health check -/

/-- A boot that passes: its slot is good, and the fused security version is no less than the slot's. -/
theorem passBoot_aon : (passBoot s).aon.goodSlot = some s.aon.boot.slot ∧ (passBoot s).aon.boot.passed = true ∧
    (passBoot s).aon.fusedSv = max s.aon.fusedSv (getSlot s s.aon.boot.slot).securityVersion := by
  have hf (c : Bool) (u : State) : island (if c then raiseFault 12 1 s.aon.boot.slot 0 1 u else u).aon = island u.aon := by
    cases c
    · rfl
    · exact island_of_view (view_raiseFault _ _ _ _ _ _ (by simp))
  have hp (c : Bool) (i : Nat) (x : ImageSlot) (u : State) : (if c then putSlot i x u else u).aon.goodSlot = u.aon.goodSlot ∧
      (if c then putSlot i x u else u).aon.fusedSv = u.aon.fusedSv := by
    cases c <;> exact ⟨rfl, rfl⟩
  refine ⟨?_, rfl, ?_⟩
  · exact (congrArg AlwaysOn.goodSlot (hf _ _)).trans (hp _ _ _ _).1
  · exact (congrArg AlwaysOn.fusedSv (hf _ _)).trans (hp _ _ _ _).2

/-- Settles O8. -/
theorem healthCheck : Obligations.health_check := by
  intro s
  refine ⟨fun h => ?_, fun hp htr ht hr => ?_, fun hp htr ht hlt hy => ?_⟩
  · obtain ⟨hgood, hpassed, hsv⟩ := passBoot_aon s
    refine ⟨_, if_pos h, rfl, hgood, hpassed, ?_, ?_, jobs_of_view (view_passBoot _ (by simp)), hbm_of_view (view_passBoot _ (by simp)),
      slips_of_view (view_passBoot _ (by simp))⟩
    · exact hsv ▸ le_max_left _ _
    · exact hsv ▸ le_max_right _ _
  · obtain ⟨hw, _, hphase, _⟩ := wasReset_resetAndStart (modAon (fun a => { a with boot := { a.boot with retried := true } }) s)
    obtain ⟨hboot, hnext, _⟩ := resetAndStart_boot (modAon (fun a => { a with boot := { a.boot with retried := true } }) s)
    refine ⟨_, (if_neg (by simp [hp, htr])).trans (if_neg (by simp [ht, hr])), (congrArg Boot.retried hboot :), hnext,
      (congrArg Boot.slot hboot :), hphase, hw⟩
  · obtain ⟨hw, _, hphase, _⟩ := wasReset_resetAndStart (failTrial s)
    obtain ⟨_, hnext, hslots⟩ := resetAndStart_boot (failTrial s)
    refine ⟨_, (if_neg (by simp [hp, htr])).trans (if_pos (by simpa using ht)), ?_, hnext.trans ?_, hphase, hw⟩
    · have hs : getSlot (resetAndStart (failTrial s)) s.aon.boot.slot = getSlot (failTrial s) s.aon.boot.slot :=
        (congrArg (tabGet · s.aon.boot.slot ImageSlot.empty) hslots).trans (getSlot_abortTransfer _ hy)
      exact (congrArg ImageSlot.state hs).trans (congrArg ImageSlot.state (tabGet_tabPut_same _ _ _ _))
    · change otherSlot s.aon.boot.slot = _
      rw [otherSlot]
      split <;> omega
/-! ### The tasks of start-up -/

/-- A unit that is lost is added to those that are, and none other. -/
theorem units_loseUnit (u : UnitRef) (d : Nat) :
    (loseUnit u d s).units = if unitLost s u || !unitExists u then s.units else s.units ++ [(u, d)] := by
  unfold loseUnit
  split
  · rfl
  · have hadd (v : State) (h : view (others [.units]) v = view (others [.units]) { s with units := s.units ++ [(u, d)] }) :
        v.units = s.units ++ [(u, d)] := units_of_view h
    cases u with
    | laneGroup g => exact hadd _ (view_loseLaneGroup _ _ _ (by simp))
    | stack k => exact hadd _ (view_loseStack _ _ (by simp))
    | engine k => exact hadd _ (view_loseEngine _ _ _ (by simp))
    | landing l => exact hadd _ (view_loseLanding _ _ _ (by simp))
    | core c => exact hadd _ ((view_failCore _ _ (by simp)).trans (view_raiseFault _ _ _ _ _ _ (by simp)))
    | sha3 e => exact hadd _ (view_raiseFault _ _ _ _ _ _ (by simp))
    | mldsa => rfl

theorem unitLost_loseUnit (u v : UnitRef) (d : Nat) :
    unitLost (loseUnit u d s) v = (unitLost s v || (unitExists u && u == v)) := by
  rw [unitLost, units_loseUnit]
  split
  case isTrue h =>
    rcases Bool.or_eq_true_iff.mp h with hl | he
    · by_cases huv : u = v
      · subst huv
        rw [show s.units.any (fun p => p.1 == u) = unitLost s u from rfl, hl, Bool.true_or]
      · simp [unitLost, huv]
    · simp [unitLost, Bool.not_eq_true' _ ▸ he]
  case isFalse h =>
    simp only [Bool.or_eq_true, not_or, Bool.not_eq_true, Bool.not_eq_false'] at h
    simp [unitLost, h.2]

theorem selfTested_loseUnit (u : UnitRef) (d : Nat) : (loseUnit u d s).sys = s.sys := sys_of_view (view_loseUnit _ _ _ (by simp))

/-- The units that are lost only grow in number. -/
theorem unitLost_foldl_loseUnit (ks : List Nat) (u : UnitRef) :
    unitLost (ks.foldl (fun s k => loseUnit (.stack k) 0 s) s) u =
      (unitLost s u || ks.any (fun k => unitExists (.stack k) && UnitRef.stack k == u)) := by
  induction ks generalizing s with
  | nil => simp
  | cons k ks ih => simp [ih, unitLost_loseUnit, Bool.or_assoc]

/-- The stacks that are not lost are made ready, one after another. -/
def initStacks (ks : List Nat) (s : State) : State :=
  ks.foldl (fun s k => if unitLost s (.stack k) then s else modStack k (fun t => { t with init := true }) s) s

theorem initStacks_keeps (ks : List Nat) : (initStacks ks s).units = s.units ∧ (initStacks ks s).hbm.mem = s.hbm.mem := by
  induction ks generalizing s with
  | nil => exact ⟨rfl, rfl⟩
  | cons k ks ih =>
    have hk := ih (if unitLost s (.stack k) then s else modStack k (fun t => { t with init := true }) s)
    refine ⟨hk.1.trans ?_, hk.2.trans ?_⟩ <;> split <;> simp

theorem init_initStacks (ks : List Nat) (n : Nat) (hl : unitLost s (.stack n) = false) :
    (getStack (initStacks ks s) n).init = (decide (n ∈ ks) || (getStack s n).init) := by
  induction ks generalizing s with
  | nil => simp [initStacks]
  | cons k ks ih =>
    have hstep := ih (if unitLost s (.stack k) then s else modStack k (fun t => { t with init := true }) s) (by
      split <;> simpa [unitLost] using hl)
    refine hstep.trans ?_
    by_cases hk : n = k
    · subst hk
      simp [hl, getStack, tabGet_tabPut_same]
    · split <;> simp [hk, getStack, tabGet_tabPut_ne]

/-- The memory after HBM_INIT_DONE: the failed stacks lost, the others ready. -/
def initHbm (failed : List Nat) (s : State) : State :=
  initStacks (List.range 8) (failed.foldl (fun s k => loseUnit (.stack k) 0 s) s)

theorem unitLost_initHbm (failed : List Nat) (u : UnitRef) :
    unitLost (initHbm failed s) u = (unitLost s u || failed.any (fun k => unitExists (.stack k) && UnitRef.stack k == u)) := by
  rw [← unitLost_foldl_loseUnit, unitLost, initHbm, (initStacks_keeps _ _).1, unitLost]

theorem init_initHbm (failed : List Nat) {n : Nat} (hn : n < 8) (hl : unitLost (initHbm failed s) (.stack n) = false) :
    (getStack (initHbm failed s) n).init = true := by
  rw [unitLost, initHbm, (initStacks_keeps _ _).1] at hl
  rw [initHbm, init_initStacks _ _ _ hl]
  simp [hn]

theorem initHbm_nil_keeps : (initHbm [] s).units = s.units ∧ (initHbm [] s).hbm.mem = s.hbm.mem := initStacks_keeps s _

theorem exec_hbmInitDone {failed : List Nat} (h : starting s = true) (hm : s.sys.memReady = false) (htr : s.aon.tripped = false)
    (hc : ∀ n < 8, n ∈ failed ∨ unitLost s (.stack n) = true ∨ unitClocked s (.stack n) = true) :
    exec (.hbmInitDone failed) s = .next (settle (modSys (fun y => { y with memReady := true }) (initHbm failed s))) := by
  refine if_neg ?_
  have hnone : (List.range 8).any (fun k =>
      !failed.contains k && !unitLost s (.stack k) && !unitClocked s (.stack k)) = false := by
    rw [List.any_eq_false]
    intro n hn
    rcases hc n (List.mem_range.mp hn) with hf | hl | hk
    · simp [hf]
    · simp [hl]
    · simp [hk]
  rw [hnone, h, hm, htr]
  decide

/-- Settles O7. -/
theorem startupTasks : Obligations.startup_tasks := by
  intro s u k failed bias power
  refine ⟨fun h => if_pos h, fun h hu he hc => ?_, fun h hu he hc => ?_, fun h hm htr hl hc => ?_, fun h hm htr hc => ?_,
    fun h hst htr hk hlt => ?_, fun h hst htr hk hlt => ?_⟩
  · refine (if_neg (by simp [h, hu, he, hc])).trans ?_
    cases hd : deckTested (s.sys.selfTested ++ [u]) <;> simp [hd, finish, modSys]
  · refine ⟨_, if_neg (by simp [h, hu, he, hc]), ?_⟩
    have hsys := selfTested_loseUnit (modSys (fun y => { y with selfTested := y.selfTested ++ [u] }) s) u 0
    have hlost := unitLost_loseUnit (modSys (fun y => { y with selfTested := y.selfTested ++ [u] }) s) u u 0
    simp only [Bool.false_eq_true, if_false]
    generalize loseUnit u 0 _ = w at hsys hlost ⊢
    replace hlost : unitLost w u = true := by simpa [he] using hlost
    cases hd : deckTested w.sys.selfTested
    · refine ⟨hlost, congrArg Sys.selfTested hsys, fun hdt => ?_⟩
      rw [hsys] at hd
      exact absurd (hdt.symm.trans hd) (by decide)
    · exact ⟨hlost, congrArg Sys.selfTested hsys, fun _ => rfl⟩
  · have hx := exec_hbmInitDone s h hm htr (failed := []) (fun n hn => .inr (.inr (hc n hn)))
    obtain ⟨hunits, hmem⟩ := initHbm_nil_keeps s
    have hinit (n : Nat) (hn : n < 8) := init_initHbm s [] hn (by rw [unitLost_initHbm]; simp [hl n hn])
    generalize initHbm [] s = w at hx hunits hmem hinit
    exact ⟨_, hx, rfl, hinit, hmem, hunits⟩
  · have hx := exec_hbmInitDone s h hm htr hc
    have hlost := unitLost_initHbm s failed
    have hinit (n : Nat) := init_initHbm s failed (n := n)
    generalize initHbm failed s = w at hx hlost hinit
    refine ⟨_, hx, rfl, fun n hf hn => (hlost (.stack n)).trans ?_, fun n hn hl => hinit n hn hl⟩
    have : failed.any (fun k => unitExists (.stack k) && UnitRef.stack k == .stack n) = true :=
      List.any_eq_true.mpr ⟨n, hf, by simp [unitExists, hn]⟩
    rw [this, Bool.or_true]
  · refine ⟨_, if_neg (by simp [h, hst, htr, hk, hlt]), ?_⟩
    simp [getEngine, tabGet_tabPut_same]
    intro j hj
    exact tabGet_tabPut_ne _ _ _ hj
  · refine ⟨_, if_neg (by simp [h, hst, htr, hk, hlt]), ?_⟩
    refine ⟨congrArg Sys.calibrated (selfTested_loseUnit _ _ _), (unitLost_loseUnit _ _ _ _).trans ?_⟩
    simp [unitExists, hlt]

end

end Sys2Proof.Proofs

/-!
The host link, CXL.mem, BAR0 and the rings.
-/
namespace Sys2Proof.Proofs
open Sys2Proof Sys2Proof.Machine Sys2Proof.Laws

section
variable (s : State)

/-! ### The fault records under a fault -/

@[simp] theorem flt_raiseEvent (code : Nat) (job : Option Nat) (params : List Byte) : (raiseEvent code job params s).flt = s.flt :=
  flt_of_view (view_raiseEvent _ _ _ _ (by simp))

@[simp] theorem flt_keepFatal (r : FaultRecord) : (keepFatal r s).flt = s.flt := flt_of_view (view_keepFatal _ _ (by simp))

@[simp] theorem flt_countPurser (i n : Nat) : (countPurser i n s).flt = s.flt := flt_of_view (view_countPurser _ _ _ (by simp))

@[simp] theorem flt_raiseFaultEvent (r : FaultRecord) : (raiseFaultEvent r s).flt = s.flt := flt_raiseEvent s _ _ _

@[simp] theorem flt_noteFault (cls level : Nat) : (noteFault cls level s).flt = s.flt := rfl

theorem flt_addRecord_congr {t : State} (h : t.flt = s.flt) (r : FaultRecord) : (addRecord r t).flt = (addRecord r s).flt := by
  simp only [addRecord, h]
  split <;> simp [h]

/-- The records a fault leaves depend on the records before it and on the time. -/
theorem flt_raiseFault_congr {t : State} (h : t.flt = s.flt) (hn : now t = now s) (cls cause unit detail level : Nat) :
    (raiseFault cls cause unit detail level t).flt = (raiseFault cls cause unit detail level s).flt := by
  have hl : raisedLevel t = raisedLevel s := by funext c; simp only [raisedLevel, h]
  have hput (r : FaultRecord) : (putRecord r t).flt = (putRecord r s).flt := by simp only [putRecord, h]
  have hadd (r : FaultRecord) := flt_addRecord_congr s h r
  simp only [raiseFault, h, hn, hl]
  repeat' split
  all_goals simp [hput, hadd]

/-! ### The reset of ring state (R287) -/

theorem tabGet?_mapVal {α β : Type} (t : Tab α) (f : α → β) (k : Nat) :
    tabGet? (t.map (fun p => (p.1, f p.2)) : Tab β) k = (tabGet? t k).map f := by
  induction t with
  | nil => rfl
  | cons p t ih =>
    by_cases h : p.1 = k
    · simp [tabGet?, h]
    · simpa [tabGet?, h] using ih

/-- What the reset of ring state names, but for the events, the fault records and what has left the part. -/
def afterReset : List Part :=
  [.errorN, .fatal, .vectors, .aer, .events, .mbox, .eventSeq, .records, .purser, .accts, .freeCount, .outbox]

theorem ringsReset_of_view {t u : State} (h : RingsReset s t) (hv : view afterReset u = view afterReset t) : RingsReset s u := by
  have hhost : viewHost afterReset u.host = viewHost afterReset t.host := congrArg State.host hv
  have hqps : u.host.qps = t.host.qps := by simpa [viewHost, afterReset] using congrArg HostIf.qps hhost
  have hev : u.host.ev = t.host.ev := by simpa [viewHost, afterReset] using congrArg HostIf.ev hhost
  have haud : u.host.aud = t.host.aud := by simpa [viewHost, afterReset] using congrArg HostIf.aud hhost
  have hrun : u.host.running = t.host.running := by simpa [viewHost, afterReset] using congrArg HostIf.running hhost
  have hr : u.rctxs.map Prod.fst = t.rctxs.map Prod.fst := by
    simpa [view, viewRctxs, afterReset, Function.comp_def] using congrArg (fun v => v.rctxs.map Prod.fst) hv
  have ho : u.octxs.map Prod.fst = t.octxs.map Prod.fst := by
    simpa [view, viewOctxs, afterReset, Function.comp_def] using congrArg (fun v => v.octxs.map Prod.fst) hv
  have hjobs : u.jobs = t.jobs := jobs_of_view (view_of_subset hv (by decide))
  have hxings : u.xings = t.xings := xings_of_view (view_of_subset hv (by decide))
  have hhbm : u.hbm = t.hbm := hbm_of_view (view_of_subset hv (by decide))
  have htide : u.tide = t.tide := tide_of_view (view_of_subset hv (by decide))
  have hslips : u.slips = t.slips := slips_of_view (view_of_subset hv (by decide))
  have hlands : u.lands = t.lands := lands_of_view (view_of_subset hv (by decide))
  simpa only [RingsReset, getQp, hqps, hev, haud, hrun, hr, ho, hjobs, hxings, hhbm, htide, hslips, hlands] using h

theorem ringsReset_ringReset : RingsReset s (ringReset s) := by
  have hq (q : Nat) : getQp (ringReset s) q = (getQp s q).ringReset := by
    have hm := tabGet?_mapVal s.host.qps QueuePair.ringReset q
    refine (congrArg (·.getD QueuePair.reset) hm).trans ?_
    unfold getQp tabGet
    cases tabGet? s.host.qps q <;> rfl
  refine ⟨fun q => ?_, rfl, rfl, rfl, rfl, rfl, rfl, rfl, rfl, ?_, ?_, rfl, rfl, ?_, rfl, rfl, rfl, rfl, rfl⟩
  · rw [hq]
    exact ⟨rfl, rfl, rfl, rfl, rfl, rfl, rfl⟩
  · intro r hr q hx
    obtain ⟨r', _, rfl⟩ := List.mem_map.mp hr
    unfold Running.orphaned at hx ⊢
    cases hs : r'.x.src <;> simp_all
  · refine (List.map_map ..).trans (List.map_congr_left fun r _ => ?_)
    unfold Running.orphaned
    simp only [Function.comp]
    split <;> rfl
  · exact (List.map_map ..)

/-- Settles O9. -/
theorem hostLink : Obligations.host_link := by
  refine ⟨fun s mode width => ⟨fun h hm hw => ?_, fun h => ?_, fun h => ?_, fun h => ?_⟩,
    fun s => ⟨⟨_, rfl, ringsReset_ringReset s, rfl, rfl, rfl⟩, ⟨_, rfl, ringsReset_ringReset s, rfl, rfl, rfl⟩,
      ⟨_, rfl, ringsReset_ringReset s, rfl, rfl, rfl⟩⟩, fun s r v w => ⟨fun h => ?_, fun h hb => ?_, fun h hb => ?_, fun h hb => ?_,
      fun h hb hv => ?_⟩⟩
  · exact if_pos (by simpa [h, hm, or_assoc] using hw)
  · refine if_neg ?_
    simp only [List.mem_cons, List.not_mem_nil, or_false, not_or] at h
    rcases h with h | h | ⟨h4, h8, h16⟩
    · simp [h]
    · simp [h]
    · simp [h4, h8, h16]
  · have hrings : RingsReset s (dropLink s) := ringsReset_ringReset s
    have hquiet : (raiseFault 14 0 0 0 1 (mailboxRecord (dropLink s))).host.quiet = (dropLink s).host.quiet :=
      hostQuiet_of_view ((view_raiseFault _ _ _ _ _ _ (by simp)).trans (view_mailboxRecord _ (by simp)))
    refine ⟨_, if_pos h, (congrArg HostIf.linkUp hquiet :), (congrArg HostIf.linkMode hquiet :), (congrArg HostIf.width hquiet :),
      ringsReset_of_view s hrings ?_, ?_⟩
    · rw [view_settle _ (by simp [afterReset]), view_raiseFault _ _ _ _ _ _ (by simp [afterReset]),
        view_mailboxRecord _ (by simp [afterReset])]
    · exact flt_raiseFault_congr s (t := mailboxRecord (dropLink s)) (flt_of_view (view_mailboxRecord (dropLink s) (by simp)))
        (congrArg TideUnit.count (tide_of_view (view_mailboxRecord (dropLink s) (by simp)))) 14 0 0 0 1
  · exact if_neg (by simp [h])
  · exact if_pos (by simp [h])
  · exact (if_neg (by simp [h])).trans (if_pos (by simp [hb]))
  · exact (if_neg (by simp [h])).trans (if_neg (by simp [hb]))
  · exact (if_neg (by simp [h])).trans (if_neg (by simp [hb]))
  · have hw : writeConfig .deviceControl v s = ringReset (modConfig (fun c => { c with deviceControl := v % 2 ^ 15 }) s) := if_pos hv
    refine ⟨_, (if_neg (by simp [h])).trans (if_neg (by simp [hb])), ?_⟩
    rw [hw]
    exact ringsReset_ringReset (modConfig (fun c => { c with deviceControl := v % 2 ^ 15 }) s)

/-! ### The purser under a count -/

theorem purser_raiseEvent (code : Nat) (job : Option Nat) (params : List Byte) : (raiseEvent code job params s).purser =
    if 4096 ≤ s.host.evQueue.length then tabPut s.purser 2 (bumpCounter 64 (tabGet s.purser 2 zeroCounter) 1).1 else s.purser := by
  have hraw (c : Nat) (j : Option Nat) (p : List Byte) (u : State) : (raiseRaw c j p u).purser = u.purser :=
    purser_of_view (view_raiseRaw _ _ _ _ (by simp))
  unfold raiseEvent raiseSaturated bumpPurser
  by_cases h : 4096 ≤ s.host.evQueue.length
  · simp only [h, decide_true, if_true]
    split <;> simp [hraw]
  · simp [h, hraw]

/-- What a count leaves in the purser depends on the purser and on the length of the event queue. -/
theorem purser_countPurser_congr {t : State} (hp : t.purser = s.purser) (hq : t.host.evQueue = s.host.evQueue) (i n : Nat) :
    (countPurser i n t).purser = (countPurser i n s).purser := by
  unfold countPurser bumpPurser
  dsimp only
  rw [hp]
  split
  · rw [purser_raiseEvent, purser_raiseEvent, hq]
  · rfl

theorem purser_countEcc_touchStack (k : Nat) (e : EccResult) : (countEcc k e (touchStack k s)).purser = (countEcc k e s).purser := by
  cases e
  · rfl
  · exact purser_countPurser_congr s (t := touchStack k s) rfl rfl _ _
  · exact purser_countPurser_congr s (t := touchStack k s) rfl rfl _ _

/-! ### CXL.mem -/

/-- What a byte reads as depends on the cells, and on the losses of power so far where it was never written. -/
theorem readByte_of_view {t : State} (h : view (others [.mem, .island]) t = view (others [.mem, .island]) s) :
    readByte t = readByte s := by
  have hm : t.hbm.mem = s.hbm.mem := mem_of_view (view_of_subset h (by decide))
  have hl : t.aon.losses = s.aon.losses := (congrArg AlwaysOn.losses (island_of_view (view_of_subset h (by decide))) :)
  funext a
  simp only [readByte, hm, hl]

theorem fit_of_length {n : Nat} {bs : List Byte} (h : bs.length = n) : fit n bs = bs := by
  simp [fit, h]

section
variable {s} {base hpa : Nat} (hbase : s.host.hdmBase = some base) (hlo : base ≤ hpa) (hhi : hpa < base + areaSize)
  (hup : s.host.linkUp = true) (hmode : s.host.linkMode ≠ 2)
include hbase hlo hhi hup hmode

theorem exec_cxlMemRead_served (hs : stackServes s (stackOf (hpa - base)) = true) (p : ParityResult) (e : EccResult) :
    exec (.cxlMemRead hpa p e) s = .next (settle (readLine ((hpa - base) / 64 * 64) (stackOf (hpa - base)) p
      (countEcc (stackOf (hpa - base)) e (touchStack (stackOf (hpa - base)) s)))) := by
  simp [exec, execCxlMemRead, cxlMemUp, hup, hmode, areaOffset, hbase, hlo, hhi, hs, finish]

theorem exec_cxlMemRead_unserved (hs : stackServes s (stackOf (hpa - base)) = false) (p : ParityResult) (e : EccResult) :
    exec (.cxlMemRead hpa p e) s = .next (settle (emit (.memData ((hpa - base) / 64 * 64) [] true) s)) := by
  simp [exec, execCxlMemRead, cxlMemUp, hup, hmode, areaOffset, hbase, hlo, hhi, hs, finish]

theorem exec_cxlMemWrite_served (hs : stackServes s (stackOf (hpa - base)) = true) (data : List Byte) :
    exec (.cxlMemWrite hpa data) s = .next (settle (writeBytes ((hpa - base) / 64 * 64) (fit 64 data)
      (touchStack (stackOf (hpa - base)) s))) := by
  simp [exec, execCxlMemWrite, cxlMemUp, hup, hmode, areaOffset, hbase, hlo, hhi, hs, finish]

theorem exec_cxlMemWrite_unserved (hs : stackServes s (stackOf (hpa - base)) = false) (data : List Byte) :
    exec (.cxlMemWrite hpa data) s = .next (settle (countPurser 0x0003 1 s)) := by
  simp [exec, execCxlMemWrite, cxlMemUp, hup, hmode, areaOffset, hbase, hlo, hhi, hs, finish]

end

/-- What a read of a line leaves alone. -/
theorem mem_readLine (line st k : Nat) (p : ParityResult) (e : EccResult) :
    (readLine line st p (countEcc k e (touchStack k s))).hbm.mem = s.hbm.mem := mem_of_view (by simp)

/-- What a read of a line answers, where a first or a second read passes its parity check. -/
theorem readLine_answers (line st k : Nat) (e : EccResult) {p : ParityResult} (hp : p ≠ .failed) :
    (readLine line st p (countEcc k e (touchStack k s))).flt = s.flt ∧
      .memData line (readBytes s line 64) false ∈ (readLine line st p (countEcc k e (touchStack k s))).outbox := by
  have hread (u : State) (hu : view (others [.mem, .island]) u = view (others [.mem, .island]) s) :
      readBytes u line 64 = readBytes s line 64 := by simp only [readBytes, readByte_of_view s hu]
  have he := hread (countEcc k e (touchStack k s)) (by simp)
  cases p with
  | ok => exact ⟨flt_of_view (by simp [readLine]), by simp [readLine, he]⟩
  | retryOk => exact ⟨flt_of_view (by simp [readLine]), by simp [readLine, he]⟩
  | failed => exact absurd rfl hp

/-- Settles O10. -/
theorem cxlMemory : Obligations.cxl_memory := by
  refine ⟨fun s base hpa data hbase hlo hhi hlen hup hmode => ⟨fun hready hlost hclk => ?_, fun h => ?_⟩,
    fun s hpa data p e => ⟨fun hup hmode hout => ?_, fun h => ?_⟩⟩
  · have hs : stackServes s (stackOf (hpa - base)) = true := by simp [stackServes, hready, hlost, hclk]
    have hfit : fit 64 data = data := fit_of_length hlen
    have hw := exec_cxlMemWrite_served hbase hlo hhi hup hmode hs data
    rw [hfit] at hw
    have hr := exec_cxlMemRead_served hbase hlo hhi hup hmode hs
    refine ⟨⟨_, hw, ?_, ?_, fun hwf => wf_writeBytes hwf _ _, rfl, rfl, rfl⟩, ⟨_, hr .ok .clean, ?_, rfl, rfl, rfl⟩,
      fun e => ⟨_, hr .ok e, ?_, mem_readLine s _ _ _ _ _, ?_, ?_⟩, fun e => ⟨_, hr .retryOk e, ?_, mem_readLine s _ _ _ _ _, ?_⟩,
      fun e => ⟨_, hr .failed e, ?_, mem_readLine s _ _ _ _ _⟩⟩
    · exact hlen ▸ readBytes_writeBytes (touchStack _ s) _ _
    · intro a ha
      refine (readByte_writeBytes _ _ _ _).trans (if_neg ?_)
      rw [hlen]
      omega
    · rfl
    · exact (readLine_answers s _ _ _ e (by decide)).2
    · exact (readLine_answers s _ _ _ e (by decide)).1
    · exact purser_countEcc_touchStack s _ e
    · exact (readLine_answers s _ _ _ e (by decide)).2
    · exact (readLine_answers s _ _ _ e (by decide)).1
    · simp [readLine]
  · have hs : stackServes s (stackOf (hpa - base)) = false := by
      rcases h with h | h | h
      · simp [stackServes, h]
      · simp [stackServes, h]
      · simp [stackServes, h]
    exact ⟨exec_cxlMemWrite_unserved hbase hlo hhi hup hmode hs data, exec_cxlMemRead_unserved hbase hlo hhi hup hmode hs⟩
  · have ho : areaOffset s hpa = none := by
      unfold areaOffset
      cases hb : s.host.hdmBase with
      | none => rfl
      | some d =>
        refine if_neg ?_
        have := hout d hb
        simp only [Bool.and_eq_true, decide_eq_true_eq]
        omega
    simp [exec, execCxlMemWrite, execCxlMemRead, cxlMemUp, hup, hmode, ho]
  · have hu : cxlMemUp s = false := by
      rcases h with h | h <;> simp [cxlMemUp, h]
    simp [exec, execCxlMemWrite, execCxlMemRead, hu, finish]

/-! ### BAR0 -/

/-- With no vector pending there is none to raise. -/
theorem flushPending_of_none (h : s.host.msixPending = 0) : flushPending s = s := by
  unfold flushPending
  generalize List.range 64 = l
  induction l with
  | nil => rfl
  | cons v l ih => simpa [h] using ih

theorem exec_registerWrite_msix {d : Nat} (v : Nat) (hd : d < 256) (h : s.host.msixPending = 0) :
    exec (.registerWrite (0x8000 + 4 * d) 4 v) s = .next (settle (writeMsix d v s)) := by
  have hok : accessOk (0x8000 + 4 * d) 4 = true := by
    have : (0x8000 + 4 * d) % 4 = 0 := by omega
    simp [accessOk, this]
  have hw : writeRegister (0x8000 + 4 * d) 4 v s = writeMsix d v s := by
    have hq : (0x8000 + 4 * d - 0x8000) / 4 = d := by omega
    have hlt : 0x8000 + 4 * d < 0x8400 := by omega
    have hlt' : ¬ 0x10000 ≤ 0x8000 + 4 * d := by omega
    have hf := flushPending_of_none (writeMsix d v s) h
    simp only [writeRegister, hlt', hlt, hq]
    simpa using hf
  exact (if_neg (by simp [hok])).trans (congrArg (fun u => Host.Outcome.next (settle u)) hw)

/-- A read of a register answers it, and changes nothing but the latch of TIDE. -/
theorem readBar0_latches (o size : Nat) :
    (settle (readBar0 o size s)).outbox = s.outbox ++ [.registerData (readRegister s o size)] ∧
      settle (readBar0 o size s) = settle { s with
        outbox := (settle (readBar0 o size s)).outbox
        host := { s.host with tideLatch := (settle (readBar0 o size s)).host.tideLatch } } ∧
      (o ≠ 0x0018 → o ≠ 0x001C → (settle (readBar0 o size s)).host.tideLatch = s.host.tideLatch) := by
  unfold readBar0 afterRead
  by_cases h1 : o = 0x0018 ∧ size = 4
  · simp only [h1, decide_true, Bool.and_self, if_true]
    exact ⟨rfl, rfl, fun h => absurd rfl h⟩
  by_cases h2 : o = 0x001C ∧ size = 4
  · simp only [h2, decide_true, Bool.and_self, if_true]
    exact ⟨rfl, rfl, fun _ h => absurd rfl h⟩
  · simp only [← Bool.decide_and, decide_eq_true_eq, h1, h2, if_false]
    exact ⟨rfl, rfl, fun _ _ => rfl⟩

/-- Settles O11. -/
theorem bar0Accesses : Obligations.bar0_accesses := by
  refine fun s o size v d => ⟨fun h => ⟨if_neg (by simp [h]), if_neg (by simp [h]), if_pos (by simp [h])⟩, fun h => ?_, fun high h => ?_, ?_,
    fun hd hp => exec_registerWrite_msix s v hd hp⟩
  · exact ⟨_, if_pos h, readBar0_latches s o size⟩
  · have hx : exec (.bar0RefusedAccess 0x001C 4 false) s = .next (settle (readBar0 0x001C 4 s)) := rfl
    refine ⟨_, hx, ?_, rfl⟩
    have hr : readRegister s 0x001C 4 = high := by simp [readRegister, readDword, h]
    rw [← hr]
    rfl
  · have hlt := s.tide.count.isLt
    have hhalf : half s.tide.count.toNat true = s.tide.count.toNat / 2 ^ 32 := by
      simp only [half, if_true]
      omega
    rw [← hhalf]
    rfl

/-! ### Ring control (R288) -/

theorem cfgError_qp (q k : Nat) : (getQp (cfgError (.qp q) s) q).status.cfgErr = true ∧
    (getQp (cfgError (.qp q) s) q).sqBase = (getQp s q).sqBase ∧ (k ≠ q → getQp (cfgError (.qp q) s) k = getQp s k) := by
  simp only [cfgError, getQp_ringError, getQp_modQp_same]
  exact ⟨trivial, trivial, fun h => getQp_modQp_ne s _ h⟩

section
variable {s} {q v : Nat} (hrsvd : ctrlRsvd (.qp q) v = false) (hsizes : sizesOk (.qp q) v = true)
include hrsvd hsizes

/-- The control fields that a word written to a queue pair's control register spells. -/
def ctrlOf (v : Nat) : RingCtrl :=
  { enable := bit v 0, ordered := bit v 1, log2 := bits v 7 3, cqLog2 := bits v 12 8, vector := bits v 18 13,
    irqEn := bit v 19, coalCount := bits v 27 24, coalTime := bits v 31 28 }

theorem writeCtrl_qp_enables (he : (getQp s q).ctrl.enable = false) (hi : (getQp s q).status.idle = true) (hrun : running s = true)
    (hv : bit v 0 = true) : writeCtrl (.qp q) v s =
      setStatus (.qp q) (fun t => { t with idle := false }) (zeroIndices (.qp q) (setCtrl (.qp q) (ctrlOf v) s)) := by
  simp [writeCtrl, ringCtrl, ringStatus, hrsvd, hsizes, he, hi, hrun, hv, ctrlOf]

theorem writeCtrl_qp_disables (he : (getQp s q).ctrl.enable = true) (hl : bits v 7 3 = (getQp s q).ctrl.log2)
    (hc : bits v 12 8 = (getQp s q).ctrl.cqLog2) (hv : bit v 0 = false) :
    writeCtrl (.qp q) v s = setCtrl (.qp q) (ctrlOf v) s := by
  simp [writeCtrl, ringCtrl, hrsvd, hsizes, he, hv, ctrlOf, ← hl, ← hc]

end

/-- Settles O12. -/
theorem ringControl : Obligations.ring_control := by
  refine ⟨fun s q v hq => ⟨fun he hi => ⟨fun hv => ⟨?_, ?_⟩, fun hv => ?_⟩, fun he hi => ⟨fun hv => ?_, fun hv => ?_⟩, fun h => ?_⟩,
    fun s q v hq hrsvd hsizes => ⟨fun he hi hrun hv => ?_, fun he hl hc hv => ?_, fun he hf => ?_⟩⟩
  · simp [exec, execRingConfigWrite, ringNamed, hq, finish, writeRingReg, ringCtrl, ringStatus, he, hi, hv]
  · simp [exec, execRingConfigWrite, ringNamed, hq, finish, writeRingReg, ringCtrl, ringStatus, he, hi, hv]
  · simp [exec, execRingConfigWrite, ringNamed, hq, finish, writeRingReg, ringCtrl, ringStatus, he, hi, hv]
  · simp [exec, execRingConfigWrite, ringNamed, finish, writeRingReg, ringCtrl, ringStatus, he, hi, hv, modHost]
  · simp [exec, execRingConfigWrite, ringNamed, finish, writeRingReg, ringCtrl, ringStatus, he, hi, hv, modHost]
  · have hx : exec (.ringConfigWrite (.qp q) .base v) s = .next (settle (cfgError (.qp q) s)) := by
      rcases h with h | h <;> simp [exec, execRingConfigWrite, ringNamed, hq, finish, writeRingReg, ringCtrl, ringStatus, h]
    exact ⟨_, hx, (cfgError_qp s q 0).1, (cfgError_qp s q 0).2.1, fun k => (cfgError_qp s q k).2.2⟩
  · have hx : exec (.ringEnable (.qp q) v) s = .next (settle (writeCtrl (.qp q) v s)) := by
      simp [exec, execRingEnable, ringNamed, hq, hv, finish]
    rw [writeCtrl_qp_enables hrsvd hsizes he hi hrun hv] at hx
    refine ⟨_, hx, ?_⟩
    simp [setStatus, setCtrl, zeroIndices, ctrlOf, hv]
    intro k hk
    simp [getQp_modQp_ne, hk]
  · have hx : exec (.ringDisable (.qp q) v) s = .next (settle (writeCtrl (.qp q) v s)) := by
      simp [exec, execRingDisable, ringNamed, hq, hv, finish]
    rw [writeCtrl_qp_disables hrsvd hsizes he hl hc hv] at hx
    refine ⟨_, hx, ?_⟩
    simp [setCtrl, ctrlOf, hv]
    intro k hk
    simp [getQp_modQp_ne, hk]
  · simp [exec, execRingIdle, ringNamed, hq, ringCtrl, he, hf, finish, setStatus]

/-! ### Dispatch -/

theorem chooseCore_mem (h : coresUp s ≠ []) : (chooseCore s).1 ∈ coresUp s := by
  have hlt : (fresh 16 s).1.toNat % max 1 (coresUp s).length < (coresUp s).length := by
    have := List.length_pos_iff.mpr h
    rw [max_eq_right this]
    exact Nat.mod_lt _ this
  show (coresUp s).getD _ 0 ∈ coresUp s
  rw [List.getD_eq_getElem _ _ hlt]
  exact List.getElem_mem hlt

/-- A completion over a ring leaves the commands that run. -/
theorem running_complete_ring {r : Running} {q : Nat} (h : r.x.src = .ring q) (status r0 r1 : Nat) (data : List Byte) :
    (complete r status r0 r1 data s).host.running = s.host.running := by
  unfold complete
  simp only [h]
  refine running_of_view ?_
  split
  · simp
  · rw [view_pushCompletion _ _ _ (by simp)]
    split <;> split <;> simp

/-- Settles O16. -/
theorem commandDispatch : Obligations.command_dispatch := by
  intro s q c rest d ok entryOk
  dsimp only
  intro hf hmay
  have hx : exec (.commandDispatch q d ok entryOk) s = .next (settle (dispatchOn
      { src := .ring q, cmd := c, desc := if c.descLen = 0 then some [] else d, resultOk := ok, entryOk := entryOk }
      (modQp q (fun p => { p with fetched := rest }) s))) := by
    simp only [exec, execCommandDispatch, hf, hmay, if_true, finish]
  refine ⟨fun ho hup => ?_, fun ho => ?_⟩
  · refine ⟨_, _, hx, chooseCore_mem _ hup, ?_⟩
    unfold dispatchOn
    rw [if_pos ho]
    exact ⟨rfl, congrArg QueuePair.fetched (getQp_modQp_same s q (fun p => { p with fetched := rest })), rfl, rfl⟩
  · refine ⟨_, hx, ?_⟩
    unfold dispatchOn
    rw [if_neg (by simp [ho])]
    refine ⟨?_, ?_, ?_⟩
    · exact sends_of_eq (s := s) rfl (complete_answers _ _ _ _ _ _ rfl)
    · exact running_complete_ring _ rfl _ _ _ _
    · exact (quiet_settle _).trans (quiet_complete _ _ _ _ _ _)

/-! ### Coalesced interrupts and events -/

theorem raiseVector_outbox (v : Nat) :
    (vectorMasked s.host v = true → (raiseVector v s).outbox = s.outbox ∧
      (v < 64 → (raiseVector v s).host.msixPending.getLsbD v = true)) ∧
    (vectorMasked s.host v = false → (raiseVector v s).outbox = s.outbox ++ [.interrupt v]) := by
  refine ⟨fun h => ?_, fun h => ?_⟩
  · simp only [raiseVector, h, if_true]
    refine ⟨rfl, fun hv => ?_⟩
    change (s.host.msixPending ||| BitVec.ofNat 64 (2 ^ v)).getLsbD v = true
    rw [BitVec.getLsbD_or, BitVec.getLsbD_ofNat, Nat.testBit_two_pow_self, decide_eq_true hv]
    exact Bool.or_true _
  · simp [raiseVector, h]

/-- Of the host interface an event's write-back changes what the ring has not signalled and the vectors that wait. -/
theorem evWriteBack_host : ∃ n p, (evWriteBack s).host =
    { s.host with ev := { s.host.ev with unsignalled := n }, msixPending := p } := by
  unfold evWriteBack raiseVector
  dsimp only
  split
  · split
    · exact ⟨0, _, rfl⟩
    · exact ⟨0, s.host.msixPending, rfl⟩
  · exact ⟨s.host.ev.unsignalled, s.host.msixPending, rfl⟩

/-- The event ring's port and the bytes that leave as an event is written at the tail. -/
def eventWritten (e : Event) (rest : List Event) (s : State) : State :=
  modHost (fun h => { h with evQueue := rest, ev := { h.ev with
      tail := h.ev.tail + 1
      unsignalled := (noteEntry s.host.ev.unsignalled s.host.ev.firstUnsignalled (now s)).1
      firstUnsignalled := (noteEntry s.host.ev.unsignalled s.host.ev.firstUnsignalled (now s)).2 } })
    (emit (.hostWrite (s.host.ev.base + (s.host.ev.tail.toNat % 2 ^ s.host.ev.ctrl.log2) * 64) e.bytes) s)

/-- With room, and no events lost, a write takes the oldest event. -/
theorem writeEvent_of_room {e : Event} {rest : List Event} (hq : s.host.evQueue = e :: rest) (hroom : evRoom s = true)
    (hlost : s.host.evLost = 0) : writeEvent s = evWriteBack (eventWritten e rest (settleEvents s)) := by
  have hev := host_settleEvents s
  have hq' : (settleEvents s).host.evQueue = e :: rest := (congrArg HostIf.evQueue hev).trans hq
  have hroom' : evRoom (settleEvents s) = true := by simpa only [evRoom, hev] using hroom
  have hw : writeEvent s = placeLost (evWriteBack (eventWritten e rest (settleEvents s))) := by
    unfold writeEvent
    simp only [hq', hroom', if_true]
    rfl
  obtain ⟨n, p, hh⟩ := evWriteBack_host (eventWritten e rest (settleEvents s))
  refine hw.trans (if_pos ((congrArg HostIf.evLost hh).trans ?_))
  exact (congrArg HostIf.evLost hev).trans hlost

/-- Settles O17. -/
theorem interruptsAndEvents : Obligations.interrupts_and_events := by
  intro s q e rest
  refine ⟨fun h => ?_, fun hq hroom hlost => ?_, fun hq hroom => ?_⟩
  · obtain ⟨hmasked, hopen⟩ := raiseVector_outbox (modQp q (fun p => { p with unsignalled := 0 }) s) (getQp s q).ctrl.vector
    refine ⟨_, if_pos h, ?_, ?_, hmasked, hopen⟩
    · have hv (v : Nat) (u : State) : getQp (settle (raiseVector v u)) q = getQp u q := by
        unfold raiseVector
        split <;> rfl
      rw [hv, getQp_modQp_same]
    · simp
  · have hev := host_settleEvents s
    have hx : exec (.eventRingWrite true) s = .next (settle (writeEvent s)) := rfl
    rw [writeEvent_of_room s hq hroom hlost] at hx
    obtain ⟨n, p, hh⟩ := evWriteBack_host (eventWritten e rest (settleEvents s))
    refine ⟨_, hx, (congrArg HostIf.evQueue hh :), (congrArg (fun h => h.ev.tail) hh).trans ?_, ?_, ?_, ?_⟩
    · exact congrArg (fun h => h.ev.tail + 1) hev
    · refine (quiet_settle _).trans ((quiet_evWriteBack _).trans ((quiet_modHost _ _ rfl).trans ?_))
      exact (quiet_emit _ _).trans (quiet_settleEvents s)
    · exact (flt_of_view (view_evWriteBack _ (by simp))).trans (flt_of_view (view_settleEvents s (by simp)))
    · have hbase : (settleEvents s).host.ev = s.host.ev := (congrArg HostIf.ev hev :)
      obtain ⟨o, ho⟩ := grows_evWriteBack (eventWritten e rest (settleEvents s))
      have hout : (settle (evWriteBack (eventWritten e rest (settleEvents s)))).outbox = _ := ho.symm
      rw [hout]
      simp [eventWritten]
  · have hx : exec (.eventRingWrite false) s =
        .next (settle (setStatus .ev (fun t => { t with dmaErr := true }) (linkError s))) := by
      simp [exec, execEventRingWrite, hroom, hq, finish]
    have hl : ∃ c, (linkError s).host = { s.host with cfg := c } := by
      have hif (c : Bool) (o : Output) (u : State) : (if c then emit o u else u).host = u.host := by cases c <;> rfl
      exact ⟨_, hif _ _ _⟩
    obtain ⟨c, hc⟩ := hl
    refine ⟨_, hx, rfl, (congrArg HostIf.evQueue hc).trans hq, (congrArg (fun h => h.ev.tail) hc :), ?_, ?_⟩
    · exact Eq.trans (b := (linkError s).quiet) rfl (quiet_linkError s)
    · exact flt_of_view (view_linkError s (by simp))

end

end Sys2Proof.Proofs

/-!
Byte records: the length of what they are put together from, and what a field read at an offset finds.
-/
namespace Sys2Proof.Proofs
open Sys2Proof Sys2Proof.Machine Sys2Proof.Laws

@[simp] theorem length_le (n v : Nat) : (le n v).length = n := by
  induction n generalizing v with
  | zero => rfl
  | succ n ih => simp [le, ih]

@[simp] theorem length_zeros (n : Nat) : (zeros n).length = n := List.length_replicate

@[simp] theorem length_fit (n : Nat) (bs : List Byte) : (fit n bs).length = n := by
  simp [fit]
  omega

@[simp] theorem leNat_le (n v : Nat) : leNat (le n v) = v % 256 ^ n := by
  induction n generalizing v with
  | zero => simp [le, leNat, Nat.mod_one]
  | succ n ih =>
    rw [le, leNat, ih, BitVec.toNat_ofNat, Nat.pow_succ' (m := 256), Nat.mod_mul]

/-! ### Reading at an offset -/

theorem bytesAt_append_left {a : List Byte} (b : List Byte) {off n : Nat} (h : off + n ≤ a.length) :
    bytesAt (a ++ b) off n = bytesAt a off n := by
  unfold bytesAt
  rw [List.drop_append_of_le_length (by omega), List.take_append_of_le_length (by simp; omega)]

theorem bytesAt_append_right {a : List Byte} (b : List Byte) {off : Nat} (n : Nat) (h : a.length ≤ off) :
    bytesAt (a ++ b) off n = bytesAt b (off - a.length) n := by
  unfold bytesAt
  rw [List.drop_append, List.drop_eq_nil_of_le h, List.nil_append]

theorem bytesAt_fit {k off n : Nat} {bs : List Byte} (hk : off + n ≤ k) (hb : off + n ≤ bs.length) :
    bytesAt (fit k bs) off n = bytesAt bs off n := by
  unfold fit
  rw [← bytesAt_append_left (zeros (k - bs.length)) hb]
  unfold bytesAt
  rw [List.drop_take, List.take_take, min_eq_left (by omega)]

theorem bytesAt_all {a : List Byte} {n : Nat} (h : a.length = n) : bytesAt a 0 n = a := by
  simp [bytesAt, ← h]

theorem bytesAt_zeros {k off n : Nat} (h : off + n ≤ k) : bytesAt (zeros k) off n = zeros n := by
  simp [bytesAt, zeros]
  omega

/-! ### IDENT (Table 09.4) -/

/-- Settles O60. -/
theorem identRoundTrip : Obligations.ident_round_trip := by
  intro m hrole hmax hmin harev hup hslip hserial hhawser hwidth haddr hfw hrsvd
  have hfit : fit 64 m.fwMeasurement = m.fwMeasurement := by simp [fit, hfw]
  have hlen : (identBytes m).length = 128 := by simp [identBytes]
  refine ⟨hlen, ?_⟩
  obtain ⟨role, protoMax, protoMin, arev, widthUp, slip, serial, hawser, width, fabricAddr, fwMeasurement, rsvd⟩ := m
  dsimp only at hrole hmax hmin harev hup hslip hserial hhawser hwidth haddr hfw hrsvd hfit
  simp [parseIdent, identBytes, field, zeroAt, bytesAt_append_left, bytesAt_append_right, bytesAt_all, Nat.mod_eq_of_lt, *]
  exact ⟨hslip, hserial, hhawser, haddr, fun b hb => List.eq_of_mem_replicate hb, fun b hb => List.eq_of_mem_replicate hb⟩

end Sys2Proof.Proofs

/-!
Commands that complete at once: what one that is accepted or refused leaves, and the groups whose commands write a field and answer.
-/
namespace Sys2Proof.Proofs
open Sys2Proof Sys2Proof.Machine Sys2Proof.Laws

section
variable {x : Exec} {s : State} {row : State → Row}

/-- The state that a command is admitted into: only the commands fetched and running and the free values drawn differ. -/
def Admitted (s u : State) : Prop :=
  (∃ l, u = { s with host := { s.host with qps := l }, freeCount := s.freeCount + 1 }) ∨
    ∃ l, u = { s with host := { s.host with running := l } }

/-- A field that admission leaves alone. -/
theorem Admitted.of_host {α : Type} {s u : State} (h : Admitted s u) (g : State → α)
    (hg : ∀ v x n, g { v with host := x, freeCount := n } = g v) : g u = g s := by
  rcases h with ⟨l, rfl⟩ | ⟨l, rfl⟩
  · exact hg s _ _
  · exact hg s _ s.freeCount

/-- An accepted command runs its effect on the admitted state and completes with OK. -/
theorem exec_of_accepts (h : Accepts x row s) (effect : State → Effect) (c : Instr) (hc : exec c s = runCmd x s row effect) :
    ∃ u r, Admitted s u ∧ r.x = x ∧ r.orphan = false ∧
      exec c s = .next (settle (complete r stOk (effect u).r0 (effect u).r1 (effect u).data (effect u).state)) := by
  obtain ⟨r, u, hadmit, hr, he⟩ := runCmd_accepts h effect
  exact ⟨u, r, (admitted_state hadmit).imp_right (fun h => ⟨_, h⟩), admitted_exec hadmit, hr, hc.trans he⟩

/-- An accepted command that completes later is started on the admitted state. -/
theorem execLater_of_accepts (h : Accepts x row s) (start : Running → State → State) (c : Instr)
    (hc : exec c s = runLater x s row start) : ∃ u r, Admitted s u ∧ r.x = x ∧ r.orphan = false ∧
      exec c s = .next (settle (start r u)) := by
  obtain ⟨r, u, hadmit, hr, he⟩ := runLater_accepts h start
  exact ⟨u, r, (admitted_state hadmit).imp_right (fun h => ⟨_, h⟩), admitted_exec hadmit, hr, hc.trans he⟩

theorem verdict_of_accepts (h : Accepts x row s) : ∃ u, Admitted s u ∧ verdict u x (row u) = none := by
  obtain ⟨r, u, hadmit, _, hv⟩ := h
  exact ⟨u, (admitted_state hadmit).imp_right (fun h => ⟨_, h⟩), hv⟩

/-- A completion replies. -/
theorem replied_complete {r : Running} (hx : r.x = x) (hr : r.orphan = false) (status r0 r1 : Nat) (data : List Byte) (u : State) :
    Replied x status r0 r1 (settle (complete r status r0 r1 data u)) :=
  hx ▸ replied_of_answered (complete_answers u r status r0 r1 data hr)

theorem answered_complete {r : Running} (hx : r.x = x) (hr : r.orphan = false) (status r0 r1 : Nat) (data : List Byte) {u : State}
    (hu : u.outbox = s.outbox) : Answered x status r0 r1 data s (settle (complete r status r0 r1 data u)) :=
  hx ▸ sends_of_eq hu (complete_answers u r status r0 r1 data hr)

theorem runCmd_rejects {f : Failed} (h : Rejects x row f s) (effect : State → Effect) :
    ∃ t, runCmd x s row effect = .next t ∧ Answered x f.status f.r0 f.r1 [] s t ∧ t.quiet = s.quiet := by
  obtain ⟨r, u, hadmit, hr, hverdict⟩ := h
  refine ⟨settle (complete r f.status f.r0 f.r1 [] u), ?_, ?_, ?_⟩
  · simp only [runCmd, hadmit, hverdict, finish]
  · exact answered_complete (admitted_exec hadmit) hr _ _ _ _ (admitted_outbox hadmit)
  · rw [quiet_settle, quiet_complete, quiet_admitCmd hadmit]

/-- A command without effect on the state answers from what the state holds beside the host's queues. -/
theorem done_of_query (h : Accepts x row s) (effect : State → Effect) (c : Instr) (hc : exec c s = runCmd x s row effect)
    (hread : ∀ u, Admitted s u → (effect u).state = u ∧ (effect u).r0 = (effect s).r0 ∧ (effect u).r1 = (effect s).r1 ∧
      (effect u).data = (effect s).data) :
    Done c x (effect s).r0 (effect s).r1 (effect s).data s s := by
  obtain ⟨u, r, hu, hx, hr, he⟩ := exec_of_accepts h effect c hc
  obtain ⟨hst, h0, h1, hd⟩ := hread u hu
  rw [h0, h1, hd, hst] at he
  refine ⟨_, he, answered_complete hx hr _ _ _ _ (hu.of_host State.outbox (fun _ _ _ => rfl)), ?_⟩
  rw [quiet_settle, quiet_complete]
  rcases hu with ⟨l, rfl⟩ | ⟨l, rfl⟩ <;> rfl

/-- A command whose effect, on the admitted state, sends nothing and leaves a quiet part that is known. -/
theorem done_of_effect (h : Accepts x row s) (effect : State → Effect) (c : Instr) (hc : exec c s = runCmd x s row effect)
    {v : State} {r0 r1 : Nat} {data : List Byte}
    (heff : ∀ u, Admitted s u → (effect u).r0 = r0 ∧ (effect u).r1 = r1 ∧ (effect u).data = data ∧
      (effect u).state.outbox = s.outbox ∧ (effect u).state.quiet = v.quiet) : Done c x r0 r1 data v s := by
  obtain ⟨u, r, hu, hx, hr, he⟩ := exec_of_accepts h effect c hc
  obtain ⟨h0, h1, hd, hout, hq⟩ := heff u hu
  rw [h0, h1, hd] at he
  exact ⟨_, he, answered_complete hx hr _ _ _ _ hout, by rw [quiet_settle, quiet_complete, hq]⟩

end

/-! ### What a completion leaves alone -/

@[simp] theorem complete_fields (s : State) (r : Running) (status r0 r1 : Nat) (data : List Byte) :
    (complete r status r0 r1 data s).sys = s.sys ∧
    (complete r status r0 r1 data s).clk = s.clk ∧
    (complete r status r0 r1 data s).pwr = s.pwr ∧
    (complete r status r0 r1 data s).units = s.units ∧
    (complete r status r0 r1 data s).mbox = s.mbox ∧
    (complete r status r0 r1 data s).tide = s.tide ∧
    (complete r status r0 r1 data s).jobs = s.jobs ∧
    (complete r status r0 r1 data s).net = s.net ∧
    (complete r status r0 r1 data s).lands = s.lands ∧
    (complete r status r0 r1 data s).sw = s.sw ∧
    (complete r status r0 r1 data s).slips = s.slips ∧
    (complete r status r0 r1 data s).hawsers = s.hawsers ∧
    (complete r status r0 r1 data s).optics = s.optics ∧
    (complete r status r0 r1 data s).xings = s.xings ∧
    (complete r status r0 r1 data s).incs = s.incs ∧
    (complete r status r0 r1 data s).deck = s.deck ∧
    (complete r status r0 r1 data s).hbm = s.hbm ∧
    (complete r status r0 r1 data s).audit = s.audit ∧
    (complete r status r0 r1 data s).deferred = s.deferred ∧
    (complete r status r0 r1 data s).pending = s.pending :=
  ⟨sys_of_view (view_complete _ _ _ _ _ _ (by simp)),
    clk_of_view (view_complete _ _ _ _ _ _ (by simp)),
    pwr_of_view (view_complete _ _ _ _ _ _ (by simp)),
    units_of_view (view_complete _ _ _ _ _ _ (by simp)),
    mbox_of_view (view_complete _ _ _ _ _ _ (by simp)),
    tide_of_view (view_complete _ _ _ _ _ _ (by simp)),
    jobs_of_view (view_complete _ _ _ _ _ _ (by simp)),
    net_of_view (view_complete _ _ _ _ _ _ (by simp)),
    lands_of_view (view_complete _ _ _ _ _ _ (by simp)),
    sw_of_view (view_complete _ _ _ _ _ _ (by simp)),
    slips_of_view (view_complete _ _ _ _ _ _ (by simp)),
    hawsers_of_view (view_complete _ _ _ _ _ _ (by simp)),
    optics_of_view (view_complete _ _ _ _ _ _ (by simp)),
    xings_of_view (view_complete _ _ _ _ _ _ (by simp)),
    incs_of_view (view_complete _ _ _ _ _ _ (by simp)),
    deck_of_view (view_complete _ _ _ _ _ _ (by simp)),
    hbm_of_view (view_complete _ _ _ _ _ _ (by simp)),
    audit_of_view (view_complete _ _ _ _ _ _ (by simp)),
    deferred_of_view (view_complete _ _ _ _ _ _ (by simp)),
    pending_of_view (view_complete _ _ _ _ _ _ (by simp))⟩

/-! ### The Device commands -/

theorem done_devInfo {x : Exec} {s : State} (h : Accepts x (rowDevInfo x) s) : ∃ data, data.length = 128 ∧ field data 0 2 = 0x384 ∧
    bytesAt data 8 8 = le 8 serial64 ∧ bytesAt data 16 2 = le 2 (ownAddr s) ∧ bytesAt data 24 8 = le 8 s.tide.count.toNat ∧
    bytesAt data 32 4 = le 4 (devStatus s) ∧ Done (.devInfo x) x 0 0 data s s := by
  refine ⟨_, ?_, ?_, ?_, ?_, ?_, ?_,
    (done_of_runCmd h _ (.devInfo x) rfl (fun _ => rfl) (fun _ _ => rfl) (fun _ _ => rfl) (fun _ _ => rfl) :)⟩
  · exact length_fit _ _
  all_goals simp [field, bytesAt_fit, bytesAt_append_left, bytesAt_append_right, bytesAt_all, now]

/-- Settles O18. -/
theorem deviceCommands : Obligations.device_commands := by
  refine fun x s => ⟨fun h => done_devInfo h,
    fun h => (done_of_runCmd h _ (.nop x) rfl (fun _ => rfl) (fun _ _ => rfl) (fun _ _ => rfl) (fun _ _ => rfl) :),
    fun h => (done_of_runCmd h _ (.monitorRead x) rfl (fun _ => rfl) (fun _ _ => rfl) (fun _ _ => rfl) (fun _ _ => rfl) :),
    fun h => ?_,
    fun h => (done_of_runCmd h _ (.throttleSet x) rfl (fun _ => rfl) (fun _ _ => rfl) (fun _ _ => rfl) (fun _ _ => rfl) :),
    fun h => (done_of_runCmd h _ (.devReset x) rfl (fun _ => rfl) (fun _ _ => rfl) (fun _ _ => rfl) (fun _ _ => rfl) :),
    fun c row f hc h => ?_⟩
  · have hd := done_of_runCmd h _ (.setLatencyBudget x) rfl (fun _ => by dsimp only [Effect.ok]; split <;> rfl)
      (fun _ _ => by dsimp only; split <;> rfl) (fun _ _ => by dsimp only; split <;> rfl) (fun _ _ => by dsimp only; split <;> rfl)
    generalize param x 0 1 = k at hd ⊢
    rcases k with _ | _ | k
    all_goals exact hd
  · simp only [List.mem_cons, Prod.mk.injEq, List.not_mem_nil, or_false] at hc
    rcases hc with ⟨rfl, rfl⟩ | ⟨rfl, rfl⟩ | ⟨rfl, rfl⟩ | ⟨rfl, rfl⟩ | ⟨rfl, rfl⟩ | ⟨rfl, rfl⟩
    all_goals exact runCmd_rejects h _

/-! ### The Job commands -/

theorem done_jobDestroy {x : Exec} {s : State} (h : Accepts x (rowJobDestroy x) s) : ∃ d, Done (.jobDestroy x) x 0 0 [] { s with
    jobs := tabDel s.jobs x.cmd.job, deferred := d
    net := { s.net with told := s.net.told.filter (fun k => k.job != x.cmd.job)
                        asked := s.net.asked.filter (fun k => k.job != x.cmd.job) } } s ∧
      d ⊆ s.deferred ∧ ∀ b, Deferred.jobBudget x.cmd.job b ∉ d := by
  refine ⟨_, (done_of_runCmd h _ (.jobDestroy x) rfl (fun _ => rfl) (fun _ _ => rfl) (fun _ _ => rfl) (fun _ _ => rfl) :), ?_, fun b hb => ?_⟩
  · exact fun _ hd => (List.mem_filter.mp hd).1
  · simpa using (List.mem_filter.mp hb).2

theorem done_phaseMapSet {x : Exec} {s : State} (h : Accepts x (rowPhaseMapSet x) s) :
    ∃ f : Job → Job, Done (.phaseMapSet x) x 0 0 [] { s with jobs := tabMod s.jobs x.cmd.job f } s ∧
      ∀ y, f y = { y with phaseMaps := (f y).phaseMaps } ∧
        (0 < (parsePhaseMap (desc x)).stages → (f y).phaseMaps = tabPut y.phaseMaps (field (desc x) 0 1) (parsePhaseMap (desc x))) := by
  refine ⟨_, (done_of_runCmd h _ (.phaseMapSet x) rfl (fun _ => rfl) (fun _ _ => rfl) (fun _ _ => rfl) (fun _ _ => rfl) :), fun y => ⟨rfl, fun hst => ?_⟩⟩
  have hne : field (desc x) 1 1 ≠ 0 := Nat.pos_iff_ne_zero.mp hst
  simp [hne]

theorem done_jobQuery {x : Exec} {s : State} (h : Accepts x (rowJobQuery x) s) : ∃ data, data.length = 64 ∧
    field data 0 1 = launchCode (jobOf s x).launch ∧ Done (.jobQuery x) x 0 0 data s s := by
  refine ⟨_, ?_, ?_, (done_of_runCmd h _ (.jobQuery x) rfl (fun _ => rfl) (fun _ _ => rfl) (fun _ _ => rfl) (fun _ _ => rfl) :)⟩
  · exact length_fit _ _
  · have hlt : launchCode (jobOf s x).launch < 256 := by cases (jobOf s x).launch <;> decide
    simp [field, bytesAt_fit, bytesAt_append_left, bytesAt_all, Nat.mod_eq_of_lt hlt]

/-- Settles O19. -/
theorem jobCommands : Obligations.job_commands := by
  exact fun x s => ⟨fun h => (done_of_runCmd h _ (.jobCreate x) rfl (fun _ => rfl) (fun _ _ => rfl) (fun _ _ => rfl) (fun _ _ => rfl) :),
    done_jobDestroy,
    fun h => (done_of_runCmd h _ (.jobRanksSet x) rfl (fun _ => rfl) (fun _ _ => rfl) (fun _ _ => rfl) (fun _ _ => rfl) :),
    fun h => (done_of_runCmd h _ (.jobClassSet x) rfl (fun _ => rfl) (fun _ _ => rfl) (fun _ _ => rfl) (fun _ _ => rfl) :),
    fun h => (done_of_runCmd h _ (.jobSliceSet x) rfl (fun _ => rfl) (fun _ _ => rfl) (fun _ _ => rfl) (fun _ _ => rfl) :),
    done_phaseMapSet, done_jobQuery⟩

/-! ### The Crossing commands -/

/-- Where no check has failed, none of the checks that make up the list has. -/
theorem not_of_firstFailed_eq_none {fs : List Failed} (h : firstFailed fs = none) {c : Bool} {st : Nat} (hc : fails c st ⊆ fs)
    (hst : st ∈ ownOrder) : c = false := by
  cases c with
  | false => rfl
  | true =>
    have hmem : (⟨st, 0, 0⟩ : Failed) ∈ fs := hc (List.mem_singleton_self _)
    have hnil := List.head?_eq_none_iff.mp h
    have hnone : fs.find? (fun f => f.status == st) = none := List.filterMap_eq_nil_iff.mp hnil st hst
    simpa using List.find?_eq_none.mp hnone _ hmem

/-- An accepted command passes each of its row's own checks, in the state it is admitted into. -/
theorem own_of_accepts {x : Exec} {row : State → Row} {s : State} (h : Accepts x row s) : ∃ u, Admitted s u ∧
    ∀ c st, fails c st ⊆ (row u).own → st ∈ ownOrder → c = false := by
  obtain ⟨u, hu, hv⟩ := verdict_of_accepts h
  exact ⟨u, hu, fun c st hc hst =>
    not_of_firstFailed_eq_none (firstFailed_of_verdict_eq_none hv) (fun f hf => List.mem_append_right _ (hc hf)) hst⟩

theorem getInc_putInc_same (s : State) (l p pl : Nat) (v : BitVec 2) : getInc (putInc l p pl v s) l p pl = v := by
  simp [getInc, putInc]

/-- After a reset the crossing has the incarnation given. -/
theorem getInc_xingReset (s : State) (c : Crossing) (inc : BitVec 2) (cause : Nat) :
    getInc (xingReset c inc cause s) c.landing c.peer c.peerLanding = inc := by
  unfold xingReset
  dsimp only
  unfold getInc
  rw [incs_of_view (view_raiseEvent _ _ _ _ (by simp))]
  exact getInc_putInc_same _ _ _ _ inc

/-- After a reset the crossing waits for its peer, with four fresh lanes. -/
theorem xings_xingReset (s : State) (c : Crossing) (inc : BitVec 2) (cause : Nat) (y : Crossing)
    (hy : y ∈ (xingReset c inc cause s).xings) (hl : y.landing = c.landing) (hp : y.peer = c.peer)
    (hpl : y.peerLanding = c.peerLanding) : y.state = .syncing ∧ y.lanes = List.replicate 4 XLane.fresh := by
  unfold xingReset at hy
  dsimp only at hy
  rw [xings_of_view (view_raiseEvent _ _ _ _ (by simp))] at hy
  obtain ⟨z, _, hz⟩ := List.mem_map.mp hy
  split at hz
  · subst hz
    exact ⟨rfl, rfl⟩
  · subst hz
    simp_all

theorem freeFour_of_admitted {s u : State} (h : Admitted s u) : freeFour u = freeFour s := by
  rcases h with ⟨l, rfl⟩ | ⟨l, rfl⟩ <;> simp only [freeFour]

/-- Settles O20. -/
theorem crossingCommands : Obligations.crossing_commands := by
  refine fun x s c => ⟨fun h => ?_, fun h hc => ?_, fun h hc => ?_, fun h hc => ?_⟩
  · obtain ⟨u, hu, hown⟩ := own_of_accepts h
    have hsome : (freeFour u).isNone = false := hown _ stNoResource (fun _ hf => List.mem_append_right _ hf) (by decide)
    rw [freeFour_of_admitted hu] at hsome
    obtain ⟨first, hfirst⟩ := Option.isSome_iff_exists.mp (Option.isNone_eq_false_iff.mp hsome)
    obtain ⟨v, r, hv, hx, hr, he⟩ := exec_of_accepts h _ (.crossingOpen x) rfl
    simp only [Effect.ok, freeFour_of_admitted hv, hfirst, Option.getD_some] at he
    refine ⟨first, hfirst, _, he, answered_complete hx hr _ _ _ _ ?_, ?_⟩
    · rcases hv with ⟨l, rfl⟩ | ⟨l, rfl⟩ <;> rfl
    · rw [quiet_settle, quiet_complete]
      rcases hv with ⟨l, rfl⟩ | ⟨l, rfl⟩ <;> rfl
  · obtain ⟨u, r, hu, hx, hr, he⟩ := exec_of_accepts h _ (.crossingClose x) rfl
    have hn : namedXing x u = some c := (hu.of_host (namedXing x) (fun _ _ _ => rfl)).trans hc
    simp only [hn, Effect.ok] at he
    refine ⟨_, he, replied_complete hx hr _ _ _ _ _, fun y hy => ?_, ?_, ?_, ?_⟩
    · have hy' : y ∈ (refuseWaiting c (discardXing c u)).xings.filter (fun y => y.first != c.first) := by simpa [touchLanding] using hy
      simpa using (List.mem_filter.mp hy').2
    · exact (incs_of_view (s := u) (by simp [touchLanding])).trans (hu.of_host State.incs (fun _ _ _ => rfl))
    · exact (net_of_view_told (s := u) (by simp [touchLanding])).trans (by rw [hu.of_host State.net (fun _ _ _ => rfl)])
    · exact (octxKeys_of_view (s := u) (by simp [touchLanding])).trans
        (congrArg (List.map Prod.fst) (hu.of_host State.octxs (fun _ _ _ => rfl)))
  · obtain ⟨u, r, hu, hx, hr, he⟩ := exec_of_accepts h _ (.crossingReset x) rfl
    have hn : namedXing x u = some c := (hu.of_host (namedXing x) (fun _ _ _ => rfl)).trans hc
    simp only [hn, Effect.ok] at he
    refine ⟨_, he, replied_complete hx hr _ _ _ _ _, ?_, fun y hy => ?_, ?_⟩
    · have hi : getInc u c.landing c.peer c.peerLanding = getInc s c.landing c.peer c.peerLanding :=
        hu.of_host (fun v => getInc v c.landing c.peer c.peerLanding) (fun _ _ _ => rfl)
      rw [← hi]
      refine Eq.trans ?_ (getInc_xingReset u c _ 0)
      simp only [getInc, settle_fields, complete_fields, touchLanding, modLanding_fields]
    · have hy' : y ∈ (xingReset c (getInc u c.landing c.peer c.peerLanding + 1) 0 u).xings := by simpa [touchLanding] using hy
      exact xings_xingReset u c _ 0 y hy'
    · exact (net_of_view (s := u) (by simp [touchLanding])).trans (hu.of_host State.net (fun _ _ _ => rfl))
  · have hd := done_of_query h _ (.crossingQuery x) rfl (fun u hu => by
      have hn : namedXing x u = some c := (hu.of_host (namedXing x) (fun _ _ _ => rfl)).trans hc
      have hs : namedXing x s = some c := hc
      simp only [hn, hs]
      rcases hu with ⟨l, rfl⟩ | ⟨l, rfl⟩ <;> exact ⟨rfl, rfl, rfl, rfl⟩)
    rw [show namedXing x s = some c from hc] at hd
    refine ⟨_, ?_, ?_, ?_, hd⟩
    · exact length_fit _ _
    · simp [field, bytesAt_fit, bytesAt_append_left, bytesAt_all]
    · have hlt : xstateCode c.state < 256 := by cases c.state <;> decide
      rw [field, bytesAt_fit (by decide) (by simp; omega)]
      simp [bytesAt_append_left, bytesAt_append_right, bytesAt_all, Nat.mod_eq_of_lt hlt]

/-! ### The Route commands -/

theorem done_routeSet {x : Exec} {s : State} {b : Nat} (h : Accepts x (rowRouteSet x) s) (hb : idleBank s = some b) :
    Done (.routeSet x) x 0 0 [] (setBank b (fun k => { k with
      routes := putRun k.routes (param x 0 4)
        ((List.range (min (param x 4 4) 65536)).map (fun i => (routeWords (desc x) i).map parseCandidate))
      attrs := if bit (param x 8 1) 0 = true then (List.range 384).zip (bytesAt (desc x) (32 * param x 4 4) 384) else k.attrs }) s) s := by
  refine done_of_effect h _ (.routeSet x) rfl (fun u hu => ?_)
  have hi : idleBank u = some b := (hu.of_host idleBank (fun _ _ _ => rfl)).trans hb
  simp only [hi, Effect.ok, List.map_map, true_and]
  unfold setBank
  rcases hu with ⟨l, rfl⟩ | ⟨l, rfl⟩ <;> split <;> exact ⟨rfl, rfl⟩

theorem done_routeQuery {x : Exec} {s : State} (h : Accepts x (rowRouteQuery x) s) : ∃ data, data.length = 40 ∧
    field data 32 1 = bankCode s.net.bank0.state ∧ field data 33 1 = bankCode s.net.bank1.state ∧
      Done (.routeQuery x) x 0 0 data s s := by
  have hlt (k : BankState) : bankCode k < 256 := by cases k <;> decide
  refine ⟨_, ?_, ?_, ?_, (done_of_runCmd h _ (.routeQuery x) rfl (fun _ => rfl) (fun _ _ => rfl) (fun _ _ => rfl) (fun _ _ => rfl) :)⟩
  · simp
  all_goals simp [field, bytesAt_append_left, bytesAt_append_right, bytesAt_all, Nat.mod_eq_of_lt (hlt _)]

/-- Settles O21. -/
theorem routeCommands : Obligations.route_commands := by
  refine fun x s b => ⟨fun h => (done_of_runCmd h _ (.endpointSet x) rfl (fun _ => rfl) (fun _ _ => rfl) (fun _ _ => rfl) (fun _ _ => rfl) :), done_routeSet, done_routeQuery, fun h => ?_⟩
  refine done_of_effect h _ (.fabricAddrSet x) rfl (fun u hu => ?_)
  have hn : u.net = s.net := hu.of_host State.net (fun _ _ _ => rfl)
  simp only [Effect.ok, hn, true_and]
  cases s.net.ownAddr.isNone
  all_goals rcases hu with ⟨l, rfl⟩ | ⟨l, rfl⟩ <;> exact ⟨rfl, rfl⟩

/-! ### The switch of routing banks -/

/-- The banks as the IDLE one waits for its time. -/
theorem pendBank_net {u : State} (t : Option Tide) (y : Option Running) (h0 : u.net.bank0.state = .active)
    (h1 : u.net.bank1.state = .idle) : pendBank t y u = { u with net := { u.net with
      bank1 := { u.net.bank1 with state := .pending }, switchAt := t, switchCmd := y } } := by
  simp [pendBank, idleBank, setBank, h0, h1]

/-- The switch: the PENDING bank is ACTIVE, the ACTIVE one drains. -/
theorem switchBanks_net {u : State} (h0 : u.net.bank0.state = .active) (h1 : u.net.bank1.state = .pending) :
    ∃ z, switchBanks u = { u with net := { u.net with
      bank0 := { u.net.bank0 with state := .draining, drainStart := now u, zeroSince := z }
      bank1 := { u.net.bank1 with state := .active }, switchAt := none, serviceChanged := true } } := by
  exact ⟨if bankInFlight u 0 = 0 then some (now u) else none, by simp [switchBanks, h0, h1]⟩

/-- Settles O22. -/
theorem bankSwitch : Obligations.bank_switch := by
  refine fun x s at_ r => ⟨fun h ht h0 h1 => ?_, fun h ht h0 h1 => ?_, fun hat hdue h0 h1 => ?_, fun h hl => ?_⟩
  · obtain ⟨u, y, hu, hx, hr, he⟩ := execLater_of_accepts h _ (.routeSwitch x) rfl
    have hn : u.net = s.net := hu.of_host State.net (fun _ _ _ => rfl)
    rw [← hn] at h0 h1 ⊢
    have hp := pendBank_net none none h0 h1
    obtain ⟨z, hz⟩ := switchBanks_net (u := pendBank none none u) (by rw [hp]; exact h0) (by rw [hp])
    simp only [ht, if_true] at he
    rw [hz, hp] at he
    refine ⟨_, he, answered_complete hx hr _ _ _ _ (hu.of_host State.outbox (fun _ _ _ => rfl)), ?_⟩
    simp only [settle_fields, complete_fields, quiet_settle, quiet_complete, true_and]
    rcases hu with ⟨l, rfl⟩ | ⟨l, rfl⟩ <;> rfl
  · obtain ⟨u, y, hu, hx, hr, he⟩ := execLater_of_accepts h _ (.routeSwitch x) rfl
    have hn : u.net = s.net := hu.of_host State.net (fun _ _ _ => rfl)
    rw [← hn] at h0 h1 ⊢
    simp only [ht, if_false, pendBank_net _ _ h0 h1] at he
    exact ⟨_, y, he, hx, rfl, rfl, rfl, rfl, hu.of_host State.outbox (fun _ _ _ => rfl)⟩
  · obtain ⟨z, hz⟩ := switchBanks_net (u := { s with net := { s.net with switchCmd := none } }) h0 h1
    have hdue' : switchDue s = true := by simp [switchDue, hat, hdue]
    have hx : exec .routeSwitchTime s = .next (settle (match s.net.switchCmd with
      | some r => complete r stOk 0 0 [] (switchBanks { s with net := { s.net with switchCmd := none } })
      | none => switchBanks { s with net := { s.net with switchCmd := none } })) := if_pos hdue'
    rw [hz] at hx
    cases hcmd : s.net.switchCmd with
    | none =>
      rw [hcmd] at hx
      exact ⟨_, hx, rfl, rfl, rfl, rfl, nofun, rfl⟩
    | some y =>
      rw [hcmd] at hx
      refine ⟨_, hx, ?_⟩
      simp only [settle_fields, complete_fields, quiet_settle, quiet_complete, true_and]
      refine ⟨fun hy ho => ?_, trivial⟩
      cases hy
      exact answered_complete rfl ho _ _ _ _ rfl
  · have hd : drainingBank s = some 0 := if_pos h
    have hx : exec .bankRetire s = .next (settle (raiseEvent 0x0040 none (le 1 0 ++
        le 1 (b2n (!(bankInFlight s 0 == 0 && ((s.net.bank0.zeroSince.map (fun z => decide (50000 ≤ tideSince z (now s)))).getD false))))
          ++ zeros 2 ++ le 4 (bankInFlight s 0)) (setBank 0 (fun k => { k with state := .idle, zeroSince := none }) s))) := by
      simp [exec, execBankRetire, hd, getBank, hl, finish]
    refine ⟨_, hx, ?_⟩
    rw [quiet_settle, quiet_raiseEvent]
    rfl

end Sys2Proof.Proofs

/-!
Slips. What each operation on a slip leaves of it, and of the others; and the quiet part of a state read off a view.
-/
namespace Sys2Proof.Proofs
open Sys2Proof Sys2Proof.Machine Sys2Proof.Laws

/-! ### The quiet part as a view -/

/-- The parts that the quiet part of a state leaves out. -/
def loud : List Part :=
  [.errorN, .fatal, .qps, .evPort, .vectors, .aer, .events, .running, .eventSeq, .svcCmds, .records, .purser, .accts, .freeCount, .outbox]

theorem view_loud (s : State) : view loud s = s.quiet := by
  simp [view, loud, viewAon, viewHost, viewSvc, viewFlt, viewNet, viewHbm, viewRctxs, viewOctxs, viewTide, viewClk, State.quiet,
    HostIf.quiet]

section
variable {s t : State}

theorem others_subset {a b : List Part} (h : b ⊆ a) : others a ⊆ others b := by
  intro p hp
  simp only [mem_others] at hp ⊢
  exact fun hb => hp (h hb)

theorem quiet_of_view (h : view loud t = view loud s) : t.quiet = s.quiet := by
  rw [← view_loud, h, view_loud]

theorem quiet_slips_of_view (h : view (.slips :: loud) t = view (.slips :: loud) s) : t.quiet = { s with slips := t.slips }.quiet := by
  have e (u : State) : { view (.slips :: loud) u with slips := t.slips } = { u with slips := t.slips }.quiet := by
    simp [view, loud, viewAon, viewHost, viewSvc, viewFlt, viewNet, viewHbm, viewRctxs, viewOctxs, viewTide, viewClk, State.quiet,
      HostIf.quiet]
  exact (e t).symm.trans ((congrArg (fun v => { v with slips := t.slips }) h).trans (e s))

theorem quiet_optics_of_view (h : view (.optics :: loud) t = view (.optics :: loud) s) :
    t.quiet = { s with optics := t.optics }.quiet := by
  have e (u : State) : { view (.optics :: loud) u with optics := t.optics } = { u with optics := t.optics }.quiet := by
    simp [view, loud, viewAon, viewHost, viewSvc, viewFlt, viewNet, viewHbm, viewRctxs, viewOctxs, viewTide, viewClk, State.quiet,
      HostIf.quiet]
  exact (e t).symm.trans ((congrArg (fun v => { v with optics := t.optics }) h).trans (e s))

theorem quiet_lands_of_view (h : view (.lands :: loud) t = view (.lands :: loud) s) : t.quiet = { s with lands := t.lands }.quiet := by
  have e (u : State) : { view (.lands :: loud) u with lands := t.lands } = { u with lands := t.lands }.quiet := by
    simp [view, loud, viewAon, viewHost, viewSvc, viewFlt, viewNet, viewHbm, viewRctxs, viewOctxs, viewTide, viewClk, State.quiet,
      HostIf.quiet]
  exact (e t).symm.trans ((congrArg (fun v => { v with lands := t.lands }) h).trans (e s))

/-! ### Reading a slip -/

theorem getSlip_of_slips (h : t.slips = s.slips) (n : Nat) : getSlip t n = getSlip s n := congrArg (fun x => tabGet x n Slip.reset) h

theorem getSlip_of_view (h : view (others [.slips]) t = view (others [.slips]) s) (n : Nat) : getSlip t n = getSlip s n :=
  getSlip_of_slips (slips_of_view h) n

end

section
variable (s : State) (slip n : Nat)

@[simp] theorem getSlip_modSlip_same (f : Slip → Slip) : getSlip (modSlip slip f s) slip = f (getSlip s slip) :=
  tabGet_tabPut_same _ _ _ _

@[simp] theorem getSlip_raiseEvent (code : Nat) (job : Option Nat) (params : List Byte) :
    getSlip (raiseEvent code job params s) n = getSlip s n := getSlip_of_view (view_raiseEvent _ _ _ _ (by simp)) n

@[simp] theorem getSlip_raiseFault (cls cause unit detail level : Nat) :
    getSlip (raiseFault cls cause unit detail level s) n = getSlip s n := getSlip_of_view (view_raiseFault _ _ _ _ _ _ (by simp)) n

@[simp] theorem getSlip_raiseAll (fs : List Raise) : getSlip (raiseAll fs s) n = getSlip s n :=
  getSlip_of_view (view_raiseAll _ _ (by simp)) n

@[simp] theorem getSlip_emit (o : Output) : getSlip (emit o s) n = getSlip s n := rfl
@[simp] theorem getSlip_fresh (w : Nat) : getSlip (fresh w s).2 n = getSlip s n := rfl
@[simp] theorem getSlip_settle : getSlip (settle s) n = getSlip s n := rfl

@[simp] theorem getSlip_countPurser (i k : Nat) : getSlip (countPurser i k s) n = getSlip s n :=
  getSlip_of_view (view_countPurser _ _ _ (by simp)) n

@[simp] theorem getSlip_complete (r : Running) (status r0 r1 : Nat) (data : List Byte) :
    getSlip (complete r status r0 r1 data s) n = getSlip s n := getSlip_of_view (view_complete _ _ _ _ _ _ (by simp)) n

@[simp] theorem getSlip_slipEvent (k : Nat) (old new : SlipState) (reason : Nat) :
    getSlip (slipEvent k old new reason s) n = getSlip s n := getSlip_raiseEvent _ _ _ _ _

@[simp] theorem getSlip_dropTide (k : Nat) : getSlip (dropTide k s) n = getSlip s n := rfl

@[simp] theorem getSlip_modHawser (h : Nat) (f : Hawser → Hawser) : getSlip (modHawser h f s) n = getSlip s n := rfl

@[simp] theorem getSlip_serdesFor (k : Nat) : getSlip (serdesFor k s) n = getSlip s n :=
  getSlip_of_view (view_serdesFor _ _ (by simp)) n

/-! ### The slip that an operation is about -/

/-- A slip's counters after one of them was raised. -/
theorem getSlip_countLink_same (k m : Nat) : getSlip (countLink slip k m s) slip =
    { getSlip s slip with
      linkCnt := tabPut (getSlip s slip).linkCnt k (bumpCounter 32 (tabGet (getSlip s slip).linkCnt k zeroCounter) m).1 } := by
  unfold countLink
  dsimp only
  split <;> simp

theorem getSlip_countLane_same (k m : Nat) : getSlip (countLane slip k m s) slip =
    { getSlip s slip with
      laneCnt := tabPut (getSlip s slip).laneCnt k (bumpCounter 32 (tabGet (getSlip s slip).laneCnt k zeroCounter) m).1 } := by
  unfold countLane
  dsimp only
  split <;> simp

theorem getSlip_measureSlip_same : ∃ x, getSlip (measureSlip slip s) slip = { getSlip s slip with tele := x } := by
  unfold measureSlip
  dsimp only
  split
  · exact ⟨_, getSlip_modSlip_same _ _ _⟩
  · exact ⟨_, rfl⟩

theorem getSlip_modLane_same (f : Slip → Slip) : ∃ x, getSlip (modLane slip f s) slip = { f (getSlip s slip) with tele := x } := by
  unfold modLane
  rw [getSlip_modSlip_same]
  dsimp only
  split
  · exact ⟨_, rfl⟩
  · exact ⟨_, rfl⟩

end

/-! ### Whether a slip's lanes may run -/

section
variable {s t : State}

/-- What a slip needs to run or train, beside its own settings. -/
theorem mayRun_of_view (h : view (others [.island, .sys, .units, .net]) t = view (others [.island, .sys, .units, .net]) s) {n : Nat}
    (he : (getSlip t n).enable = (getSlip s n).enable) (hd : (getSlip t n).engineDead = (getSlip s n).engineDead) :
    mayRun t n = mayRun s n := by
  have ht : t.aon.tripped = s.aon.tripped := (congrArg AlwaysOn.tripped (island_of_view (view_of_subset h (others_subset (by simp)))) :)
  have hu : t.units = s.units := units_of_view (view_of_subset h (others_subset (by simp)))
  have hs : t.sys = s.sys := sys_of_view (view_of_subset h (others_subset (by simp)))
  have hn : t.net.released = s.net.released := by
    have e (u : State) : (view (others [.island, .sys, .units, .net]) u).net.released = u.net.released := by simp [view, viewNet]
    rw [← e, h, e]
  simp only [mayRun, unitLost, he, hd, ht, hu, hs, hn]

theorem canTrain_of_view (h : view (others [.island, .sys, .units, .net]) t = view (others [.island, .sys, .units, .net]) s) {n : Nat}
    (he : (getSlip t n).enable = (getSlip s n).enable) (hd : (getSlip t n).engineDead = (getSlip s n).engineDead)
    (hl : (getSlip t n).loopback = (getSlip s n).loopback) : canTrain t n = canTrain s n := by
  rw [canTrain, canTrain, mayRun_of_view h he hd, hl]

end

section
variable (s : State) (slip n : Nat)

/-- A slip whose bring-up starts again (R263). -/
theorem getSlip_restartBringup_same : ∃ x seeds, getSlip (restartBringup slip s) slip =
    { (getSlip s slip).startLanes (canTrain s slip) (mayRun s slip) (now s) seeds with tele := x } := by
  obtain ⟨x, hx⟩ := getSlip_measureSlip_same s slip
  have hv : view (others [.island, .sys, .units, .net]) (measureSlip slip s) = view (others [.island, .sys, .units, .net]) s :=
    view_measureSlip _ _ (by simp)
  have hrun : mayRun (measureSlip slip s) slip = mayRun s slip := mayRun_of_view hv (by rw [hx]) (by rw [hx])
  have htrain : canTrain (measureSlip slip s) slip = canTrain s slip := canTrain_of_view hv (by rw [hx]) (by rw [hx]) (by rw [hx])
  have hnow : now (measureSlip slip s) = now s :=
    congrArg TideUnit.count (tide_of_view (view_measureSlip _ _ (by simp)))
  unfold restartBringup
  simp only [getSlip_serdesFor]
  obtain ⟨y, hy⟩ := getSlip_modLane_same (fresh 26 (measureSlip slip s)).2 slip (fun p =>
    p.startLanes (canTrain (measureSlip slip s) slip) (mayRun (measureSlip slip s) slip) (now (measureSlip slip s))
      (fresh 26 (measureSlip slip s)).1)
  rw [hy, getSlip_fresh, hx, hrun, htrain, hnow]
  exact ⟨y, _, rfl⟩

/-- Two tables of link counters that agree but for what a change of state counts: packets (7), quarantines (12), losses of service (13). -/
def SameLinks (a b : Tab Counter) : Prop := ∀ k, k ≠ 7 → k ≠ 12 → k ≠ 13 → tabGet? a k = tabGet? b k

theorem SameLinks.refl (a : Tab Counter) : SameLinks a a := fun _ _ _ _ => rfl

theorem SameLinks.trans {a b c : Tab Counter} (h : SameLinks a b) (h' : SameLinks b c) : SameLinks a c :=
  fun k h7 h12 h13 => (h k h7 h12 h13).trans (h' k h7 h12 h13)

theorem sameLinks_tabPut (a : Tab Counter) {k : Nat} (v : Counter) (hk : k = 7 ∨ k = 12 ∨ k = 13) : SameLinks (tabPut a k v) a :=
  fun _ h7 h12 h13 => tabGet?_tabPut_ne _ _ (by omega)

/-- What is left of a slip as it leaves its state for a new one. -/
def Leaves (p : Slip) (new : SlipState) (q : Slip) : Prop :=
  ∃ c l r, SameLinks c p.linkCnt ∧ q = { p with state := new, linkCnt := c, ltx := l, lrx := r }

section
variable {s slip} {p : Slip} {new : SlipState}

theorem Leaves.of_ite {a b : State} (c : Prop) [Decidable c] (ha : Leaves p new (getSlip a slip)) (hb : Leaves p new (getSlip b slip)) :
    Leaves p new (getSlip (if c then a else b) slip) := by
  split
  · exact ha
  · exact hb

theorem Leaves.countLink (h : Leaves p new (getSlip s slip)) {k : Nat} (hk : k = 7 ∨ k = 12 ∨ k = 13) (m : Nat) :
    Leaves p new (getSlip (countLink slip k m s) slip) := by
  obtain ⟨c, l, r, hc, he⟩ := h
  rw [getSlip_countLink_same, he]
  exact ⟨_, l, r, (sameLinks_tabPut _ _ hk).trans hc, rfl⟩

theorem Leaves.failover (h : Leaves p new (getSlip s slip)) (hawser : Nat) : Leaves p new (getSlip (failover slip hawser s) slip) := by
  have hdrop (u : State) (hu : Leaves p new (getSlip u slip)) : Leaves p new (getSlip (modSlip slip (fun p =>
      { p with ltx := { p.ltx with held := [] }, lrx := { p.lrx with partialUnits := [] } }) u) slip) := by
    obtain ⟨c, l, r, hc, he⟩ := hu
    rw [getSlip_modSlip_same, he]
    exact ⟨c, _, _, hc, rfl⟩
  unfold Machine.failover
  dsimp only
  refine .of_ite _ (hdrop _ (.of_ite _ h (h.countLink (by decide) _))) ?_
  rw [getSlip_modHawser]
  exact hdrop _ (.of_ite _ h (h.countLink (by decide) _))

theorem Leaves.emptyHawser (h : Leaves p new (getSlip s slip)) (hawser : Nat) :
    Leaves p new (getSlip (emptyHawser slip hawser s) slip) := by
  unfold Machine.emptyHawser
  dsimp only
  split
  · exact h
  · exact Leaves.countLink (k := 7) (s := modHawser _ _ s) h (by decide) _

end

/-- What a change of a slip's state does before its new state is entered. -/
def leaveState (slip : Nat) (new : SlipState) (reason : Nat) (s : State) : State :=
  let old := (getSlip s slip).state
  let h := hawserOf s slip
  let s := modSlip slip (fun p => { p with state := new }) s
  let s := if old = .inService then failover slip h (dropTide slip (countLink slip 13 1 s)) else s
  let s := if old = new then s else slipEvent slip old new reason s
  let s := if old = .inService || old = .quarantine then { s with net := { s.net with serviceChanged := true } } else s
  if old = .inService && (slipsUp s h).isEmpty then emptyHawser slip h s else s

theorem changeSlip_eq (new : SlipState) (reason : Nat) : changeSlip slip new reason s =
    match new with
    | .down => restartBringup slip (modSlip slip (fun p => { p with ltx := LinkTx.reset, lrx := LinkRx.reset })
        (leaveState slip new reason s))
    | .identify =>
      modLane slip (fun p => { p with
        step := 10, power := 0, ltx := LinkTx.reset, lrx := LinkRx.reset,
        ex := { Exchange.reset with since := now (leaveState slip new reason s) } }) (leaveState slip new reason s)
    | .inService => openCredits slip { leaveState slip new reason s with
        net := { (leaveState slip new reason s).net with serviceChanged := true } }
    | .quarantine => countLink slip 12 1 { leaveState slip new reason s with
        net := { (leaveState slip new reason s).net with serviceChanged := true } } := by
  cases new <;> rfl

/-- A slip as it leaves its state. -/
theorem getSlip_leaveState_same (new : SlipState) (reason : Nat) :
    Leaves (getSlip s slip) new (getSlip (leaveState slip new reason s) slip) := by
  have hnew : Leaves (getSlip s slip) new (getSlip (modSlip slip (fun p => { p with state := new }) s) slip) := by
    rw [getSlip_modSlip_same]
    exact ⟨_, _, _, .refl _, rfl⟩
  have hfail := Leaves.of_ite ((getSlip s slip).state = .inService)
    (Leaves.failover (s := dropTide slip (countLink slip 13 1 (modSlip slip (fun p => { p with state := new }) s)))
      (hnew.countLink (by decide) 1) (hawserOf s slip)) hnew
  unfold leaveState
  dsimp only
  generalize (if (getSlip s slip).state = .inService then _ else _ : State) = u at hfail ⊢
  have hevent : Leaves (getSlip s slip) new (getSlip (if (getSlip s slip).state = new then u
      else slipEvent slip (getSlip s slip).state new reason u) slip) :=
    .of_ite _ hfail (by rw [getSlip_slipEvent]; exact hfail)
  generalize (if (getSlip s slip).state = new then _ else _ : State) = v at hevent ⊢
  have hserve : Leaves (getSlip s slip) new (getSlip (if ((getSlip s slip).state = .inService ||
      (getSlip s slip).state = .quarantine) = true then { v with net := { v.net with serviceChanged := true } } else v) slip) :=
    .of_ite _ hevent hevent
  generalize (if ((getSlip s slip).state = .inService || _) = true then _ else _ : State) = w at hserve ⊢
  exact .of_ite _ (hserve.emptyHawser _) hserve

theorem view_leaveState {ps : List Part} (new : SlipState) (reason : Nat)
    (hp : [.events, .eventSeq, .purser, .svcChanged, .lands, .slips, .hawsers, .outbox] ⊆ ps) :
    view ps (leaveState slip new reason s) = view ps s := by
  simp only [List.cons_subset, List.nil_subset, and_true] at hp
  unfold leaveState
  dsimp only
  have hnet (u : State) : view ps { u with net := { u.net with serviceChanged := true } } = view ps u :=
    view_with_net u (by simp [viewNet, hp])
  simp [hp, hnet]

/-- A slip that is DOWN: its bring-up starts again, its link from nothing (R263, R247). -/
theorem getSlip_changeSlip_down (reason : Nat) : ∃ c x seeds, SameLinks c (getSlip s slip).linkCnt ∧
    getSlip (changeSlip slip .down reason s) slip = { Slip.startLanes
      { getSlip s slip with state := .down, linkCnt := c, ltx := LinkTx.reset, lrx := LinkRx.reset }
      (canTrain s slip) (mayRun s slip) (now s) seeds with tele := x } := by
  obtain ⟨c, l, r, hc, he⟩ := getSlip_leaveState_same s slip .down reason
  generalize hu : modSlip slip (fun p => { p with ltx := LinkTx.reset, lrx := LinkRx.reset }) (leaveState slip .down reason s) = u
  have hget : getSlip u slip =
      { getSlip s slip with state := .down, linkCnt := c, ltx := LinkTx.reset, lrx := LinkRx.reset } := by
    rw [← hu, getSlip_modSlip_same, he]
  have hview {ps : List Part} (hp : [.events, .eventSeq, .purser, .svcChanged, .lands, .slips, .hawsers, .outbox] ⊆ ps) :
      view ps u = view ps s := by
    rw [← hu, view_modSlip _ _ _ (fun _ h => hp (by simp_all)), view_leaveState _ _ _ _ hp]
  have hv : view (others [.island, .sys, .units, .net]) u = view (others [.island, .sys, .units, .net]) s := hview (by simp)
  have hnow : now u = now s := congrArg TideUnit.count (tide_of_view (hview (by simp)))
  obtain ⟨x, seeds, hx⟩ := getSlip_restartBringup_same u slip
  refine ⟨c, x, seeds, hc, ?_⟩
  rw [changeSlip_eq]
  dsimp only
  rw [hu, hx, hget, hnow, mayRun_of_view hv (by rw [hget]) (by rw [hget]), canTrain_of_view hv (by rw [hget]) (by rw [hget]) (by rw [hget])]

/-- A slip that enters IDENTIFY: its link from nothing, no IDENT held (R246). -/
theorem getSlip_changeSlip_identify (reason : Nat) : ∃ c x, SameLinks c (getSlip s slip).linkCnt ∧
    getSlip (changeSlip slip .identify reason s) slip = { getSlip s slip with
      state := .identify, linkCnt := c, step := 10, power := 0, ltx := LinkTx.reset, lrx := LinkRx.reset,
      ex := { Exchange.reset with since := now s }, tele := x } := by
  obtain ⟨c, l, r, hc, he⟩ := getSlip_leaveState_same s slip .identify reason
  have hnow : now (leaveState slip .identify reason s) = now s :=
    congrArg TideUnit.count (tide_of_view (view_leaveState _ _ _ _ (by simp)))
  rw [changeSlip_eq]
  dsimp only
  obtain ⟨x, hx⟩ := getSlip_modLane_same (leaveState slip .identify reason s) slip (fun p => { p with
    step := 10, power := 0, ltx := LinkTx.reset, lrx := LinkRx.reset,
    ex := { Exchange.reset with since := now (leaveState slip .identify reason s) } })
  exact ⟨c, x, hc, by rw [hx, he, hnow]⟩

/-- A slip that is refused: it counts its quarantine (R247). -/
theorem getSlip_changeSlip_quarantine (reason : Nat) :
    Leaves (getSlip s slip) .quarantine (getSlip (changeSlip slip .quarantine reason s) slip) := by
  rw [changeSlip_eq]
  exact Leaves.countLink (k := 12) (s := { leaveState slip .quarantine reason s with
    net := { (leaveState slip .quarantine reason s).net with serviceChanged := true } })
    (getSlip_leaveState_same s slip .quarantine reason) (by decide) 1

/-- A slip that enters service: its credits anew (R247). -/
theorem getSlip_changeSlip_inService (reason : Nat) :
    Leaves (getSlip s slip) .inService (getSlip (changeSlip slip .inService reason s) slip) := by
  have hset (f : Slip → Slip) (hf : ∀ p, ∃ l r, f p = { p with ltx := l, lrx := r }) (u : State)
      (hu : Leaves (getSlip s slip) .inService (getSlip u slip)) :
      Leaves (getSlip s slip) .inService (getSlip (modSlip slip f u) slip) := by
    obtain ⟨c, l, r, hc, he⟩ := hu
    obtain ⟨l', r', hf⟩ := hf (getSlip u slip)
    rw [getSlip_modSlip_same, hf, he]
    exact ⟨c, l', r', hc, rfl⟩
  have hfold (cs : List Nat) (u : State) (hu : Leaves (getSlip s slip) .inService (getSlip u slip)) :
      Leaves (getSlip s slip) .inService (getSlip (cs.foldl (fun s c => modSlip slip (fun p =>
        { p with lrx := { p.lrx with limit := tabPut p.lrx.limit c (creditLimit s slip c) } }) s) u) slip) := by
    induction cs generalizing u with
    | nil => exact hu
    | cons c cs ih => exact ih _ (hset _ (fun p => ⟨_, _, rfl⟩) u hu)
  rw [changeSlip_eq]
  exact hfold _ _ (hset _ (fun p => ⟨_, _, rfl⟩) _ (getSlip_leaveState_same s slip .inService reason))

theorem getSlip_moveSlip (new : SlipState) (reason : Nat) :
    getSlip (moveSlip slip new reason s) n = getSlip (changeSlip slip new reason s) n := getSlip_raiseAll _ _ _

end

/-! ### The other slips -/

section
variable (s : State) {slip n : Nat} (h : n ≠ slip)
include h

@[simp] theorem getSlip_modSlip_ne (f : Slip → Slip) : getSlip (modSlip slip f s) n = getSlip s n := tabGet_tabPut_ne _ _ _ h

@[simp] theorem getSlip_countLink_ne (k m : Nat) : getSlip (countLink slip k m s) n = getSlip s n := by
  unfold countLink
  dsimp only
  split <;> simp [h]

@[simp] theorem getSlip_countLane_ne (k m : Nat) : getSlip (countLane slip k m s) n = getSlip s n := by
  unfold countLane
  dsimp only
  split <;> simp [h]

@[simp] theorem getSlip_measureSlip_ne : getSlip (measureSlip slip s) n = getSlip s n := by
  unfold measureSlip
  dsimp only
  split <;> simp [h]

@[simp] theorem getSlip_modLane_ne (f : Slip → Slip) : getSlip (modLane slip f s) n = getSlip s n := getSlip_modSlip_ne s h _

@[simp] theorem getSlip_restartBringup_ne : getSlip (restartBringup slip s) n = getSlip s n := by simp [restartBringup, h]

@[simp] theorem getSlip_failover_ne (k : Nat) : getSlip (failover slip k s) n = getSlip s n := by
  unfold failover
  dsimp only
  split <;> split <;> simp [h]

@[simp] theorem getSlip_emptyHawser_ne (k : Nat) : getSlip (emptyHawser slip k s) n = getSlip s n := by
  unfold emptyHawser
  dsimp only
  split <;> simp [h]

@[simp] theorem getSlip_refreshCredits_ne : getSlip (refreshCredits slip s) n = getSlip s n := by
  unfold refreshCredits
  generalize List.range 8 = cs
  induction cs generalizing s with
  | nil => rfl
  | cons c cs ih => exact (ih _).trans (getSlip_modSlip_ne s h _)

@[simp] theorem getSlip_openCredits_ne : getSlip (openCredits slip s) n = getSlip s n := by simp [openCredits, h]

@[simp] theorem getSlip_leaveState_ne (new : SlipState) (reason : Nat) : getSlip (leaveState slip new reason s) n = getSlip s n := by
  have hnet (c : Prop) [Decidable c] (u : State) : getSlip (if c then { u with net := { u.net with serviceChanged := true } } else u) n =
      getSlip u n := by
    split <;> rfl
  have hite (c : Prop) [Decidable c] {a b : State} (ha : getSlip a n = getSlip s n) (hb : getSlip b n = getSlip s n) :
      getSlip (if c then a else b) n = getSlip s n := by
    split
    · exact ha
    · exact hb
  unfold leaveState
  dsimp only
  refine hite _ ?_ ?_
  · rw [getSlip_emptyHawser_ne _ h, hnet]
    exact hite _ (hite _ (by simp [h]) (by simp [h])) (by rw [getSlip_slipEvent]; exact hite _ (by simp [h]) (by simp [h]))
  · rw [hnet]
    exact hite _ (hite _ (by simp [h]) (by simp [h])) (by rw [getSlip_slipEvent]; exact hite _ (by simp [h]) (by simp [h]))

@[simp] theorem getSlip_changeSlip_ne (new : SlipState) (reason : Nat) : getSlip (changeSlip slip new reason s) n = getSlip s n := by
  have hnet (u : State) : getSlip { u with net := { u.net with serviceChanged := true } } n = getSlip u n := rfl
  rw [changeSlip_eq]
  cases new <;> simp [h, hnet]

@[simp] theorem getSlip_moveSlip_ne (new : SlipState) (reason : Nat) : getSlip (moveSlip slip new reason s) n = getSlip s n := by
  rw [getSlip_moveSlip, getSlip_changeSlip_ne s h]

@[simp] theorem getSlip_setPowerReq_ne (k : Nat) : getSlip (setPowerReq slip k s) n = getSlip s n := getSlip_modSlip_ne s h _

@[simp] theorem getSlip_wakeSlip_ne : getSlip (wakeSlip slip s) n = getSlip s n := by
  unfold wakeSlip
  dsimp only
  split
  · simp [h]
  · split <;> simp [h]

end

/-! ### A slip that is woken -/

section
variable (s : State) (slip : Nat)

/-- What a wake leaves of a slip: only its clocks and its transmitter's state are new (R279). -/
theorem getSlip_wakeSlip_same : ∃ w v x, getSlip (wakeSlip slip s) slip =
    { getSlip s slip with lastWork := now s, waking := w, wakeStart := v, tx := x } := by
  unfold wakeSlip
  dsimp only
  split
  · rw [setPowerReq, getSlip_modSlip_same, getSlip_modSlip_same]
    exact ⟨_, _, _, rfl⟩
  · split
    all_goals simp only [setPowerReq, getSlip_modSlip_same, getSlip_emit]
    all_goals exact ⟨_, _, _, rfl⟩

end

end Sys2Proof.Proofs

/-!
The Switch, hawser, neighbour and lane commands.
-/
namespace Sys2Proof.Proofs
open Sys2Proof Sys2Proof.Machine Sys2Proof.Laws

/-! ### The Switch commands -/

theorem done_serviceSet {x : Exec} {s : State} (h : Accepts x (rowServiceSet x) s) : Done (.serviceSet x) x 0 0 []
    (modSlip (param x 0 2) (fun p => { p with
      quantum := (List.range 6).map (fun i => (i + 2, if param x (4 + 2 * i) 2 = 0 then 130 else param x (4 + 2 * i) 2)) }) s) s := by
  have hd := (done_of_runCmd h _ (.serviceSet x) rfl (fun _ => rfl) (fun _ _ => rfl) (fun _ _ => rfl) (fun _ _ => rfl) :)
  simpa only [Effect.ok, List.map_map, Function.comp_def] using hd

theorem done_switchSet {x : Exec} {s : State} (h : Accepts x (rowSwitchSet x) s) : Done (.switchSet x) x 0 0 [] { s with
    deferred := s.deferred ++ [.switch
      { residue := if field (desc x) 0 4 = 0 then 1000 else field (desc x) 0 4
        cong := (List.range 7).map (fun i =>
          (i + 1, if field (desc x) (8 + 4 * i) 4 = 0 then 8192 else field (desc x) (8 + 4 * i) 4)) }] } s := by
  have hd := (done_of_runCmd h _ (.switchSet x) rfl (fun _ => rfl) (fun _ _ => rfl) (fun _ _ => rfl) (fun _ _ => rfl) :)
  simpa only [Effect.ok, defer, List.map_map, Function.comp_def] using hd

theorem done_tideTableSet {x : Exec} {s : State} (h : Accepts x (rowTideTableSet x) s) : Done (.tideTableSet x) x 0 0 []
    (modSlip (param x 0 2) (fun p => { p with
      pendTable := some { base := BitVec.ofNat 64 (param x 8 8), entries := (List.range (param x 2 1)).map (fun i =>
        (BitVec.ofNat 8 (field (desc x) (8 * i) 4), field (desc x) (8 * i + 4) 4)) } }) s) s := by
  have hd := (done_of_runCmd h _ (.tideTableSet x) rfl (fun _ => rfl) (fun _ _ => rfl) (fun _ _ => rfl) (fun _ _ => rfl) :)
  simpa only [Effect.ok, List.map_map, Function.comp_def] using hd

/-- Settles O23. -/
theorem switchCommands : Obligations.switch_commands := by
  exact fun x s => ⟨
    fun h => (done_of_runCmd h _ (.bufferSet x) rfl (fun _ => rfl) (fun _ _ => rfl) (fun _ _ => rfl) (fun _ _ => rfl) :),
    done_serviceSet,
    fun h => (done_of_runCmd h _ (.tollSet x) rfl (fun _ => rfl) (fun _ _ => rfl) (fun _ _ => rfl) (fun _ _ => rfl) :),
    done_switchSet, done_tideTableSet⟩

/-! ### The hawser and neighbour commands -/

/-- Where no slip holds an IDENT, nothing is judged again. -/
theorem recheckNeighbours_of_none {s : State} (h : ∀ n, (getSlip s n).ex.held = none) : recheckNeighbours s = s := by
  have hslip (n : Nat) : recheckSlip { state := s, faults := [], accepted := [] } n = { state := s, faults := [], accepted := [] } := by
    unfold recheckSlip
    simp only [h n]
    cases (getSlip s n).state <;> rfl
  have hall (l : List Nat) :
      l.foldl recheckSlip { state := s, faults := [], accepted := [] } = { state := s, faults := [], accepted := [] } := by
    induction l with
    | nil => rfl
    | cons n l ih => rw [List.foldl_cons, hslip, ih]
  have hstop (l : Tab Rctx) : ∀ u, (l.foldl (fun s r =>
      let replay := ((tabGet? s.jobs r.2.d.job).map (fun j => j.replay)).getD false
      match ([] : List Ident).find? (fun m => m.role == 0 && m.fabricAddr != 0xFFFF && (rctxPeers r.2.d).contains m.fabricAddr &&
          (m.arev != 1 || (replay && m.fwMeasurement != s.sys.fwMeasurement))) with
      | some m => stopUnnamed r.1 m.fabricAddr 3 s
      | none => s) u) = u := by
    induction l with
    | nil => exact fun _ => rfl
    | cons r l ih => exact fun u => ih u
  rw [recheckNeighbours, hall]
  exact hstop s.rctxs s

theorem length_flatten_const {α : Type} (l : List α) (f : α → List Byte) (n : Nat) (h : ∀ a, (f a).length = n) :
    (l.map f).flatten.length = n * l.length := by
  simp [List.length_flatten, Function.comp_def, h, Nat.mul_comm]

/-- A command that ends in a recheck, where no slip holds an IDENT. -/
theorem quiet_complete_recheck {s v : State} (h : ∀ n, (getSlip s n).ex.held = none) (hv : v.slips = s.slips) (r : Running)
    (status r0 r1 : Nat) (data : List Byte) :
    (settle (complete r status r0 r1 data (recheckNeighbours v))).quiet = v.quiet := by
  rw [quiet_settle, quiet_complete, recheckNeighbours_of_none (fun n => (getSlip_of_slips hv n).symm ▸ h n)]

/-- Settles O24. -/
theorem hawserCommands : Obligations.hawser_commands := by
  have hslips {s u : State} (hu : Admitted s u) : u.slips = s.slips := hu.of_host State.slips (fun _ _ _ => rfl)
  refine fun x s => ⟨fun h => ?_, fun h => ?_, fun h => ?_, fun h => ?_⟩
  · obtain ⟨u, r, hu, hx, hr, he⟩ := exec_of_accepts h _ (.hawserSet x) rfl
    dsimp only [Effect.ok] at he
    refine ⟨_, he, replied_complete hx hr _ _ _ _ _, fun hh => (quiet_complete_recheck hh ?_ _ _ _ _ _).trans ?_⟩
    · exact (hslips hu :)
    · rcases hu with ⟨l, rfl⟩ | ⟨l, rfl⟩ <;> rfl
  · obtain ⟨u, r, hu, hx, hr, he⟩ := exec_of_accepts h _ (.hawserClear x) rfl
    dsimp only [Effect.ok] at he
    refine ⟨_, he, replied_complete hx hr _ _ _ _ _, fun hh => (quiet_complete_recheck hh ?_ _ _ _ _ _).trans ?_⟩
    · exact (hslips hu :)
    · rcases hu with ⟨l, rfl⟩ | ⟨l, rfl⟩ <;> rfl
  · obtain ⟨u, r, hu, hx, hr, he⟩ := exec_of_accepts h _ (.neighbourMapSet x) rfl
    dsimp only [Effect.ok] at he
    refine ⟨_, he, replied_complete hx hr _ _ _ _ _, fun hh => (quiet_complete_recheck hh ?_ _ _ _ _ _).trans ?_⟩
    · exact (hslips hu :)
    · rcases hu with ⟨l, rfl⟩ | ⟨l, rfl⟩ <;> rfl
  · refine ⟨_, ?_, (done_of_runCmd h _ (.neighbourQuery x) rfl (fun _ => rfl) (fun _ _ => rfl) (fun _ _ => rfl) (fun _ _ => rfl) :)⟩
    exact (length_flatten_const _ _ 144 (fun i => by simp)).trans (by simp)

/-! ### The lane commands and counter reads -/

/-- Admission leaves every view alone that leaves out the host's queues and the free values drawn. -/
theorem Admitted.view {s u : State} (h : Admitted s u) {ps : List Part} (hp : [.qps, .running, .freeCount] ⊆ ps) :
    view ps u = view ps s := by
  simp only [List.cons_subset, List.nil_subset, and_true] at hp
  rcases h with ⟨l, rfl⟩ | ⟨l, rfl⟩ <;> simp [Proofs.view, viewHost, hp]

theorem getSlip_of_admitted {s u : State} (h : Admitted s u) (n : Nat) : getSlip u n = getSlip s n :=
  getSlip_of_slips (h.of_host State.slips (fun _ _ _ => rfl)) n

theorem exists_laneConfig {x : Exec} {s : State} (h : Accepts x (rowLaneConfig x) s) :
    ∃ t, exec (.laneConfig x) s = .next t ∧ Replied x stOk 0 0 t ∧
      (getSlip t (param x 0 2)).enable = bit (param x 2 1) 0 ∧ (getSlip t (param x 0 2)).precodeMode = param x 3 1 ∧
      (bit (param x 2 1) 0 = false → (getSlip s (param x 0 2)).enable = true → (getSlip t (param x 0 2)).state = .down) := by
  obtain ⟨u, r, hu, hx, hr, he⟩ := exec_of_accepts h _ (.laneConfig x) rfl
  dsimp only [Effect.ok] at he
  refine ⟨_, he, replied_complete hx hr _ _ _ _ _, ?_⟩
  rw [getSlip_settle, getSlip_complete, getSlip_of_admitted hu]
  generalize hv : modSlip (param x 0 2) (fun p => { p with enable := bit (param x 2 1) 0, precodeMode := param x 3 1 })
    (wakeSlip (param x 0 2) u) = v
  have hset : (getSlip v (param x 0 2)).enable = bit (param x 2 1) 0 ∧ (getSlip v (param x 0 2)).precodeMode = param x 3 1 := by
    rw [← hv, getSlip_modSlip_same]
    exact ⟨rfl, rfl⟩
  split
  case isTrue hsame => exact ⟨hset.1, hset.2, fun h0 h1 => by simp [h0, h1] at hsame⟩
  case isFalse =>
    split
    case isTrue hon =>
      obtain ⟨y, seeds, hy⟩ := getSlip_restartBringup_same v (param x 0 2)
      rw [hy]
      exact ⟨hset.1, hset.2, fun h0 => by simp [h0] at hon⟩
    case isFalse =>
      obtain ⟨c, y, seeds, _, hy⟩ := getSlip_changeSlip_down v (param x 0 2) 4
      rw [getSlip_moveSlip, hy]
      exact ⟨hset.1, hset.2, fun _ _ => rfl⟩

theorem exists_laneLoopback_set {x : Exec} {s : State} (h : Accepts x (rowLaneLoopback x) s) (hm : param x 2 1 ≠ 0) :
    ∃ t, exec (.laneLoopback x) s = .next t ∧ Replied x stOk 0 0 t ∧ (getSlip t (param x 0 2)).loopback = param x 2 1 ∧
      (getSlip t (param x 0 2)).pattern = param x 3 1 ∧ (getSlip t (param x 0 2)).state = .down := by
  obtain ⟨u, r, hu, hx, hr, he⟩ := exec_of_accepts h _ (.laneLoopback x) rfl
  dsimp only [Effect.ok] at he
  rw [if_neg hm] at he
  refine ⟨_, he, replied_complete hx hr _ _ _ _ _, ?_⟩
  rw [getSlip_settle, getSlip_complete, getSlip_moveSlip]
  obtain ⟨c, y, seeds, _, hy⟩ := getSlip_changeSlip_down (modSlip (param x 0 2) (fun p =>
    { p with loopback := param x 2 1, pattern := param x 3 1, pattern0 := BitVec.allOnes 31, pattern1 := BitVec.allOnes 31,
             laneCnt := if (param x 2 1 == 1 || param x 2 1 == 2 || param x 2 1 == 4) = true then
               p.laneCnt.map (fun c => if c.1 = 24 || c.1 = 25 then (c.1, { c.2 with value := 0 }) else c) else p.laneCnt })
    (wakeSlip (param x 0 2) u)) (param x 0 2) 5
  rw [hy, getSlip_modSlip_same]
  exact ⟨rfl, rfl, rfl⟩

theorem exists_laneLoopback_clear {x : Exec} {s : State} (h : Accepts x (rowLaneLoopback x) s) (hm : param x 2 1 = 0) :
    ∃ t, exec (.laneLoopback x) s = .next t ∧ Replied x stOk 0 0 t ∧ (getSlip t (param x 0 2)).loopback = 0 ∧
      (getSlip t (param x 0 2)).state = (getSlip s (param x 0 2)).state := by
  obtain ⟨u, r, hu, hx, hr, he⟩ := exec_of_accepts h _ (.laneLoopback x) rfl
  dsimp only [Effect.ok] at he
  rw [if_pos hm] at he
  refine ⟨_, he, replied_complete hx hr _ _ _ _ _, ?_⟩
  obtain ⟨w, v, y, hy⟩ := getSlip_wakeSlip_same u (param x 0 2)
  rw [getSlip_settle, getSlip_complete]
  split
  case isTrue hwas =>
    rw [hy, ← getSlip_of_admitted hu]
    exact ⟨hwas, rfl⟩
  case isFalse =>
    obtain ⟨z, seeds, hz⟩ := getSlip_restartBringup_same (modSlip (param x 0 2) (fun p => { p with loopback := 0 })
      (wakeSlip (param x 0 2) u)) (param x 0 2)
    rw [hz, getSlip_modSlip_same, hy, ← getSlip_of_admitted hu]
    exact ⟨rfl, rfl⟩

/-- A run of changes to slips, from two states with the same slips. -/
theorem slips_foldl_modSlip (f : Slip → Slip) (l : List Nat) {s u : State} (h : u.slips = s.slips) :
    (l.foldl (fun s n => modSlip n f s) u).slips = (l.foldl (fun s n => modSlip n f s) s).slips := by
  induction l generalizing s u with
  | nil => exact h
  | cons n l ih => exact ih (congrArg (fun x => tabPut x n (f (tabGet x n Slip.reset))) h)

/-- A counter read that is accepted answers what it read, and clears it where it is asked to. -/
theorem done_of_counters {x : Exec} {s : State} {row : State → Row} (h : Accepts x row s) (read : Slip → List Byte) (clear : Slip → Slip)
    (c : Instr) (hc : exec c s = runCmd x s row (fun s =>
      { Effect.ok (if bit (param x 0 1) 0 then (slipList x).foldl (fun s n => modSlip n clear s) s else s) with
        data := ((slipList x).map (fun n => read (getSlip s n))).flatten })) :
    Done c x 0 0 ((slipList x).map (fun n => read (getSlip s n))).flatten
      (if bit (param x 0 1) 0 = true then (slipList x).foldl (fun s n => modSlip n clear s) s else s) s := by
  have hfold (l : List Nat) (v : State) {ps : List Part} (hp : [.slips] ⊆ ps) :
      view ps (l.foldl (fun s n => modSlip n clear s) v) = view ps v := view_foldl _ (fun v n => view_modSlip n clear v hp) l v
  refine done_of_effect h _ c hc (fun u hu => ⟨rfl, rfl, ?_, ?_, ?_⟩)
  · simp only [getSlip_of_admitted hu]
  · have hout : u.outbox = s.outbox := hu.of_host State.outbox (fun _ _ _ => rfl)
    dsimp only [Effect.ok]
    split
    · exact (outbox_of_view (hfold _ u (by simp))).trans hout
    · exact hout
  · have hq : u.quiet = s.quiet := quiet_of_view (hu.view (by simp [loud]))
    have hs : u.slips = s.slips := hu.of_host State.slips (fun _ _ _ => rfl)
    dsimp only [Effect.ok]
    split
    · rw [quiet_slips_of_view (hfold _ u (by simp)), quiet_slips_of_view (hfold _ s (by simp)), slips_foldl_modSlip _ _ hs]
      rcases hu with ⟨l, rfl⟩ | ⟨l, rfl⟩ <;> rfl
    · exact hq

/-- What a measurement leaves of a slip. -/
theorem getSlip_measureSlip_fields (s : State) (n k : Nat) :
    (getSlip (measureSlip n s) k).state = (getSlip s k).state ∧ (getSlip (measureSlip n s) k).step = (getSlip s k).step := by
  by_cases h : k = n
  · subst h
    obtain ⟨x, hx⟩ := getSlip_measureSlip_same s k
    simp [hx]
  · simp [h]

theorem getEngine_modEngine_same (s : State) (k : Nat) (f : Engine → Engine) : getEngine (modEngine k f s) k = f (getEngine s k) :=
  tabGet_tabPut_same _ _ _ _

theorem getEngine_modEngine_ne (s : State) {k j : Nat} (f : Engine → Engine) (h : j ≠ k) :
    getEngine (modEngine k f s) j = getEngine s j := tabGet_tabPut_ne _ _ _ h

/-- What a measurement leaves of an engine. -/
theorem getEngine_measureEngine_fields (s : State) (n k : Nat) :
    (getEngine (measureEngine n s) k).state = (getEngine s k).state ∧
      (getEngine (measureEngine n s) k).alarms = (getEngine s k).alarms := by
  unfold measureEngine
  split
  · exact ⟨rfl, rfl⟩
  · by_cases h : k = n
    · subst h
      simp only [getEngine_modEngine_same]
      exact ⟨rfl, rfl⟩
    · simp only [getEngine_modEngine_ne _ _ h]
      exact ⟨rfl, rfl⟩

/-- A property of a slip, or an engine, that each of a run of measurements keeps. -/
theorem foldl_keeps {α β : Type} (f : State → α → State) (g : State → β) (h : ∀ s a, g (f s a) = g s) (l : List α) (s : State) :
    g (l.foldl f s) = g s := by
  induction l generalizing s with
  | nil => rfl
  | cons a l ih => exact (ih _).trans (h s a)

/-- What a completion leaves of a view that leaves out what it changes. -/
theorem view_settle_complete {ps : List Part} (r : Running) (status r0 r1 : Nat) (data : List Byte) (s : State) (hp : loud ⊆ ps) :
    view ps (settle (complete r status r0 r1 data s)) = view ps s := by
  simp only [loud, List.cons_subset, List.nil_subset, and_true] at hp
  simp [hp]

theorem loud_subset_cons (p : Part) : loud ⊆ p :: loud := List.subset_cons_self _ _

theorem exists_laneStatusRead {x : Exec} {s : State} (h : Accepts x (rowLaneStatusRead x) s) :
    ∃ t data, exec (.laneStatusRead x) s = .next t ∧ data.length = 64 * param x 2 2 ∧ Answered x stOk 0 0 data s t ∧
      t.quiet = { s with slips := t.slips }.quiet ∧
      (∀ n, (getSlip t n).state = (getSlip s n).state ∧ (getSlip t n).step = (getSlip s n).step) := by
  obtain ⟨w, hw, hown⟩ := own_of_accepts h
  obtain ⟨u, r, hu, hx, hr, he⟩ := exec_of_accepts h _ (.laneStatusRead x) rfl
  dsimp only [Effect.ok] at he
  have hn : param x 2 2 ≤ 384 := by
    have := hown (param x 2 2 == 0 || 384 < param x 2 2) stRange (List.subset_append_left _ _) (by decide)
    simp at this
    exact this.2
  have hv {ps : List Part} (hp : [.slips, .freeCount] ⊆ ps) : view ps ((slipList x).foldl (fun s n => measureSlip n s) u) = view ps u :=
    view_foldl _ (fun v n => view_measureSlip n v hp) _ _
  refine ⟨_, ((slipList x).map (laneStatus ((slipList x).foldl (fun s n => measureSlip n s) u))).flatten, he, ?_, ?_, ?_, fun n => ?_⟩
  · exact (length_flatten_const _ _ 64 (fun n => length_fit _ _)).trans (by simp [slipList, hn])
  · exact answered_complete hx hr _ _ _ _ ((outbox_of_view (hv (by simp))).trans (hu.of_host State.outbox (fun _ _ _ => rfl)))
  · refine quiet_slips_of_view ?_
    rw [view_settle_complete _ _ _ _ _ _ (loud_subset_cons _), hv (by simp [loud]), hu.view (by simp [loud])]
  · rw [getSlip_settle, getSlip_complete, ← getSlip_of_admitted hu]
    exact ⟨foldl_keeps _ (fun s => (getSlip s n).state) (fun s k => (getSlip_measureSlip_fields s k n).1) _ _,
      foldl_keeps _ (fun s => (getSlip s n).step) (fun s k => (getSlip_measureSlip_fields s k n).2) _ _⟩

theorem exists_opticsRead {x : Exec} {s : State} (h : Accepts x (rowOpticsRead x) s) :
    ∃ t data, exec (.opticsRead x) s = .next t ∧ data.length = 160 * param x 1 1 ∧ Answered x stOk 0 0 data s t ∧
      t.quiet = { s with optics := t.optics }.quiet ∧
      (∀ k, (getEngine t k).state = (getEngine s k).state ∧ (getEngine t k).alarms = (getEngine s k).alarms) := by
  obtain ⟨u, r, hu, hx, hr, he⟩ := exec_of_accepts h _ (.opticsRead x) rfl
  dsimp only [Effect.ok] at he
  have hv {ps : List Part} (hp : [.optics, .freeCount] ⊆ ps) :
      view ps ((List.range (param x 1 1)).foldl (fun s i => measureEngine (param x 0 1 + i) s) u) = view ps u :=
    view_foldl _ (fun v n => view_measureEngine _ v hp) _ _
  have hoptics : u.optics = s.optics := hu.of_host State.optics (fun _ _ _ => rfl)
  generalize hm : (List.range (param x 1 1)).foldl (fun s i => measureEngine (param x 0 1 + i) s) u = m at he hv
  have hkeep (k : Nat) : (getEngine m k).state = (getEngine s k).state ∧ (getEngine m k).alarms = (getEngine s k).alarms := by
    have hs : getEngine u k = getEngine s k := congrArg (fun o => tabGet o k Engine.reset) hoptics
    rw [← hm, ← hs]
    exact ⟨foldl_keeps _ (fun s => (getEngine s k).state) (fun s j => (getEngine_measureEngine_fields s _ k).1) _ _,
      foldl_keeps _ (fun s => (getEngine s k).alarms) (fun s j => (getEngine_measureEngine_fields s _ k).2) _ _⟩
  refine ⟨_, ((List.range (param x 1 1)).map (fun i => engineBytes m (param x 0 1 + i))).flatten, he, ?_, ?_, ?_, fun k => ?_⟩
  · exact (length_flatten_const _ _ 160 (fun n => length_fit _ _)).trans (by simp)
  · exact answered_complete hx hr _ _ _ _ ((outbox_of_view (hv (by simp))).trans (hu.of_host State.outbox (fun _ _ _ => rfl)))
  · refine quiet_optics_of_view ?_
    rw [view_settle_complete _ _ _ _ _ _ (loud_subset_cons _), hv (by simp [loud]), hu.view (by simp [loud])]
  · have ht : getEngine (settle (complete r stOk 0 0 ((List.range (param x 1 1)).map (fun i => engineBytes m (param x 0 1 + i))).flatten m)) k =
        getEngine m k := by simp [getEngine]
    rw [ht]
    exact hkeep k

/-- Settles O25. -/
theorem laneCommands : Obligations.lane_commands := by
  exact fun x s => ⟨exists_laneConfig, exists_laneLoopback_set, exists_laneLoopback_clear,
    fun h => done_of_counters h (fun p => fit 64 (counterWords p.linkCnt 14)) (fun p => { p with linkCnt := [] }) _ rfl,
    fun h => done_of_counters h (fun p => fit 112 (counterWords p.laneCnt 26)) (fun p => { p with laneCnt := [] }) _ rfl,
    exists_laneStatusRead, exists_opticsRead⟩

end Sys2Proof.Proofs

/-!
The Time and Security commands, the timing input and the SMBus target.
-/
namespace Sys2Proof.Proofs
open Sys2Proof Sys2Proof.Machine Sys2Proof.Laws

/-! ### Elections -/

theorem tide_raiseEvent (s : State) (code : Nat) (job : Option Nat) (params : List Byte) :
    (raiseEvent code job params s).tide = s.tide := tide_of_view (view_raiseEvent _ _ _ _ (by simp))

theorem tide_raiseFault (s : State) (cls cause unit detail level : Nat) :
    (raiseFault cls cause unit detail level s).tide = s.tide := tide_of_view (view_raiseFault _ _ _ _ _ _ (by simp))

/-- An election chooses the master and the parent, and whether the tide is locked; the rest of the tide unit stays (R140). -/
theorem tide_elect (s : State) : ∃ m p l i o, (elect s).tide =
    { s.tide with master := m, parent := p, locked := l, inWindow := i, outWindow := o } := by
  have hmaster (u : State) : ∃ m p l i o, (becomeMaster u).tide =
      { u.tide with master := m, parent := p, locked := l, inWindow := i, outWindow := o } := by
    unfold becomeMaster lockTide
    dsimp only
    split
    · exact ⟨_, _, _, _, _, rfl⟩
    · rw [tide_raiseEvent]
      exact ⟨_, _, _, _, _, rfl⟩
  have hunlock (u : State) : (unlockTide 2 u).tide = { u.tide with locked := false, inWindow := 0, outWindow := 0 } := by
    unfold unlockTide markUnlocked
    simp only [modTide, tide_raiseEvent]
  unfold elect
  split
  case isTrue => exact ⟨_, _, _, _, _, rfl⟩
  case isFalse =>
    dsimp only
    split
    · split
      · split
        · exact ⟨_, _, _, _, _, rfl⟩
        · exact hmaster s
      · split
        · rw [hunlock]
          exact ⟨_, _, _, _, _, rfl⟩
        · exact ⟨_, _, _, _, _, rfl⟩
    · split
      · split
        · exact ⟨_, _, _, _, _, rfl⟩
        · exact ⟨_, _, _, _, _, rfl⟩
      · split
        · exact ⟨_, _, _, _, _, rfl⟩
        · exact hmaster s

/-! ### The Time commands -/

theorem exists_tideConfig {x : Exec} {s : State} (h : Accepts x (rowTideConfig x) s) : ∃ t, exec (.tideConfig x) s = .next t ∧
    Replied x stOk 0 0 t ∧ t.tide.priority = param x 0 1 ∧ t.tide.refEnable = bit (param x 1 1) 0 ∧ t.tide.count = s.tide.count ∧
      t.jobs = s.jobs ∧ t.net = s.net ∧ t.hbm = s.hbm := by
  obtain ⟨u, r, hu, hx, hr, he⟩ := exec_of_accepts h _ (.tideConfig x) rfl
  dsimp only [Effect.ok] at he
  generalize hv : modTide (fun t => { t with
    priority := param x 0 1, refEnable := bit (param x 1 1) 0
    refRejected := bit (param x 1 1) 0 && t.refEnable && t.refRejected, refSeen := bit (param x 1 1) 0 && t.refEnable && t.refSeen
    goodEdges := if (bit (param x 1 1) 0 && t.refEnable) = true then t.goodEdges else 0 }) u = v at he
  obtain ⟨m, p, l, i, o, ht⟩ := tide_elect v
  have hset : v.tide.priority = param x 0 1 ∧ v.tide.refEnable = bit (param x 1 1) 0 ∧ v.tide.count = s.tide.count := by
    rw [← hv, ← hu.of_host State.tide (fun _ _ _ => rfl)]
    exact ⟨rfl, rfl, rfl⟩
  refine ⟨_, he, replied_complete hx hr _ _ _ _ _, ?_⟩
  simp only [settle_fields, complete_fields, ht, jobs_of_view (view_elect v (by simp)), net_of_view (view_elect v (by simp)),
    hbm_of_view (view_elect v (by simp))]
  subst hv
  exact ⟨hset.1, hset.2.1, hset.2.2, hu.of_host State.jobs (fun _ _ _ => rfl), hu.of_host State.net (fun _ _ _ => rfl),
    hu.of_host State.hbm (fun _ _ _ => rfl)⟩

theorem done_tideQuery {x : Exec} {s : State} (h : Accepts x (rowTideQuery x) s) : ∃ data, data.length = 64 ∧
    bytesAt data 0 8 = le 8 s.tide.count.toNat ∧ Done (.tideQuery x) x 0 0 data s s := by
  refine ⟨_, ?_, ?_, (done_of_runCmd h _ (.tideQuery x) rfl (fun _ => rfl) (fun _ _ => rfl) (fun _ _ => rfl) (fun _ _ => rfl) :)⟩
  · exact length_fit _ _
  · rw [bytesAt_fit (by decide) (by simp)]
    simp [bytesAt_append_left, bytesAt_all]

theorem done_launchAt {x : Exec} {s : State} (h : Accepts x (rowLaunchAt x) s) : Done (.launchAt x) x 0 0 []
    { s with jobs := tabMod s.jobs x.cmd.job (fun y =>
      if param x 8 8 = 0 then { y with launch := .unlaunched }
      else { y with launch := .pending, l := BitVec.ofNat 64 (param x 8 8) }) } s :=
  (done_of_runCmd h _ (.launchAt x) rfl (fun _ => rfl) (fun _ _ => rfl) (fun _ _ => rfl) (fun _ _ => rfl) :)

/-- Settles O30. -/
theorem timeCommands : Obligations.time_commands := by
  refine fun x s => ⟨exists_tideConfig, done_tideQuery, fun h hl => ?_, fun h hl => ?_,
    fun h => (done_of_runCmd h _ (.determinismSet x) rfl (fun _ => rfl) (fun _ _ => rfl) (fun _ _ => rfl) (fun _ _ => rfl) :),
    fun h => (done_of_runCmd h _ (.topologySet x) rfl (fun _ => rfl) (fun _ _ => rfl) (fun _ _ => rfl) (fun _ _ => rfl) :)⟩
  · simpa only [if_neg hl] using done_launchAt h
  · simpa only [if_pos hl] using done_launchAt h

/-! ### The Security commands -/

theorem exists_attest {x : Exec} {s : State} (h : Accepts x (rowAttest x) s) : ∃ t r, exec (.attest x) s = .next t ∧ r.x = x ∧
    t.audit = { s.audit with signQueue := s.audit.signQueue ++ [.quote r (quoteBody s x.cmd.params)] } ∧
    t.quiet = { s with audit := t.audit }.quiet ∧ t.outbox = s.outbox := by
  obtain ⟨u, r, hu, hx, hr, he⟩ := execLater_of_accepts h _ (.attest x) rfl
  refine ⟨_, r, he, hx, ?_⟩
  rcases hu with ⟨l, rfl⟩ | ⟨l, rfl⟩ <;> exact ⟨rfl, rfl, rfl⟩

theorem done_certRead {x : Exec} {s : State} (h : Accepts x (rowCertRead x) s) :
    let cert := if param x 0 1 = 0 then identityCert else s.sys.aliasCert
    Done (.certRead x) x cert.length 0
      ((cert.drop (param x 4 4)).take (if overService x = true then min x.cmd.resultLen 1368 else x.cmd.resultLen)) s s :=
  (done_of_runCmd h _ (.certRead x) rfl (fun _ => rfl) (fun _ _ => rfl) (fun _ _ => rfl) (fun _ _ => rfl) :)

theorem done_imageQuery {x : Exec} {s : State} (h : Accepts x (rowImageQuery x) s) : ∃ data, data.length = 128 ∧
    bytesAt data 0 1 = le 1 s.aon.boot.slot ∧ bytesAt data 1 1 = le 1 s.aon.nextSlot ∧ Done (.imageQuery x) x 0 0 data s s := by
  refine ⟨_, ?_, ?_, ?_, (done_of_runCmd h _ (.imageQuery x) rfl (fun _ => rfl) (fun _ _ => rfl) (fun _ _ => rfl) (fun _ _ => rfl) :)⟩
  · exact length_fit _ _
  all_goals
    rw [bytesAt_fit (by decide) (by simp only [List.length_append, length_le]; omega)]
    simp [bytesAt_append_left, bytesAt_append_right, bytesAt_all]

/-- Settles O33. -/
theorem securityCommands : Obligations.security_commands := by
  exact fun x s => ⟨exists_attest, done_certRead, done_imageQuery,
    fun h => (done_of_runCmd h _ (.activate x) rfl (fun _ => rfl) (fun _ _ => rfl) (fun _ _ => rfl) (fun _ _ => rfl) :)⟩

/-! ### The SMBus target -/

theorem exec_smbus {s : State} {n : Nat} {c : Instr} (hc : c ∈ [.smbusMonitorRead n, .smbusDevStatusRead, .smbusSerialRead,
    .smbusPowerRead, .smbusThrottleRead, .smbusNack n, .smbusTimeout]) : ∃ o, exec c s = smbusAnswer o s := by
  simp only [List.mem_cons, List.not_mem_nil, or_false] at hc
  rcases hc with rfl | rfl | rfl | rfl | rfl | rfl | rfl
  · exact ⟨fun s => if n < 112 then .smbusReply (monitorBytes s n) else .smbusNack, rfl⟩
  · exact ⟨fun s => .smbusReply (le 4 (devStatus (settle s))), rfl⟩
  · exact ⟨fun _ => .smbusReply (le 8 serial64), rfl⟩
  · exact ⟨fun s => .smbusReply (le 2 s.aon.inputPower ++ le 2 s.aon.inputCurrent), rfl⟩
  · exact ⟨fun s => .smbusReply (le 1 s.pwr.k ++ le 1 (b2n (s.pwr.k != 16) + 2 * b2n s.aon.tripped)), rfl⟩
  · exact ⟨fun _ => .smbusNack, rfl⟩
  · exact ⟨fun _ => .smbusRelease, rfl⟩

theorem smbusAnswer_of_railsOn {s : State} (h : s.aon.stage = .railsOn) (o : State → Output) :
    smbusAnswer o s = .next (settle (emit (o s) s)) := by
  simp only [smbusAnswer, h, finish]

theorem smbusAnswer_before_power {s : State} (h : s.aon.stage = .off ∨ s.aon.stage = .inputOn) (o : State → Output) :
    smbusAnswer o s = .next (settle s) := by
  rcases h with h | h <;> simp only [smbusAnswer, h, finish]

/-- Settles O37. -/
theorem smbusTarget : Obligations.smbus_target := by
  refine fun s n => ⟨fun h => ?_, fun h c hc => ?_⟩
  · have hk : b2n (s.pwr.k != 16) = if s.pwr.k = 16 then 0 else 1 := by by_cases hk : s.pwr.k = 16 <;> simp [hk, b2n]
    have ht : 2 * b2n s.aon.tripped = if s.aon.tripped = true then 2 else 0 := by cases s.aon.tripped <;> rfl
    rw [← hk, ← ht]
    have ha := smbusAnswer_of_railsOn h
    exact ⟨ha (fun s => if n < 112 then .smbusReply (monitorBytes s n) else .smbusNack),
      ha (fun s => .smbusReply (le 4 (devStatus (settle s)))), ha (fun _ => .smbusReply (le 8 serial64)),
      ha (fun s => .smbusReply (le 2 s.aon.inputPower ++ le 2 s.aon.inputCurrent)),
      ha (fun s => .smbusReply (le 1 s.pwr.k ++ le 1 (b2n (s.pwr.k != 16) + 2 * b2n s.aon.tripped))),
      ha (fun _ => .smbusNack), ha (fun _ => .smbusRelease)⟩
  · obtain ⟨o, ho⟩ := exec_smbus hc
    exact ho.trans (smbusAnswer_before_power h o)

/-! ### The timing input -/

theorem rejectRef_tide (s : State) (cause : Nat) : (rejectRef cause s).tide.refRejected = true ∧ (rejectRef cause s).tide.goodEdges = 0 ∧
    (rejectRef cause s).tide.count = s.tide.count ∧ (rejectRef cause s).jobs = s.jobs := by
  unfold rejectRef
  split
  case isTrue h => exact ⟨h, rfl, rfl, rfl⟩
  case isFalse =>
    obtain ⟨m, p, l, i, o, ht⟩ := tide_elect (raiseFault 9 0 0 cause 1 (modTide (fun t => { t with refRejected := true, goodEdges := 0 }) s))
    rw [ht, tide_raiseFault]
    refine ⟨rfl, rfl, rfl, ?_⟩
    rw [jobs_of_view (view_elect _ (by simp)), jobs_of_view (view_raiseFault _ _ _ _ _ _ (by simp))]
    rfl

/-- An edge with REF_ENABLE, its interval good or not (R144). -/
theorem ppsEdge_enabled {s : State} (h : s.tide.refEnable = true) (ns : Nat) (ok : Bool) :
    exec (.ppsEdge ns ok) s =
      let seen := modTide (fun t => { t with refSeen := true }) s
      if ok = false then .next (settle (rejectRef 0 seen))
      else if ¬ (s.tide.refSeen = false ∨ (999950000 ≤ ns ∧ ns ≤ 1000050000)) then .next (settle (rejectRef 1 seen))
      else if s.tide.refRejected = true then
        if 9 ≤ s.tide.goodEdges then .next (settle (elect (modTide (fun t => { t with refRejected := false, goodEdges := 0 }) seen)))
        else .next (settle (modTide (fun t => { t with goodEdges := s.tide.goodEdges + 1 }) seen))
      else .next (settle seen) := by
  have hten : (10 ≤ s.tide.goodEdges + 1) = (9 ≤ s.tide.goodEdges) := by simp
  cases ok <;> simp [exec, execPpsEdge, h, finish, modTide, hten, imp_iff_not_or]

/-- Settles O49. -/
theorem timingInput : Obligations.timing_input := by
  refine fun s ns ok => ⟨fun h => ?_, fun h hg hr => ?_, fun h hg hr h9 => ?_, fun h hg hr h9 => ?_, fun h => ?_⟩
  · have hrej (cause : Nat) (u : State) (hu : u.tide.count = s.tide.count ∧ u.jobs = s.jobs) :
        (settle (rejectRef cause u)).tide.refRejected = true ∧ (settle (rejectRef cause u)).tide.goodEdges = 0 ∧
        (settle (rejectRef cause u)).tide.count = s.tide.count ∧ (settle (rejectRef cause u)).jobs = s.jobs := by
      obtain ⟨h1, h2, h3, h4⟩ := rejectRef_tide u cause
      exact ⟨h1, h2, h3.trans hu.1, h4.trans hu.2⟩
    refine ⟨⟨_, if_pos h, hrej _ _ ⟨rfl, rfl⟩⟩, ⟨_, if_pos h, hrej _ _ ⟨rfl, rfl⟩⟩,
      ⟨_, (ppsEdge_enabled h ns false).trans (if_pos rfl), hrej _ _ ⟨rfl, rfl⟩⟩, fun hg =>
      ⟨_, (ppsEdge_enabled h ns true).trans ((if_neg (by decide)).trans (if_pos hg)), hrej _ _ ⟨rfl, rfl⟩⟩⟩
  · rw [ppsEdge_enabled h]
    simp [hg, hr, modTide]
  · rw [ppsEdge_enabled h]
    simp [hg, hr, modTide, Nat.not_le.mpr h9]
  · refine ⟨_, ((ppsEdge_enabled h ns true).trans ((if_neg (by decide)).trans ((if_neg (not_not.mpr hg)).trans
      ((if_pos hr).trans (if_pos h9))))), ?_⟩
    obtain ⟨m, p, l, i, o, ht⟩ := tide_elect (modTide (fun t => { t with refRejected := false, goodEdges := 0 })
      (modTide (fun t => { t with refSeen := true }) s))
    simp only [settle_fields, ht, flt_of_view (view_elect _ (by simp))]
    exact ⟨rfl, rfl, rfl, rfl⟩
  · exact ⟨if_pos (by simp [h]), if_neg (by simp [h]), if_neg (by simp [h])⟩

end Sys2Proof.Proofs

/-!
The Fault, Purser and Audit commands.
-/
namespace Sys2Proof.Proofs
open Sys2Proof Sys2Proof.Machine Sys2Proof.Laws

/-! ### A FAULT_INJECT whose descriptor could not be read, with a full event queue -/

section
variable (s : State)

theorem flt_raiseEvent_eq (code : Nat) (job : Option Nat) (params : List Byte) : (raiseEvent code job params s).flt = s.flt :=
  flt_of_view (view_raiseEvent _ _ _ _ (by simp))

/-- A fault leaves a record: one is added, or one of the same cause is raised again. -/
theorem records_raiseFault_ne_nil (h : s.flt.merge = false) (cls cause unit detail level : Nat) :
    (raiseFault cls cause unit detail level s).flt.records ≠ [] := by
  have hkeep (r : FaultRecord) (u : State) : (keepFatal r u).flt = u.flt := flt_of_view (view_keepFatal _ _ (by simp))
  have hput (r r' : FaultRecord) (hr : r ∈ s.flt.records) : (putRecord r' s).flt.records ≠ [] := by
    simpa [putRecord] using List.ne_nil_of_mem hr
  have hadd (r : FaultRecord) : (addRecord r s).flt.records ≠ [] := by
    unfold addRecord raiseFaultEvent
    dsimp only
    split
    · rw [flt_raiseEvent_eq, hkeep]
      simp
    case isFalse hfull =>
      rw [flt_raiseEvent_eq, flt_of_view (view_countPurser _ _ _ (by simp)), hkeep]
      intro hnil
      simp [hnil] at hfull
  have hagain (r r' : FaultRecord) (hr : r ∈ s.flt.records) (lv : Nat) (c d : Prop) [Decidable c] [Decidable d] :
      (if c then noteFault cls lv (putRecord r' s) else raiseFaultEvent r' (if d then noteFault cls lv (putRecord r' s)
        else keepFatal r' (noteFault cls lv (putRecord r' s)))).flt.records ≠ [] := by
    split
    · exact hput r _ hr
    · rw [raiseFaultEvent, flt_raiseEvent_eq]
      split
      · exact hput r _ hr
      · rw [hkeep]
        exact hput r _ hr
  unfold raiseFault
  simp only [h, Bool.false_eq_true, if_false]
  split
  case h_1 r hr => exact hagain r _ (List.mem_of_find?_eq_some hr) _ _ _
  case h_2 => exact hadd _

theorem merge_writeEvent : (writeEvent s).flt.merge = s.flt.merge := merge_of_view (view_writeEvent _ (by simp))

/-- What is written of an event before EVENTS_LOST is placed leaves the records. -/
theorem flt_settleEvents : (settleEvents s).flt = s.flt := flt_of_view (view_settleEvents _ (by simp))

theorem records_placeLost_ne_nil (h : s.flt.merge = false) (hr : s.host.evLost ≠ 0 ∨ s.flt.records ≠ []) :
    (placeLost s).flt.records ≠ [] := by
  unfold placeLost
  split
  case isTrue hlost => exact hr.resolve_left (not_not.mpr hlost)
  case isFalse =>
    dsimp only
    refine records_raiseFault_ne_nil _ ?_ _ _ _ _ _
    exact (congrArg Faults.merge (flt_of_view ((view_sendEventFrames _ _ (by simp)).trans (view_settleEvents _ (by simp)))) :).trans h

/-- An event that is written keeps what records there are. -/
theorem records_writeEvent_ne_nil (h : s.flt.merge = false) (hr : s.flt.records ≠ []) : (writeEvent s).flt.records ≠ [] := by
  have hs : (settleEvents s).flt = s.flt := flt_settleEvents s
  unfold writeEvent
  dsimp only
  split
  · rwa [hs]
  · split
    · have hw (u : State) : (evWriteBack u).flt = u.flt := flt_of_view (view_evWriteBack _ (by simp))
      refine records_placeLost_ne_nil _ ?_ (.inr ?_)
      · rw [hw]
        exact (congrArg Faults.merge hs).trans h
      · rw [hw]
        exact hs ▸ hr
    · rwa [hs]

/-- With room on the ring and an event of those discarded to report, the next event that is written brings a record. -/
theorem records_writeEvent_of_lost (h : s.flt.merge = false) (hlost : (settleEvents s).host.evLost ≠ 0)
    (hq : (settleEvents s).host.evQueue ≠ []) (hroom : evRoom (settleEvents s) = true) : (writeEvent s).flt.records ≠ [] := by
  unfold writeEvent
  dsimp only
  split
  case h_1 hnil => exact absurd hnil hq
  case h_2 e rest heq =>
    rw [if_pos hroom]
    have hw (u : State) : (evWriteBack u).flt = u.flt := flt_of_view (view_evWriteBack _ (by simp))
    have hl (u : State) : (evWriteBack u).host.evLost = u.host.evLost := by
      obtain ⟨n, p, hh⟩ := evWriteBack_host u
      exact (congrArg HostIf.evLost hh :)
    refine records_placeLost_ne_nil _ ?_ (.inl ?_)
    · rw [hw]
      exact (congrArg Faults.merge (flt_settleEvents s)).trans h
    · rw [hl]
      exact hlost

/-- What an event raised with a full queue finds, and leaves, of the queue and of its ring, which has room. -/
def FullQueue (h : HostIf) : Prop :=
  4096 ≤ h.evQueue.length ∧ h.linkUp = true ∧ h.ev.ctrl.enable = true ∧ h.ev.tail = h.ev.head

theorem evRoom_of_fullQueue (h : FullQueue s.host) : evRoom s = true := by
  obtain ⟨-, hup, hen, heq⟩ := h
  simp [evRoom, hup, hen, heq]

theorem fullQueue_raiseRaw (h : FullQueue s.host) (code : Nat) (job : Option Nat) (params : List Byte) :
    FullQueue (raiseRaw code job params s).host ∧ (raiseRaw code job params s).host.evLost = s.host.evLost + 1 := by
  unfold raiseRaw
  dsimp only
  rw [if_pos h.1, modHost]
  simp only [host_sendEventFrames, host_settleEvents]
  exact ⟨h, trivial⟩

theorem fullQueue_raiseEvent (h : FullQueue s.host) (code : Nat) (job : Option Nat) (params : List Byte) :
    FullQueue (raiseEvent code job params s).host ∧ (raiseEvent code job params s).host.evLost ≠ 0 := by
  obtain ⟨hfull, hlost⟩ := fullQueue_raiseRaw s h code job params
  unfold raiseEvent raiseSaturated
  simp only [h.1, decide_true, if_true]
  split
  · obtain ⟨hfull', hlost'⟩ := fullQueue_raiseRaw (bumpPurser 0x0002 1 (raiseRaw code job params s)).1 hfull 0x0003 none
      (le 1 0 ++ zeros 1 ++ le 2 0 ++ le 4 0x0002)
    exact ⟨hfull', by rw [hlost']; exact Nat.succ_ne_zero _⟩
  · exact ⟨hfull, by show (raiseRaw code job params s).host.evLost ≠ 0; rw [hlost]; exact Nat.succ_ne_zero _⟩

theorem linkError_host : ∃ c, (linkError s).host = { s.host with cfg := c } :=
  ⟨_, (apply_ite State.host _ _ _).trans (ite_self _)⟩

/-- Events drained with one of those discarded to report leave a record. -/
theorem records_drainEvents_of_lost (h : s.flt.merge = false) (hlost : (settleEvents s).host.evLost ≠ 0)
    (hq : (settleEvents s).host.evQueue ≠ []) (hroom : evRoom (settleEvents s) = true) : (drainEvents s).flt.records ≠ [] := by
  have hrest (l : List Nat) (u : State) (hm : u.flt.merge = false) (hu : u.flt.records ≠ []) :
      (l.foldl (fun s _ => writeEvent s) u).flt.records ≠ [] := by
    induction l generalizing u with
    | nil => exact hu
    | cons a l ih => exact ih _ ((merge_writeEvent u).trans hm) (records_writeEvent_ne_nil u hm hu)
  rw [drainEvents, List.range_succ_eq_map, List.foldl_cons]
  exact hrest _ _ ((merge_writeEvent s).trans h) (records_writeEvent_of_lost s h hlost hq hroom)

end

/-- A FAULT_INJECT whose descriptor could not be read. -/
def blindInject : Exec :=
  { src := .ring 0
    cmd := { opcode := 0x0A04, tag := 0, flags := 0, job := 0, rsvd6 := 0, descLen := 0, resultLen := 0, descAddr := 0, resultAddr := 0,
             params := [] }
    desc := none
    resultOk := true
    entryOk := true }

/-- A part whose event queue is full, its event ring with room, the command running. -/
def crowdedPart : State :=
  { State.reset with
    sys := { Sys.reset with phase := .ready }
    host := { HostIf.reset with
      linkUp := true, running := [⟨blindInject, 0, false⟩],
      evQueue := List.replicate 4096 { code := 0, job := none, seq := 0, tide := 0, params := [] },
      ev := { RingPort.reset with ctrl := { RingPort.reset.ctrl with enable := true } } } }

theorem admit_crowdedPart : admitCmd blindInject 0x0A04 crowdedPart =
    some (⟨blindInject, 0, false⟩, modHost (fun h => { h with running := [] }) crowdedPart) := rfl

theorem exec_blindInject : exec (.faultInject blindInject) crowdedPart =
    .next (settle (complete ⟨blindInject, 0, false⟩ stDenied 0 0 [] (modHost (fun h => { h with running := [] }) crowdedPart))) := by
  have hv (u : State) : verdict u blindInject (rowFaultInject blindInject u) = some ⟨stDenied, 0, 0⟩ := rfl
  have ha : admitCmd blindInject (rowFaultInject blindInject crowdedPart).opcode crowdedPart =
    some (⟨blindInject, 0, false⟩, modHost (fun h => { h with running := [] }) crowdedPart) := admit_crowdedPart
  simp only [exec, execFaultInject, runCmd, ha, hv, finish]

/-- Its ring error finds the event queue full; the event that is discarded is reported as the completion drains the queue. -/
theorem records_blindInject : (complete ⟨blindInject, 0, false⟩ stDenied 0 0 []
    (modHost (fun h => { h with running := [] }) crowdedPart)).flt.records ≠ [] := by
  generalize hu : modHost (fun h => { h with running := [] }) crowdedPart = u
  have hqueue : FullQueue u.host := by
    subst hu
    exact ⟨List.length_replicate.ge, rfl, rfl, rfl⟩
  have hmerge : u.flt.merge = false := by
    subst hu
    rfl
  have hlink : FullQueue (modQp 0 (fun p => { p with status := { p.status with dmaErr := true } }) (linkError u)).host := by
    obtain ⟨c, hc⟩ := linkError_host u
    exact (congrArg FullQueue hc).mpr hqueue
  obtain ⟨⟨hlen, hup, hen, heq⟩, hlost⟩ := fullQueue_raiseEvent _ hlink 0x0002 none (le 1 0 ++ zeros 1 ++ le 2 blindInject.cmd.tag ++ le 1 3)
  have hdma : (drainEvents (dmaError 0 blindInject.cmd.tag u)).flt.records ≠ [] := by
    refine records_drainEvents_of_lost _ ?_ ?_ ?_ ?_
    · exact (merge_of_view (view_dmaError _ _ _ (by simp))).trans hmerge
    · rw [host_settleEvents]
      exact hlost
    · rw [host_settleEvents]
      exact fun hnil => absurd (hlen.trans_eq (congrArg List.length hnil)) (by decide)
    · refine evRoom_of_fullQueue _ ?_
      rw [host_settleEvents]
      exact ⟨hlen, hup, hen, heq⟩
  have hpush (q : Nat) (e : List Byte) (v : State) : (pushCompletion q e v).flt = v.flt := flt_of_view (view_pushCompletion _ _ _ (by simp))
  exact (congrArg Faults.records (hpush _ _ _)).trans_ne hdma

/-- Refutes O32: a FAULT_INJECT whose descriptor could not be read is DENIED, but its ring error raises an event; with the event queue
full that event is discarded, and the completion, where it writes the waiting events, reports it: EVENTS_LOST raises a fault. -/
theorem not_faultCommands : ¬ Obligations.fault_commands := by
  intro h
  obtain ⟨-, -, -, -, hinject⟩ := h.1 blindInject crowdedPart default rfl rfl
  obtain ⟨t, ht, -, -, hflt⟩ := hinject _ _ admit_crowdedPart rfl
  rw [exec_blindInject] at ht
  cases ht
  exact records_blindInject (congrArg Faults.records hflt)

end Sys2Proof.Proofs

/-!
Contexts. What is read of a reduction or optimizer context after it was written, and where only the accounts of audit records differ.
-/
namespace Sys2Proof.Proofs
open Sys2Proof Sys2Proof.Machine Sys2Proof.Laws

section
variable {s t : State}

/-- A reduction context where its table may differ in the accounts only. -/
theorem rctx_of_view_map (h : view (others [.rctxs, .rctxVals]) t = view (others [.rctxs, .rctxVals]) s) (c : Nat) :
    (tabGet? t.rctxs c).map (fun x : Rctx => { x with acct := Account.zero }) =
      (tabGet? s.rctxs c).map (fun x : Rctx => { x with acct := Account.zero }) :=
  (tabGet?_mapVal t.rctxs (fun x : Rctx => { x with acct := Account.zero }) c).symm.trans
    ((congrArg (tabGet? · c) (rctxs_of_view_accts h)).trans (tabGet?_mapVal s.rctxs (fun x : Rctx => { x with acct := Account.zero }) c))

theorem rctx_of_view (h : view (others [.rctxs, .rctxVals]) t = view (others [.rctxs, .rctxVals]) s) {c : Nat} {x : Rctx}
    (hx : tabGet? s.rctxs c = some x) : ∃ a, tabGet? t.rctxs c = some { x with acct := a } := by
  have he := rctx_of_view_map h c
  rw [hx, Option.map_some, Option.map_eq_some_iff] at he
  obtain ⟨y, hy, he⟩ := he
  exact ⟨y.acct, hy.trans (congrArg (fun x : Rctx => some { x with acct := y.acct }) he :)⟩

theorem rctx_none_of_view (h : view (others [.rctxs, .rctxVals]) t = view (others [.rctxs, .rctxVals]) s) {c : Nat}
    (hx : tabGet? s.rctxs c = none) : tabGet? t.rctxs c = none := by
  have he := rctx_of_view_map h c
  rwa [hx, Option.map_none, Option.map_eq_none_iff] at he

/-- A optimizer context where its table may differ in the accounts only. -/
theorem octx_of_view_map (h : view (others [.octxs, .octxVals]) t = view (others [.octxs, .octxVals]) s) (c : Nat) :
    (tabGet? t.octxs c).map (fun x : Octx => { x with acct := Account.zero }) =
      (tabGet? s.octxs c).map (fun x : Octx => { x with acct := Account.zero }) :=
  (tabGet?_mapVal t.octxs (fun x : Octx => { x with acct := Account.zero }) c).symm.trans
    ((congrArg (tabGet? · c) (octxs_of_view_accts h)).trans (tabGet?_mapVal s.octxs (fun x : Octx => { x with acct := Account.zero }) c))

theorem octx_of_view (h : view (others [.octxs, .octxVals]) t = view (others [.octxs, .octxVals]) s) {c : Nat} {x : Octx}
    (hx : tabGet? s.octxs c = some x) : ∃ a, tabGet? t.octxs c = some { x with acct := a } := by
  have he := octx_of_view_map h c
  rw [hx, Option.map_some, Option.map_eq_some_iff] at he
  obtain ⟨y, hy, he⟩ := he
  exact ⟨y.acct, hy.trans (congrArg (fun x : Octx => some { x with acct := y.acct }) he :)⟩

theorem octx_none_of_view (h : view (others [.octxs, .octxVals]) t = view (others [.octxs, .octxVals]) s) {c : Nat}
    (hx : tabGet? s.octxs c = none) : tabGet? t.octxs c = none := by
  have he := octx_of_view_map h c
  rwa [hx, Option.map_none, Option.map_eq_none_iff] at he

end

section
variable (s : State) (c : Nat)

@[simp] theorem rctx_modRctx_same (f : Rctx → Rctx) : tabGet? (modRctx c f s).rctxs c = (tabGet? s.rctxs c).map f :=
  tabGet?_tabMod_same _ _ _

@[simp] theorem rctx_modRctx_ne {k : Nat} (f : Rctx → Rctx) (h : k ≠ c) : tabGet? (modRctx c f s).rctxs k = tabGet? s.rctxs k :=
  tabGet?_tabMod_ne _ _ h

@[simp] theorem octx_modOctx_same (f : Octx → Octx) : tabGet? (modOctx c f s).octxs c = (tabGet? s.octxs c).map f :=
  tabGet?_tabMod_same _ _ _

@[simp] theorem octx_modOctx_ne {k : Nat} (f : Octx → Octx) (h : k ≠ c) : tabGet? (modOctx c f s).octxs k = tabGet? s.octxs k :=
  tabGet?_tabMod_ne _ _ h

@[simp] theorem octxs_modRctx (f : Rctx → Rctx) : (modRctx c f s).octxs = s.octxs := rfl
@[simp] theorem rctxs_modOctx (f : Octx → Octx) : (modOctx c f s).rctxs = s.rctxs := rfl

end

/-! ### The Audit commands, signing and the audit ring -/

section
variable {s : State}

theorem exists_afiqueSign_quote {r : Running} {body : List Byte} {items : List SignItem}
    (hq : s.audit.signQueue = .quote r body :: items) (hup : unitLost s .mldsa = false) (hr : r.orphan = false) :
    ∃ t sig, exec .afiqueSign s = .next t ∧ sig = le 4627 (Config.mldsaSign s.sys.aliasSeed (ascii "DZF-ATTEST") body s.freeCount).toNat ∧
      Answered r.x stOk 4947 0 (body ++ sig) s t ∧ t.quiet = { s with audit := { s.audit with signQueue := items } }.quiet := by
  have he : exec .afiqueSign s = .next (settle (complete r stOk 4947 0
      (body ++ le 4627 (Config.mldsaSign s.sys.aliasSeed (ascii "DZF-ATTEST") body s.freeCount).toNat)
      { s with audit := { s.audit with signQueue := items }, freeCount := s.freeCount + 1 })) := by
    simp only [exec, execAfiqueSign, hq, hup, Bool.false_eq_true, if_false, finish]
  exact ⟨_, _, he, rfl, answered_complete rfl hr _ _ _ _ rfl, (quiet_settle _).trans ((quiet_complete _ _ _ _ _ _).trans rfl)⟩

theorem exists_afiqueSign_record {kind ctx step job : Nat} {body : List Byte} {items : List SignItem}
    (hq : s.audit.signQueue = .record kind ctx step job body :: items) (hup : unitLost s .mldsa = false) :
    ∃ t sig, exec .afiqueSign s = .next t ∧ sig = le 4627 (Config.mldsaSign s.sys.aliasSeed (ascii "DZF-AFIQUE") body s.freeCount).toNat ∧
      t.audit = { signQueue := items, waiting := s.audit.waiting ++ [⟨kind, ctx, step, job, body ++ sig⟩] } ∧
      t.quiet = { s with audit := t.audit }.quiet ∧ t.outbox = s.outbox := by
  have he : exec .afiqueSign s = .next (settle { s with
      audit := { signQueue := items, waiting := s.audit.waiting ++ [⟨kind, ctx, step, job,
        body ++ le 4627 (Config.mldsaSign s.sys.aliasSeed (ascii "DZF-AFIQUE") body s.freeCount).toNat⟩] }
      freeCount := s.freeCount + 1 }) := by
    simp only [exec, execAfiqueSign, hq, hup, Bool.false_eq_true, if_false, finish]
  exact ⟨_, _, he, rfl, rfl, rfl, rfl⟩

theorem exists_auditRingWrite_failed
    (he : exec (.auditRingWrite false) s = .next (settle (linkError (modHost (fun h =>
      { h with aud := { h.aud with status := { h.aud.status with dmaErr := true } } }) s)))) :
    ∃ t, exec (.auditRingWrite false) s = .next t ∧ t.audit = s.audit ∧ t.host.aud.status.dmaErr = true ∧
       t.host.aud.tail = s.host.aud.tail ∧ t.quiet = { s with host := { s.host with aud := t.host.aud } }.quiet := by
  generalize hu : modHost (fun h => { h with aud := { h.aud with status := { h.aud.status with dmaErr := true } } }) s = u at he
  obtain ⟨c, hc⟩ := linkError_host u
  have haud : (linkError u).host.aud = u.host.aud := (congrArg HostIf.aud hc :)
  refine ⟨_, he, ?_, ?_, ?_, ?_⟩
  · exact (audit_of_view (view_linkError u (by simp))).trans (by subst hu; rfl)
  · exact (congrArg (fun p => p.status.dmaErr) haud).trans (by subst hu; rfl)
  · exact (congrArg RingPort.tail haud).trans (by subst hu; rfl)
  · rw [quiet_settle, quiet_linkError]
    have ht : (settle (linkError u)).host.aud = u.host.aud := haud
    rw [ht, ← hu]
    rfl

theorem audWriteBack_host : ∃ n p, (audWriteBack s).host =
    { s.host with aud := { s.host.aud with unsignalled := n }, msixPending := p } := by
  unfold audWriteBack raiseVector
  dsimp only
  split
  · split <;> exact ⟨_, _, rfl⟩
  · exact ⟨_, _, rfl⟩

theorem grows_audWriteBack : Grows s (audWriteBack s) := by
  unfold audWriteBack
  dsimp only
  split
  · exact .trans (.of_append rfl) (grows_raiseVector _ _)
  · exact .of_append rfl

/-- The state in which a record has been written to the audit ring, before its write-back. -/
def recordWritten (w : SignedRecord) (rest : List SignedRecord) (off n : Nat) (s : State) : State :=
  { modHost (fun h => { h with aud := { h.aud with
      tail := h.aud.tail + BitVec.ofNat 32 n
      unsignalled := (noteEntries (ceilDiv w.bytes.length 64) s.host.aud.unsignalled s.host.aud.firstUnsignalled (now s)).1
      firstUnsignalled := (noteEntries (ceilDiv w.bytes.length 64) s.host.aud.unsignalled s.host.aud.firstUnsignalled (now s)).2 } })
    (emit (.hostWrite (s.host.aud.base + 64 * off) (fit (64 * ceilDiv w.bytes.length 64) w.bytes)) s) with
    audit := { s.audit with waiting := rest } }

theorem exists_auditRingWrite_written {w : SignedRecord} {rest : List SignedRecord} {off n : Nat} {job : Option Nat} {params : List Byte}
    (he : exec (.auditRingWrite true) s = .next (settle (raiseEvent 0x0090 job params (audWriteBack (recordWritten w rest off n s))))) :
    ∃ t, exec (.auditRingWrite true) s = .next t ∧ t.audit = { s.audit with waiting := rest } ∧
      t.host.aud.tail = s.host.aud.tail + BitVec.ofNat 32 n ∧ t.host.aud.head = s.host.aud.head ∧
      Output.hostWrite (s.host.aud.base + 64 * off) (fit (64 * ceilDiv w.bytes.length 64) w.bytes) ∈ t.outbox ∧
      t.flt = s.flt ∧ t.jobs = s.jobs ∧ t.hbm = s.hbm := by
  generalize hu : recordWritten w rest off n s = u at he
  obtain ⟨k, p, hp⟩ := audWriteBack_host (s := u)
  have haud : (raiseEvent 0x0090 job params (audWriteBack u)).host.aud = { u.host.aud with unsignalled := k } :=
    (congrArg HostIf.aud (besideEvents_raiseEvent (audWriteBack u) 0x0090 job params) :).trans (congrArg HostIf.aud hp :)
  have hsent : Grows u (raiseEvent 0x0090 job params (audWriteBack u)) := grows_audWriteBack.trans (grows_raiseEvent _ _ _ _)
  have hview {ps : List Part} (hps : [.vectors, .host, .events, .eventSeq, .purser, .outbox] ⊆ ps) :
      view ps (raiseEvent 0x0090 job params (audWriteBack u)) = view ps u := by
    simp only [List.cons_subset, List.nil_subset, and_true] at hps
    simp [hps]
  refine ⟨_, he, ?_, ?_, ?_, ?_, ?_, ?_, ?_⟩
  · exact (audit_of_view (hview (by simp))).trans (hu ▸ rfl)
  · exact (congrArg RingPort.tail haud).trans (hu ▸ rfl)
  · exact (congrArg RingPort.head haud).trans (hu ▸ rfl)
  · exact hsent.subset (hu ▸ List.mem_append_right _ (List.mem_singleton_self _))
  · exact (flt_of_view (hview (by simp))).trans (hu ▸ rfl)
  · exact (jobs_of_view (hview (by simp))).trans (hu ▸ rfl)
  · exact (hbm_of_view (hview (by simp))).trans (hu ▸ rfl)

/-- The context that a command names in its own job. -/
theorem jobRctx_of_get {x : Exec} {ctx : Nat} {r : Rctx} (hr : tabGet? s.rctxs ctx = some r) (h : (jobRctx s x ctx).isSome = true) :
    jobRctx s x ctx = some r := by
  unfold jobRctx at h ⊢
  simp only [hr, Option.bind_some] at h ⊢
  split
  · rfl
  · simp_all

theorem exists_auditSeal {x : Exec} {r : Rctx} (h : Accepts x (rowAuditSeal x) s) (hr : tabGet? s.rctxs (param x 0 2) = some r) :
    ∃ t r', exec (.auditSeal x) s = .next t ∧ Answered x stOk 0 0 [] s t ∧
      t.audit.signQueue.length = s.audit.signQueue.length + 1 ∧ tabGet? t.rctxs (param x 0 2) = some r' ∧
      r'.leaves = r.leaves.filter (fun l => l.step != param x 8 8) ∧ r'.reforms = [] ∧ r'.positions = r.positions ∧
      t.jobs = s.jobs ∧ t.hbm = s.hbm := by
  obtain ⟨u, rn, hu, hx, hrun, he⟩ := exec_of_accepts h _ (.auditSeal x) rfl
  have hru : tabGet? u.rctxs (param x 0 2) = some r := (hu.of_host (fun s => tabGet? s.rctxs (param x 0 2)) (fun _ _ _ => rfl)).trans hr
  simp only [hru, Effect.ok] at he
  generalize hr' : (if (stepPeriods r && r.period == some (param x 8 8)) = true then closePeriod r else r) = r' at he
  have hclosed : r'.leaves = r.leaves ∧ r'.positions = r.positions := by
    rw [← hr']
    unfold closePeriod
    split
    · split <;> exact ⟨rfl, rfl⟩
    · exact ⟨rfl, rfl⟩
  generalize hv : modRctx (param x 0 2) _ _ = v at he
  have hvget : tabGet? v.rctxs (param x 0 2) = some { r' with
      leaves := r'.leaves.filter (fun l => l.step != param x 8 8), reforms := []
      covered := coverStep { step := param x 8 8, leaves := r'.leaves.filter (fun l => l.step == param x 8 8) } r'.covered
      acct := Account.start u } := by
    rw [← hv, rctx_modRctx_same]
    exact congrArg (Option.map _) hru
  obtain ⟨a, ha⟩ := rctx_of_view (view_complete rn stOk 0 0 [] v (by simp)) hvget
  have hout : v.outbox = s.outbox := by
    rw [← hv]
    exact hu.of_host State.outbox (fun _ _ _ => rfl)
  refine ⟨_, _, he, answered_complete hx hrun _ _ _ _ hout, ?_, ha, ?_, rfl, hclosed.2, ?_, ?_⟩
  · simp only [settle_fields, complete_fields, ← hv, ← hu.of_host State.audit (fun _ _ _ => rfl)]
    exact List.length_append
  · exact congrArg _ hclosed.1
  · simp only [settle_fields, complete_fields, ← hv, ← hu.of_host State.jobs (fun _ _ _ => rfl)]
    rfl
  · simp only [settle_fields, complete_fields, ← hv, ← hu.of_host State.hbm (fun _ _ _ => rfl)]
    rfl

end

/-- Settles O31. -/
theorem auditCommands : Obligations.audit_commands := by
  refine ⟨fun s kind ctx step job body r items w rest => ⟨exists_afiqueSign_record, exists_afiqueSign_quote,
    fun hw hup hen hroom => ⟨?_, ?_⟩⟩, fun x s r => ⟨fun h => ?_, exists_auditSeal, fun h => ?_⟩⟩
  · refine exists_auditRingWrite_failed ?_
    simp only [exec, execAuditRingWrite, hw, hup, hen, finish, decide_eq_true hroom, Bool.and_self, if_true, Bool.not_false]
  · refine exists_auditRingWrite_written (rest := rest) (job := some w.job)
      (params := le 1 w.kind ++ zeros 1 ++ le 2 w.ctx ++ le 4 ((s.host.aud.tail.toNat % 2 ^ s.host.aud.ctrl.log2 +
        if 2 ^ s.host.aud.ctrl.log2 - s.host.aud.tail.toNat % 2 ^ s.host.aud.ctrl.log2 < ceilDiv w.bytes.length 64 then
          2 ^ s.host.aud.ctrl.log2 - s.host.aud.tail.toNat % 2 ^ s.host.aud.ctrl.log2
        else 0) % 2 ^ s.host.aud.ctrl.log2) ++ le 8 w.step ++ le 4 w.bytes.length) ?_
    simp only [exec, execAuditRingWrite, hw, hup, hen, finish, decide_eq_true hroom, Bool.and_self, if_true, Bool.not_true,
      Bool.false_eq_true, if_false]
    rfl
  · exact (done_of_runCmd h _ (.auditRingSet x) rfl (fun _ => rfl) (fun _ _ => rfl) (fun _ _ => rfl) (fun _ _ => rfl) :)
  · exact ⟨_, (done_of_runCmd h _ (.auditPath x) rfl (fun _ => rfl) (fun _ _ => rfl) (fun _ _ => rfl) (fun _ _ => rfl) :)⟩

end Sys2Proof.Proofs

/-!
The standard mailbox.
-/
namespace Sys2Proof.Proofs
open Sys2Proof Sys2Proof.Machine Sys2Proof.Laws

/-! ### Records with bytes laid over them -/

@[simp] theorem length_standardBytes (key n : Nat) : (standardBytes key n).length = n := by simp [standardBytes]

/-- Bytes laid over a record within it leave its length. -/
theorem length_overlay {off : Nat} {new base : List Byte} (h : off + new.length ≤ base.length) :
    (overlay off new base).length = base.length := by
  simp [overlay]
  omega

theorem bytesAt_overlay_same {off n : Nat} {new base : List Byte} (h : off ≤ base.length) (hn : new.length = n) :
    bytesAt (overlay off new base) off n = new := by
  have ht : (base.take off).length = off := by simp [h]
  rw [overlay, List.append_assoc, bytesAt_append_right _ _ ht.le, ht, Nat.sub_self, bytesAt_append_left _ (by omega), bytesAt_all hn]

/-- What lies before the bytes laid over it. -/
theorem bytesAt_overlay_before {off k n : Nat} {new base : List Byte} (hk : k + n ≤ off) (h : off ≤ base.length) :
    bytesAt (overlay off new base) k n = bytesAt base k n := by
  have ht : (base.take off).length = off := by simp [h]
  rw [overlay, List.append_assoc, bytesAt_append_left _ (by omega), bytesAt, bytesAt, List.drop_take, List.take_take,
    min_eq_left (by omega)]

/-- A run read from within a run. -/
theorem bytesAt_bytesAt (b : List Byte) {off n k m : Nat} (h : k + m ≤ n) : bytesAt (bytesAt b off n) k m = bytesAt b (off + k) m := by
  simp only [bytesAt, List.drop_take, List.take_take, List.drop_drop]
  rw [min_eq_left (by omega)]

/-! ### Answers -/

/-- The bits of the health record's first byte (R299): bit 0 is 1 while an uncleared fault has level 3 or above. -/
theorem bit_healthByte (a b c d : Bool) : bit ((b2n a + 2 * b2n b + 4 * b2n c + 8 * b2n d) % 256) 0 = a := by
  cases a <;> cases b <;> cases c <;> cases d <;> rfl

theorem healthBytes_level (s : State) : (healthBytes s).length = 18 ∧ bit (field (healthBytes s) 0 1) 0 = decide (3 ≤ faultLevel s) := by
  constructor
  · simp [healthBytes, leInt]
  · have hfirst : ∃ a b c rest, healthBytes s = le 1 (b2n (decide (3 ≤ faultLevel s)) + 2 * b2n a + 4 * b2n b + 8 * b2n c) ++ rest := by
      simp only [healthBytes, List.append_assoc]
      exact ⟨_, _, _, _, rfl⟩
    obtain ⟨a, b, c, rest, he⟩ := hfirst
    rw [he, field, bytesAt_append_left _ (by simp), bytesAt_all (length_le _ _), leNat_le]
    exact bit_healthByte _ _ _ _

/-- Settles O34. -/
theorem mailboxCommands : Obligations.mailbox_commands := by
  refine ⟨fun s log offset length value opcode all handles bs hopen => ?_, fun s c log offset length value opcode all handles bs h hc => ?_⟩
  · refine ⟨⟨_, if_pos hopen, ?_⟩, ⟨_, if_pos hopen, ?_⟩, ⟨_, if_pos hopen, ?_⟩, ⟨_, (if_neg (by simp)).trans (if_pos hopen), rfl⟩,
      ⟨_, if_pos hopen, ?_⟩, ⟨_, if_pos hopen, rfl⟩, ⟨_, if_pos hopen, rfl⟩, ⟨_, if_pos hopen, rfl⟩,
      ⟨_, if_pos hopen, rfl, healthBytes_level s⟩, ⟨_, if_pos hopen, rfl⟩, ⟨_, if_pos hopen, rfl⟩, fun hnone => ?_,
      fun v hv => ?_, ⟨_, if_pos hopen, rfl⟩, ⟨_, if_pos hopen, ?_⟩, fun hlog => if_pos (by simp [hopen, hlog]), if_pos hopen⟩
    · have hlen : (overlay 2 (le 2 0x0384) (standardBytes 0x0001 18)).length = 18 := by simp [length_overlay]
      refine ⟨by simp [length_overlay, hlen], ?_, bytesAt_overlay_same (by omega) (by simp)⟩
      rw [bytesAt_overlay_before (by omega) (by omega), bytesAt_overlay_same (by simp) (by simp)]
    · have hlen : (overlay 0x10 (le 8 1920 ++ le 8 1920 ++ zeros 16) (standardBytes 0x4000 69)).length = 69 := by simp [length_overlay]
      have hin : bytesAt (overlay 0x10 (le 8 1920 ++ le 8 1920 ++ zeros 16) (standardBytes 0x4000 69)) 16 32 =
          le 8 1920 ++ le 8 1920 ++ zeros 16 := bytesAt_overlay_same (by simp) (by simp)
      have hsub (k m : Nat) (hk : k + m ≤ 32) : bytesAt (overlay 0x38 (zeros 4) (overlay 0x10 (le 8 1920 ++ le 8 1920 ++ zeros 16)
          (standardBytes 0x4000 69))) (16 + k) m = bytesAt (le 8 1920 ++ le 8 1920 ++ zeros 16) k m := by
        rw [bytesAt_overlay_before (by omega) (by omega), ← bytesAt_bytesAt _ hk, hin]
      refine ⟨by simp [length_overlay], (hsub 0 8 (by decide)).trans ?_, (hsub 8 8 (by decide)).trans ?_,
        (hsub 16 8 (by decide)).trans ?_, (hsub 24 8 (by decide)).trans ?_, bytesAt_overlay_same (by omega) (by simp)⟩
      all_goals simp [bytesAt_append_left, bytesAt_append_right, bytesAt_all, bytesAt_zeros]
    · simp [bytesAt_append_left, bytesAt_all]
    · constructor
      · simp [bytesAt_append_left, bytesAt_append_right, bytesAt_all]
      · exact List.drop_left' (by simp)
    · refine ⟨_, (if_pos hopen).trans ?_, rfl⟩
      simp only [hnone]
      rfl
    · refine ⟨le 8 (fresh 64 s).1.toNat, (if_pos hopen).trans ?_, length_le _ _⟩
      simp only [hv]
      rfl
    · refine ⟨length_fit _ _, ?_⟩
      rw [bytesAt_fit (by decide) (by simp only [List.length_append, length_le]; omega)]
      simp [bytesAt_append_left, bytesAt_all]
  · simp only [List.mem_cons, List.not_mem_nil, or_false] at hc
    have hno : ¬ mailboxOpen s = true := by simp [h]
    rcases hc with rfl | rfl | rfl | rfl | rfl | rfl | rfl | rfl | rfl | rfl | rfl | rfl | rfl | rfl | rfl
    case inr.inr.inr.inl => exact (if_neg (by simp [h])).trans (if_neg hno)
    all_goals exact if_neg hno

end Sys2Proof.Proofs

/-!
The service port and the transfer of an image over it.
-/
namespace Sys2Proof.Proofs
open Sys2Proof Sys2Proof.Machine Sys2Proof.Laws

/-! ### Commands over the service port -/

section
variable {s : State} {f : FrameHdr} {payload : List Byte}

/-- What lets a command frame start a command, beside the port. -/
def FrameRuns (s : State) (f : FrameHdr) (payload : List Byte) : Prop :=
  frameFor 1 f = true ∧ 64 ≤ payload.length ∧ payload.length ≤ 1400 ∧ s.sys.phase ≠ .recovery ∧ serviceRunning s < 8

theorem serviceCommand_refused (hp : portUp s = true) (h : ¬ FrameRuns s f payload) :
    exec (.serviceCommand f.dst f.src f.toServiceHdr payload) s = .next (settle (countPurser 0x0004 1 s)) := by
  refine (if_neg (by simp [hp])).trans (if_pos ?_)
  simp only [FrameRuns, not_and_or, not_le, not_not, not_lt, Bool.not_eq_true] at h
  simp only [Bool.or_eq_true, Bool.not_eq_true', decide_eq_true_eq]
  rcases h with h | h | h | h | h
  all_goals simp [h]

theorem serviceCommand_runs (hp : portUp s = true) (h : FrameRuns s f payload) :
    exec (.serviceCommand f.dst f.src f.toServiceHdr payload) s =
      match s.svc.kept.find? (fun k => k.mac == f.src && k.tag == (frameExec f payload).cmd.tag) with
      | some k => match k.answer with
        | some a => finish (emit (.serviceFrame f.src 2 0 a) s)
        | none => finish (discardFrame s)
      | none => finish (startService (frameExec f payload) f.src s) := by
  obtain ⟨h1, h2, h3, h4, h5⟩ := h
  refine (if_neg (by simp [hp])).trans (if_neg ?_)
  simp [h1, h2, h3, h4, h5]

theorem runningFor_keepCompletion (mac tag : Nat) (a : Option (List Byte)) (m : Nat) :
    runningFor (keepCompletion mac tag a s) m = runningFor s m := by
  simp only [runningFor, allRunning, keepCompletion]

theorem keepCompletion_fields (mac tag : Nat) (a : Option (List Byte)) : (keepCompletion mac tag a s).svc.waiting = s.svc.waiting ∧
    (keepCompletion mac tag a s).host = s.host ∧ (keepCompletion mac tag a s).outbox = s.outbox := by
  simp only [keepCompletion, and_self]

/-- A command that the fence lets start runs at once, on a core that is drawn (R302). -/
theorem startService_free {x : Exec} (mac : Nat) (ho : opcodeAssigned x.cmd.opcode = true) (hf : fenceAllows (runningFor s mac) x = true)
    (hw : ∀ y ∈ s.svc.waiting, y.src ≠ x.src) : ∃ core, (startService x mac s).host.running =
      s.host.running ++ [{ x := x, core := core, orphan := false }] ∧ (startService x mac s).outbox = s.outbox ∧
      (startService x mac s).quiet = s.quiet := by
  obtain ⟨hwait, hhost, hout⟩ := keepCompletion_fields (s := s) mac x.cmd.tag none
  have hany : s.svc.waiting.any (fun y => y.src == x.src) = false := List.any_eq_false.mpr (fun y hy => by simpa using hw y hy)
  have he : startService x mac s = startOn x (keepCompletion mac x.cmd.tag none s) := by
    simp only [startService, runningFor_keepCompletion, hwait, ho, hf, hany, Bool.not_true, Bool.not_false, Bool.and_self,
      Bool.false_eq_true, if_false, if_true]
  rw [he, quiet_startOn, quiet_keepCompletion]
  generalize keepCompletion mac x.cmd.tag none s = u at hhost hout
  exact ⟨_, congrArg (fun h : HostIf => h.running ++ [_]) hhost, hout, rfl⟩

theorem startService_held {x : Exec} (mac : Nat) (ho : opcodeAssigned x.cmd.opcode = true)
    (hf : ¬ (fenceAllows (runningFor s mac) x = true ∧ ∀ y ∈ s.svc.waiting, y.src ≠ x.src)) :
    (startService x mac s).svc.waiting = s.svc.waiting ++ [x] ∧ (startService x mac s).host = s.host ∧
      (startService x mac s).outbox = s.outbox ∧ (startService x mac s).quiet = s.quiet := by
  obtain ⟨hwait, hhost, hout⟩ := keepCompletion_fields (s := s) mac x.cmd.tag none
  have hcond : (fenceAllows (runningFor s mac) x && !s.svc.waiting.any (fun y => y.src == x.src)) = false := by
    refine Bool.eq_false_iff.mpr (fun h => hf ?_)
    simpa only [Bool.and_eq_true, Bool.not_eq_true', List.any_eq_false, beq_iff_eq] using h
  have he : startService x mac s = { keepCompletion mac x.cmd.tag none s with
      svc := { (keepCompletion mac x.cmd.tag none s).svc with waiting := s.svc.waiting ++ [x] } } := by
    simp only [startService, runningFor_keepCompletion, hwait, ho, hcond, Bool.not_true, Bool.false_eq_true, if_false]
  have hq := quiet_keepCompletion s mac x.cmd.tag none
  rw [he]
  generalize keepCompletion mac x.cmd.tag none s = u at hhost hout hq
  exact ⟨rfl, hhost, hout, hq⟩

theorem startService_unassigned {x : Exec} {mac : Nat} (ho : opcodeAssigned x.cmd.opcode = false) :
    Answered x stBadOpcode 0 0 [] s (settle (startService x mac s)) ∧ (settle (startService x mac s)).quiet = s.quiet := by
  have he : startService x mac s = complete
      { x := { x with desc := some [] }, core := (chooseCore (keepCompletion mac x.cmd.tag none s)).1, orphan := false }
      stBadOpcode 0 0 [] (chooseCore (keepCompletion mac x.cmd.tag none s)).2 := by
    simp only [startService, ho, Bool.not_false, if_true]
  obtain ⟨hwait, hhost, hout⟩ := keepCompletion_fields (s := s) mac x.cmd.tag none
  have hq := quiet_keepCompletion s mac x.cmd.tag none
  rw [he]
  generalize keepCompletion mac x.cmd.tag none s = u at hout hq
  refine ⟨answered_complete (x := { x with desc := some [] }) rfl rfl _ _ _ _ hout, ?_⟩
  rw [quiet_settle, quiet_complete]
  exact hq

end

/-- Settles O35. -/
theorem servicePort : Obligations.service_port := by
  intro s f payload on k hp
  have hport : ¬ (!portUp s) = true := by simp [hp]
  have hjoin (h : frameFor 5 f = true ∧ s.sys.phase ≠ .recovery) : ¬ (!frameFor 5 f || decide (s.sys.phase = .recovery)) = true := by
    simp [h.1, h.2]
  refine ⟨fun h => ?_, fun h h' => ?_, fun h => if_pos (by simp [hp, h]), fun h => if_neg (by simp [h]), serviceCommand_refused hp,
    fun h => ?_, fun h hk ha => ?_, fun a h hk ha => ?_, fun h hn ho hf => ?_, fun h hn ho hf => ?_, fun h hn ho => ?_, fun h => ?_,
    fun h hm => ?_, fun h hm hl => ?_, fun h hm hl => ?_⟩
  · exact (if_neg hport).trans (if_pos (by simpa using h))
  · exact (if_neg hport).trans (if_neg (by simp [h, h']))
  · refine (if_neg hport).trans (if_pos ?_)
    by_cases hf : frameFor 5 f = true
    · simpa [hf] using h
    · simp [hf]
  · simp only [serviceCommand_runs hp h, hk, ha]
    rfl
  · simp only [serviceCommand_runs hp h, hk, ha]
    rfl
  · obtain ⟨core, h1, h2, h3⟩ := startService_free f.src ho hf.1 hf.2
    refine ⟨settle (startService (frameExec f payload) f.src s), core, ?_, h1, h2, h3⟩
    simp only [serviceCommand_runs hp h, hn]
    rfl
  · obtain ⟨h1, h2, h3, h4⟩ := startService_held f.src ho hf
    refine ⟨settle (startService (frameExec f payload) f.src s), ?_, h1, h2, h3, h4⟩
    simp only [serviceCommand_runs hp h, hn]
    rfl
  · refine ⟨_, ?_, startService_unassigned (mac := f.src) ho⟩
    simp only [serviceCommand_runs hp h, hn]
    rfl
  · exact (if_neg hport).trans ((if_neg (hjoin h)).trans (if_pos rfl))
  · exact (if_neg hport).trans ((if_neg (hjoin h)).trans ((if_neg (by decide)).trans (if_pos (by simpa using hm))))
  · exact (if_neg hport).trans ((if_neg (hjoin h)).trans ((if_neg (by decide)).trans ((if_neg (by simpa using hm)).trans (if_pos hl))))
  · refine ⟨_, ?_, ?_, ?_, (if_neg hport).trans ((if_neg (hjoin h)).trans ((if_neg (by decide)).trans ((if_neg (by simpa using hm)).trans
      (if_neg (by omega)))))⟩
    · simp
    all_goals simp [bytesAt_append_left, bytesAt_append_right, bytesAt_all]

/-! ### The transfer of an image -/

section
variable {s : State}

@[simp] theorem getSlot_putSlot_same (i : Nat) (x : ImageSlot) : getSlot (putSlot i x s) i = x := tabGet_tabPut_same _ _ _ _

theorem getSlot_putSlot_ne {i j : Nat} (x : ImageSlot) (h : j ≠ i) : getSlot (putSlot i x s) j = getSlot s j := tabGet_tabPut_ne _ _ _ h

theorem frameTransfer_eq_some {f : ImageFrame} {t : Transfer} (h : frameTransfer f s = some t) :
    s.aon.transfer = some t ∧ t.owner = f.hdr.src ∧ t.id = f.transferId ∧ t.slot = f.slot := by
  unfold frameTransfer at h
  obtain ⟨y, hy, h⟩ := Option.bind_eq_some_iff.mp h
  split at h
  case isTrue hc =>
    cases h
    simp only [Bool.and_eq_true, decide_eq_true_eq] at hc
    exact ⟨hy, hc.1.1, hc.1.2, hc.2⟩
  case isFalse => cases h

/-- The units of a slot after a frame's were added: those received before stay. -/
theorem tabGet?_addUnits (bs : List (List Byte)) (u : Nat) (t : Tab (List Byte)) (n : Nat) :
    tabGet? (addUnits u bs t) n = (tabGet? t n).or (if n < u then none else bs[n - u]?) := by
  induction bs generalizing u t with
  | nil => simp [addUnits]
  | cons b bs ih =>
    rw [addUnits, ih]
    have hput : tabGet? (if tabHas t u then t else tabPut t u b) n = (tabGet? t n).or (if n = u then some b else none) := by
      by_cases hn : n = u
      · subst hn
        cases h : tabGet? t n with
        | some v => simp [tabHas, h]
        | none => simp [tabHas, h, tabGet?_tabPut_same]
      · split <;> simp [hn, tabGet?_tabPut_ne]
    rw [hput, Option.or_assoc]
    congr 1
    rcases Nat.lt_trichotomy n u with hn | rfl | hn
    · simp [hn, hn.ne, Nat.lt_succ_of_lt hn]
    · simp
    · have hsub : n - u = n - (u + 1) + 1 := by omega
      simp [hn.ne', Nat.not_lt.mpr hn.le, Nat.not_lt.mpr (Nat.succ_le_of_lt hn), hsub]

theorem cutTransfer_of_erasing {t : Transfer} (ht : s.aon.transfer = some t) (he : t.erasing = true) :
    cutTransfer s = abortTransfer (statusFrame t.owner t.slot (fresh 16 s).1.toNat t.id 0 0 (fresh 16 s).2) := by
  simp only [cutTransfer, ht, he, if_true]

theorem cutTransfer_of_receiving {t : Transfer} (ht : s.aon.transfer = some t) (he : t.erasing = false) :
    cutTransfer s = abortTransfer s := by
  simp only [cutTransfer, ht, he, Bool.false_eq_true, if_false]

theorem abortTransfer_of_some {t : Transfer} (ht : s.aon.transfer = some t) :
    abortTransfer s = putSlot t.slot ImageSlot.empty { s with aon := { s.aon with transfer := none, lastEnd := none } } := by
  simp only [abortTransfer, ht]

/-- What a transfer that is cut short leaves: its slot EMPTY, the others as before, no transfer. -/
theorem cutTransfer_leaves {t : Transfer} (ht : s.aon.transfer = some t) : ∃ st, getSlot (cutTransfer s) t.slot = ImageSlot.empty ∧
    (∀ i, i ≠ t.slot → getSlot (cutTransfer s) i = getSlot s i) ∧ (cutTransfer s).aon.transfer = none ∧
    (cutTransfer s).outbox = s.outbox ++ (if t.erasing = true then [.serviceFrame t.owner 4 0 (le 1 4 ++ le 1 t.slot ++ le 2 st ++
      le 4 t.id ++ le 4 0 ++ zeros 2 ++ le 1 0 ++ zeros 1)] else []) := by
  cases he : t.erasing with
  | true =>
    rw [cutTransfer_of_erasing ht he, abortTransfer_of_some (s := statusFrame _ _ _ _ _ _ (fresh 16 s).2) ht]
    exact ⟨_, getSlot_putSlot_same _ _, fun i hi => getSlot_putSlot_ne _ hi, rfl, rfl⟩
  | false =>
    rw [cutTransfer_of_receiving ht he, abortTransfer_of_some ht]
    exact ⟨0, getSlot_putSlot_same _ _, fun i hi => getSlot_putSlot_ne _ hi, rfl, (List.append_nil _).symm⟩

theorem answerImage_of_receiving {f : ImageFrame} {t : Transfer} (ht : s.aon.transfer = some t) (he : t.erasing = false) (status : Nat) :
    answerImage f status s = statusFrame f.hdr.src f.slot status f.transferId (nextMissing (getSlot s t.slot)) 0 s := by
  simp only [answerImage, answerMissing, ht, he, Bool.false_eq_true, if_false]

theorem judgeSlot_state (x : ImageSlot) : (judgeSlot s x).state = (if verifySlot s x = 0 then 2 else 3) ∧
    (judgeSlot s x).detail = verifySlot s x ∧ ((judgeSlot s x).state == 2) = decide (verifySlot s x = 0) := by
  refine ⟨rfl, rfl, ?_⟩
  by_cases h : verifySlot s x = 0 <;> simp [judgeSlot, h]

end

/-- Settles O36. -/
theorem imageTransfer : Obligations.image_transfer := by
  intro s f t
  refine ⟨fun hp hf ho hfr h1 h2 h3 h4 hn hr he => ?_, fun ht he => ?_, fun hp hf ht he hok hlen => ?_, fun hp hf ht he hok => ?_,
    fun hp hf ht hok => ?_, fun ht he => ?_, fun ht he => ?_⟩
  · have hbad : (false || decide (1 < t.slot) || decide (t.id = 0) || !([] : List Byte).isEmpty) = false := by simp [h1, h2]
    have hslot : (s.sys.phase != .recovery && decide (t.slot = s.aon.boot.slot)) = false := by
      rcases hr with hr | hr
      · simp [bne, hr]
      · simp [hr]
    have hlen : (decide (50331648 < t.imageLen) || decide (t.imageLen < 5376)) = false := by simp [h3, h4]
    have hcut : cutTransfer s = s := by simp only [cutTransfer, hn]
    have hnext : (s.sys.phase != .recovery && decide (s.aon.nextSlot = t.slot)) =
        decide ((s.sys.phase == .recovery) = false ∧ s.aon.nextSlot = t.slot) := by
      cases h : s.sys.phase == Phase.recovery <;> simp [bne, h]
    have hput : (putSlot t.slot ImageSlot.empty s).sys.phase = s.sys.phase ∧
        (putSlot t.slot ImageSlot.empty s).aon.nextSlot = s.aon.nextSlot ∧
        (putSlot t.slot ImageSlot.empty s).aon.boot.slot = s.aon.boot.slot := ⟨rfl, rfl, rfl⟩
    rw [hfr]
    simp only [exec, execImageBegin, hp, hf, hn, hbad, hslot, hlen, hcut, hput, hnext, finish, Bool.not_true, Bool.false_eq_true, if_false,
      Option.map_none, Option.getD_none, decide_eq_true_eq]
    rw [← he, ho]
    rfl
  · have hx : exec .slotEraseDone s = .next (settle (statusFrame t.owner t.slot stOk t.id 0 0
        (putSlot t.slot { ImageSlot.empty with state := 1, imageLen := t.imageLen }
          { s with aon := { s.aon with transfer := some { t with erasing := false } } }))) := by
      simp only [exec, execSlotEraseDone, ht, he, Bool.not_true, Bool.false_eq_true, if_false, finish]
    exact ⟨_, hx, getSlot_putSlot_same _ _, fun i hi => getSlot_putSlot_ne _ hi, rfl, rfl⟩
  · obtain ⟨htr, howner, hid, hslot⟩ := frameTransfer_eq_some ht
    have hx : exec (.imageData f) s = .next (settle (answerImage f stOk (putSlot t.slot { getSlot s t.slot with
        bytes := addUnits (f.value / 64) (chunksOf (f.data.length + 1) 64 f.data) (getSlot s t.slot).bytes } s))) := by
      simp only [exec, execImageData, hp, hf, ht, he, hok, finish, Bool.not_true, Bool.false_eq_true, if_false, if_neg (Nat.not_lt.mpr hlen)]
    rw [answerImage_of_receiving (s := putSlot _ _ s) (t := t) htr he] at hx
    refine ⟨_, hx, fun n => ?_, fun i hi => getSlot_putSlot_ne _ hi, rfl, ?_⟩
    · rw [← tabGet?_addUnits]
      exact congrArg (fun x => tabGet? x.bytes n) (getSlot_putSlot_same (s := s) t.slot _)
    · rw [hslot, hid]
      rfl
  · obtain ⟨htr, howner, hid, hslot⟩ := frameTransfer_eq_some ht
    obtain ⟨hst, hdet, hst2⟩ := judgeSlot_state (s := s) (getSlot s t.slot)
    have hx : exec (.imageEnd f) s = .next (settle (statusFrame f.hdr.src f.slot
        (if decide (verifySlot s (getSlot s t.slot) = 0) then stOk else stDenied) f.transferId (nextMissing (getSlot s t.slot))
        (verifySlot s (getSlot s t.slot)) (putSlot t.slot (judgeSlot s (getSlot s t.slot)) { s with aon := { s.aon with
          transfer := none
          lastEnd := some ⟨t.owner, t.id, t.slot, if decide (verifySlot s (getSlot s t.slot) = 0) then stOk else stDenied,
            nextMissing (getSlot s t.slot), verifySlot s (getSlot s t.slot)⟩
          nextSlot := if decide (verifySlot s (getSlot s t.slot) = 0) && s.sys.phase == .recovery then t.slot else s.aon.nextSlot } }))) := by
      simp only [exec, execImageEnd, hp, hf, ht, he, hok, hst2, hdet, finish, Bool.not_true, Bool.false_eq_true, if_false]
    refine ⟨_, hx, getSlot_putSlot_same _ _, rfl, ?_, fun i hi => getSlot_putSlot_ne _ hi, ?_⟩
    · exact (congrArg ImageSlot.state (getSlot_putSlot_same _ _)).trans hst
    · rw [hslot, hid]
      simp only [decide_eq_true_eq]
      rfl
  · obtain ⟨htr, howner, hid, hslot⟩ := frameTransfer_eq_some ht
    obtain ⟨st, hgone, hrest, hnone, hout⟩ := cutTransfer_leaves htr
    have hx : exec (.imageAbort f) s = .next (settle (statusFrame f.hdr.src f.slot stOk f.transferId
        (if t.erasing then 0 else nextMissing (getSlot s t.slot)) 0 (cutTransfer s))) := by
      simp only [exec, execImageAbort, hp, hf, ht, hok, finish, Bool.not_true, Bool.false_eq_true, if_false, answerMissing, htr]
    refine ⟨_, st, hx, hgone, hrest, hnone, (congrArg (· ++ [_]) hout).trans ?_⟩
    rw [hslot, hid]
    cases t.erasing <;> simp
  · rw [show exec .transferSilence s = .next (settle (cutTransfer s)) from rfl, cutTransfer_of_receiving ht he, abortTransfer_of_some ht]
    rfl
  · obtain ⟨st, hgone, hrest, hnone, hout⟩ := cutTransfer_leaves ht
    rw [if_pos he] at hout
    exact ⟨_, st, rfl, hgone, hrest, hnone, hout⟩

end Sys2Proof.Proofs

/-!
Monitors, throttling, and the idle states of units.
-/
namespace Sys2Proof.Proofs
open Sys2Proof Sys2Proof.Machine Sys2Proof.Laws

/-! ### Samples -/

section
variable {s t : State}

theorem getMonitor_of_view (h : view (others [.island]) t = view (others [.island]) s) (n : Nat) : getMonitor t n = getMonitor s n :=
  (congrArg (fun a : AlwaysOn => tabGet a.monitors n Monitor.zero) (island_of_view h) :)

theorem getMonitor_setMonitor_same (n : Nat) (m : Monitor) : getMonitor (setMonitor n m s) n = m := tabGet_tabPut_same _ _ _ _

theorem getMonitor_setMonitor_ne {n k : Nat} (m : Monitor) (h : k ≠ n) : getMonitor (setMonitor n m s) k = getMonitor s k :=
  tabGet_tabPut_ne _ _ _ h

/-- A monitor without a valid reading (R326). -/
def invalidated (m : Monitor) : Monitor := { m with high := false, low := false, trip := false, invalid := true, value := 0 }

theorem getMonitor_markInvalid (n k : Nat) :
    getMonitor (markInvalid n s) k = if k = n then invalidated (getMonitor s n) else getMonitor s k := by
  have hset : getMonitor (setMonitor n (invalidated (getMonitor s n)) s) k =
      if k = n then invalidated (getMonitor s n) else getMonitor s k := by
    split
    case isTrue h => rw [h, getMonitor_setMonitor_same]
    case isFalse h => rw [getMonitor_setMonitor_ne _ h]
  unfold markInvalid
  dsimp only
  split
  · exact hset
  · rw [getMonitor_of_view (view_raiseFault _ _ _ _ _ _ (by simp))]
    exact hset

/-- What a sample makes of its monitor (R325). -/
def sampled (threshold : Int) (n : Nat) (x : Sample) (m : Monitor) : Monitor :=
  match x with
  | .noAnswer => if n < 64 then invalidated m else m
  | .reading v =>
    if n < 64 then
      if v < -4000 ∨ 15000 < v then invalidated m else m.take v (threshold ≤ v) false (tripThreshold n ≤ v)
    else if n < 96 then m.take v (aboveWindow (n - 64) v) (belowWindow (n - 64) v) false
    else m.take v false false false

theorem getMonitor_takeSample (n k : Nat) (x : Sample) : getMonitor (takeSample n x s) k =
    if k = n then sampled (throttleThreshold s n) n x (getMonitor s n) else getMonitor s k := by
  have hset (m : Monitor) : getMonitor (setMonitor n m s) k = if k = n then m else getMonitor s k := by
    split
    case isTrue h => rw [h, getMonitor_setMonitor_same]
    case isFalse h => rw [getMonitor_setMonitor_ne _ h]
  unfold takeSample sampled
  cases x with
  | noAnswer =>
    dsimp only
    split
    · exact getMonitor_markInvalid n k
    · split
      case isTrue h => rw [h]
      case isFalse => rfl
  | reading v =>
    simp only [Bool.or_eq_true, decide_eq_true_eq]
    split
    · split
      · exact getMonitor_markInvalid n k
      · exact hset _
    · split <;> exact hset _

/-- The samples of a round, taken in turn. -/
def takeAll (samples : List Sample) (ns : List Nat) (s : State) : State :=
  ns.foldl (fun s n => match samples[n]? with
    | some x => takeSample n x s
    | none => s) s

theorem view_takeAll {ps : List Part} (samples : List Sample) (ns : List Nat) (s : State)
    (hp : [.fatal, .island, .events, .eventSeq, .records, .purser, .accts, .outbox] ⊆ ps) : view ps (takeAll samples ns s) = view ps s := by
  refine view_foldl _ (fun s n => ?_) ns s
  split
  · exact view_takeSample _ _ _ hp
  · rfl

theorem throttleThreshold_of_pwr (h : t.pwr = s.pwr) (n : Nat) : throttleThreshold t n = throttleThreshold s n := by
  unfold throttleThreshold
  rw [h]

/-- A round of samples: each monitor takes its own, once. -/
theorem getMonitor_takeAll (samples : List Sample) {ns : List Nat} (hn : ns.Nodup) (s : State) (k : Nat) :
    getMonitor (takeAll samples ns s) k =
      if k ∈ ns then ((samples[k]?).map (fun x => sampled (throttleThreshold s k) k x (getMonitor s k))).getD (getMonitor s k)
      else getMonitor s k := by
  induction ns generalizing s with
  | nil => rfl
  | cons n ns ih =>
    obtain ⟨hnot, hnd⟩ := List.nodup_cons.mp hn
    generalize hu : (match samples[n]? with | some x => takeSample n x s | none => s) = u
    have hstep : takeAll samples (n :: ns) s = takeAll samples ns u := by
      rw [← hu]
      rfl
    have hpwr : u.pwr = s.pwr := by
      rw [← hu]
      split
      · exact pwr_of_view (view_takeSample _ _ _ (by simp))
      · rfl
    have hget (k : Nat) : getMonitor u k =
        if k = n then ((samples[n]?).map (fun x => sampled (throttleThreshold s n) n x (getMonitor s n))).getD (getMonitor s n)
        else getMonitor s k := by
      rw [← hu]
      cases samples[n]? with
      | some x => exact getMonitor_takeSample n k x
      | none =>
        by_cases h : k = n
        · rw [if_pos h, h]
          rfl
        · rw [if_neg h]
    rw [hstep, ih hnd, hget, throttleThreshold_of_pwr hpwr]
    by_cases hk : k = n
    · subst hk
      simp [hnot]
    · simp [hk]

end

theorem exists_monitorSample {s : State} (samples : List Sample) (power current : Nat) (hon : s.aon.stage ≠ .off) :
    ∃ t, exec (.monitorSample samples power current) s = .next t ∧ t.aon.inputPower = power ∧ t.aon.inputCurrent = current ∧
      (∀ n, getMonitor t n = if n < 112 then
        ((samples[n]?).map (fun x => sampled (throttleThreshold s n) n x (getMonitor s n))).getD (getMonitor s n)
        else getMonitor s n) ∧
      t.jobs = s.jobs ∧ t.hbm = s.hbm ∧ t.slips = s.slips ∧ t.pwr = s.pwr := by
  have hall := getMonitor_takeAll samples (List.nodup_range (n := 112)) s
  have hview {ps : List Part} (hp : [.fatal, .island, .events, .eventSeq, .records, .purser, .accts, .outbox] ⊆ ps) :=
    view_takeAll samples (List.range 112) s hp
  have hx : exec (.monitorSample samples power current) s = .next (settle { takeAll samples (List.range 112) s with
      aon := { (takeAll samples (List.range 112) s).aon with
        inputPower := power, inputCurrent := current
        coolRun := if sensorsCool (takeAll samples (List.range 112) s) then (takeAll samples (List.range 112) s).aon.coolRun + 1 else 0
        lowRun := if 100 * power ≤ 95 * (takeAll samples (List.range 112) s).pwr.powerCap then
          (takeAll samples (List.range 112) s).aon.lowRun + 1 else 0 } }) := by
    simp only [exec, execMonitorSample, hon, if_false, finish, takeAll]
    rfl
  generalize takeAll samples (List.range 112) s = u at hx hall hview
  have hjobs : u.jobs = s.jobs := jobs_of_view (hview (by simp))
  have hhbm : u.hbm = s.hbm := hbm_of_view (hview (by simp))
  have hslips : u.slips = s.slips := slips_of_view (hview (by simp))
  have hpwr : u.pwr = s.pwr := pwr_of_view (hview (by simp))
  exact ⟨_, hx, rfl, rfl, fun n => (hall n).trans (by simp only [List.mem_range]), hjobs, hhbm, hslips, hpwr⟩

/-! ### Throttling and trip -/

section
variable {s : State}

theorem hot_iff : (List.range 64).any (sensorHot s) = true ↔ ∃ j < 64, sensorHot s j = true := by
  simp

/-- A tick of throttling, where the tide runs (R328). -/
theorem exists_throttleTick (ht : s.clk.tide = .locked) {k : Nat}
    (hk : (if (List.range 64).any (sensorHot s) || decide (s.pwr.powerCap < s.aon.inputPower) then max (s.pwr.k - 1) 8
      else if 100 ≤ s.aon.coolRun && 1000 ≤ s.aon.lowRun then min (s.pwr.k + 1) 16 else s.pwr.k) = k) :
    ∃ t, exec .throttleTick s = .next t ∧ t.pwr = { s.pwr with k := k } ∧ t.quiet = { s with pwr := { s.pwr with k := k } }.quiet := by
  have hx : exec .throttleTick s = .next (settle (if ((s.pwr.k = 16) != (k = 16)) = true then
      raiseThrottle k ((List.range 64).any (sensorHot s)) { s with pwr := { s.pwr with k := k } }
      else { s with pwr := { s.pwr with k := k } })) := by
    rw [← hk]
    exact if_neg (by simp [ht])
  refine ⟨_, hx, ?_, ?_⟩
  · split
    · exact pwr_of_view (view_raiseThrottle _ _ _ (by simp))
    · rfl
  · split
    · exact (quiet_settle _).trans (quiet_of_view (view_raiseThrottle _ _ _ (by simp [loud])))
    · rfl

theorem exists_thermalTrip {i : Nat} (hi : i < 64) (htrip : (getMonitor s i).trip = true) (hval : (getMonitor s i).invalid = false)
    (hnot : s.aon.tripped = false) (hst : s.aon.stage = .railsOn) :
    ∃ t, exec (.thermalTrip i) s = .next t ∧ t.aon.tripped = true ∧ t.clk.coreDiv4 = true ∧ t.clk.datapath = .stopped ∧
      t.rctxs = [] ∧ t.octxs = [] ∧ t.xings = [] ∧ t.slips = [] ∧ t.lands = [] ∧ t.hawsers = [] ∧ t.hbm.mem = [] ∧
      t.net = State.reset.net ∧ t.jobs = s.jobs ∧ t.tide = s.tide := by
  generalize hv : failWaiting (moveSlips (s.slips.map Prod.fst) .down 4
    (if s.aon.collector then [⟨11, 1, i, ((getMonitor s i).value % 65536).toNat, 4⟩] else [])
    { s with aon := { s.aon with tripped := true } }) = v
  have hx : exec (.thermalTrip i) s = .next (settle { dropDataDomains v with clk := { (dropDataDomains v).clk with coreDiv4 := true } }) := by
    rw [← hv]
    exact if_neg (by simp [hi, htrip, hval, hnot, hst])
  have hview {ps : List Part} (hp : loud ++ [.serdes, .svcChanged, .lands, .slips, .hawsers] ⊆ ps) :
      view ps v = view ps { s with aon := { s.aon with tripped := true } } := by
    simp only [loud, List.cons_append, List.nil_append, List.cons_subset, List.nil_subset, and_true] at hp
    simp [← hv, hp]
  refine ⟨_, hx, ?_, rfl, rfl, rfl, rfl, rfl, rfl, rfl, rfl, rfl, rfl, ?_, ?_⟩
  · exact (congrArg AlwaysOn.tripped (island_of_view (hview (by simp [loud]))) :)
  · exact jobs_of_view (t := v) (s := { s with aon := { s.aon with tripped := true } }) (hview (by simp [loud]))
  · exact tide_of_view (t := v) (s := { s with aon := { s.aon with tripped := true } }) (hview (by simp [loud]))

end

/-- Settles O38. -/
theorem monitorsAndThrottling : Obligations.monitors_and_throttling := by
  refine ⟨fun s samples power current n i v => ⟨fun hon => ?_, fun hi hrun hnot hcol => ?_, fun h => ?_⟩,
    fun s i => ⟨fun ht hh => ?_, fun ht hh hc hl => ?_, fun ht hh hc => ?_, exists_thermalTrip⟩⟩
  · obtain ⟨t, hx, hp, hc, hm, hrest⟩ := exists_monitorSample samples power current hon
    refine ⟨t, hx, hp, hc, fun hn hv h1 h2 => ?_, fun hn hv => ?_, fun h1 h2 hv => ?_, fun h1 h2 hv => ?_, fun h => ?_, hrest⟩
    all_goals rw [hm]
    · rw [if_pos (by omega), hv, Option.map_some, Option.getD_some, sampled, if_pos hn, if_neg (by omega)]
      rfl
    · rw [if_pos (by omega)]
      rcases hv with hv | ⟨hv, hr⟩
      · rw [hv, Option.map_some, Option.getD_some, sampled, if_pos hn]
        rfl
      · rw [hv, Option.map_some, Option.getD_some, sampled, if_pos hn, if_pos hr]
        rfl
    · rw [if_pos (by omega), hv, Option.map_some, Option.getD_some, sampled, if_neg (by omega), if_pos h2]
    · rw [if_pos (by omega), hv, Option.map_some, Option.getD_some, sampled, if_neg (by omega), if_neg (by omega)]
    · rcases h with h | h
      · rw [if_neg (by omega)]
      · rw [List.getElem?_eq_none h]
        simp
  · exact if_pos (by simp [hi, hrun, hnot, hcol])
  · refine if_neg ?_
    rcases h with h | h
    · simp [h]
    · simp [h]
  · exact exists_throttleTick ht (if_pos (by simpa [hot_iff] using hh))
  · refine exists_throttleTick ht ((if_neg ?_).trans (if_pos (by simp [hc, hl])))
    simpa [hot_iff] using hh
  · have hk : (if (List.range 64).any (sensorHot s) || decide (s.pwr.powerCap < s.aon.inputPower) then max (s.pwr.k - 1) 8
        else if 100 ≤ s.aon.coolRun && 1000 ≤ s.aon.lowRun then min (s.pwr.k + 1) 16 else s.pwr.k) = s.pwr.k := by
      refine (if_neg ?_).trans (if_neg ?_)
      · simpa [hot_iff] using hh
      · simpa only [Bool.and_eq_true, decide_eq_true_eq, not_and_or, Nat.not_le] using hc
    simp only [exec, execThrottleTick, ht, hk, finish, bne_self_eq_false, Bool.false_eq_true, if_false]

/-! ### Idle units -/

section
variable (s : State) (u : PowerUnit) (p : IdleState)

theorem powerOf_setPower_same : powerOf (setPower u p s) u = p := by
  cases u with
  | landing l => exact congrArg Landing.power (tabGet_tabPut_same s.lands l { getLanding s l with power := p } Landing.reset)
  | deck => rfl
  | stack k => exact congrArg Stack.power (tabGet_tabPut_same s.hbm.stk k { getStack s k with power := p } Stack.reset)

theorem powerOf_setPower_ne {v : PowerUnit} (h : v ≠ u) : powerOf (setPower u p s) v = powerOf s v := by
  cases u with
  | landing l =>
    cases v with
    | landing k => exact congrArg Landing.power (tabGet_tabPut_ne s.lands _ Landing.reset (fun e => h (congrArg PowerUnit.landing e)))
    | deck => rfl
    | stack k => rfl
  | deck =>
    cases v with
    | landing k => rfl
    | deck => exact absurd rfl h
    | stack k => rfl
  | stack l =>
    cases v with
    | landing k => rfl
    | deck => rfl
    | stack k => exact congrArg Stack.power (tabGet_tabPut_ne s.hbm.stk _ Stack.reset (fun e => h (congrArg PowerUnit.stack e)))

theorem setPower_keeps : (setPower u p s).slips = s.slips ∧ (setPower u p s).hbm.mem = s.hbm.mem :=
  ⟨slips_of_view (view_setPower _ _ _ (by simp)), mem_of_view (view_setPower _ _ _ (by simp))⟩

end

/-- Settles O39. -/
theorem idleUnits : Obligations.idle_units := by
  refine fun s u => ⟨fun hr hup hidle hd hb => ?_, fun hup => ?_, fun hw => ?_⟩
  · exact ⟨_, if_pos (by simp [hr, hup, hidle, hd, hb]), powerOf_setPower_same _ _ _, fun v hv => powerOf_setPower_ne _ _ _ hv,
      setPower_keeps _ _ _⟩
  · have hp := powerOf_setPower_same s u ((powerOf s u).touch (now s))
    exact ⟨_, if_pos hup, (congrArg IdleState.waking hp :), (congrArg IdleState.idle hp :), (congrArg IdleState.lastWork hp :),
      fun v hv => powerOf_setPower_ne _ _ _ hv, setPower_keeps _ _ _⟩
  · exact ⟨_, if_pos hw, powerOf_setPower_same _ _ _, fun v hv => powerOf_setPower_ne _ _ _ hv, setPower_keeps _ _ _⟩

end Sys2Proof.Proofs

/-!
A landing's queues and sources. What the part originates enters a landing's sources behind those that wait; its virtual output queues
stay as they are.
-/
namespace Sys2Proof.Proofs
open Sys2Proof Sys2Proof.Machine Sys2Proof.Laws

section
variable (s : State) (l : Nat)

theorem getLanding_of_view {s t : State} (h : view (others [.lands]) t = view (others [.lands]) s) (l : Nat) :
    getLanding t l = getLanding s l :=
  congrArg (fun x => tabGet x l Landing.reset) (lands_of_view h)

@[simp] theorem getLanding_settle : getLanding (settle s) l = getLanding s l := rfl

theorem getLanding_modLanding_same (f : Landing → Landing) : getLanding (modLanding l f s) l =
    { f (getLanding s l) with power := (f (getLanding s l)).power.touch (now s) } := tabGet_tabPut_same _ _ _ _

theorem getLanding_modLanding_ne {k : Nat} (f : Landing → Landing) (h : k ≠ l) : getLanding (modLanding l f s) k = getLanding s k :=
  tabGet_tabPut_ne _ _ _ h

theorem voq_modLanding (k : Nat) (f : Landing → Landing) (hf : ∀ x, (f x).voq = x.voq) :
    (getLanding (modLanding k f s) l).voq = (getLanding s l).voq := by
  by_cases hk : l = k
  · subst hk
    rw [getLanding_modLanding_same]
    exact hf _
  · rw [getLanding_modLanding_ne _ _ _ hk]

@[simp] theorem voq_originateReps (k : Nat) (p : Packet) (reps : List Replica) (tag : Option EmitTag) :
    (getLanding (originateReps k p reps tag s) l).voq = (getLanding s l).voq := by
  unfold originateReps
  dsimp only
  split
  · rfl
  · exact voq_modLanding _ _ _ _ (fun _ => rfl)

@[simp] theorem voq_originate (k : Nat) (p : Packet) (d : Dest) (tag : Option EmitTag) :
    (getLanding (originate k p d tag s) l).voq = (getLanding s l).voq := voq_originateReps _ _ _ _ _ _

@[simp] theorem voq_originateMember (k h : Nat) (p : Packet) :
    (getLanding (originateMember k h p s) l).voq = (getLanding s l).voq := voq_originate _ _ _ _ _ _

@[simp] theorem voq_localWriteDone (status : Nat) (p : Packet) :
    (getLanding (localWriteDone status p s) l).voq = (getLanding s l).voq := by
  unfold localWriteDone
  split <;> simp

@[simp] theorem voq_sendDone (status : Nat) (p : Packet) : (getLanding (sendDone status p s) l).voq = (getLanding s l).voq := by
  unfold sendDone
  split
  · rfl
  · split <;> simp

@[simp] theorem getLanding_countPurser (i n : Nat) : getLanding (countPurser i n s) l = getLanding s l :=
  getLanding_of_view (view_countPurser _ _ _ (by simp)) _

@[simp] theorem getLanding_countLanding (k n : Nat) : getLanding (countLanding k n s) l = getLanding s l := getLanding_countPurser _ _ _ _

@[simp] theorem getLanding_emissionsLeft (e : Option EmitTag) (n : Nat) : getLanding (emissionsLeft e n s) l = getLanding s l :=
  getLanding_of_view (view_emissionsLeft _ _ _ (by simp)) _

@[simp] theorem getLanding_returnTag (p : Packet) (e : Option EmitTag) : getLanding (returnTag p e s) l = getLanding s l :=
  getLanding_of_view (view_returnTag _ _ _ (by simp)) _

@[simp] theorem getLanding_parityFault (row unit level : Nat) : getLanding (parityFault row unit level s) l = getLanding s l :=
  getLanding_of_view (view_parityFault _ _ _ _ (by simp)) _

@[simp] theorem voq_loseReplica (k : Nat) (q : Queued) (r : Replica) :
    (getLanding (loseReplica k q s r) l).voq = (getLanding s l).voq := by
  unfold loseReplica
  dsimp only
  split
  · split <;> simp
  · simp
  · rfl

end

/-! ### What is originated -/

section
variable (s : State) (k : Nat) (p : Packet)

theorem sources_modLanding_append (q : Sourced) : (getLanding (modLanding k (fun x => { x with sources := x.sources ++ [q] }) s) k).sources =
    (getLanding s k).sources ++ [q] := by
  rw [getLanding_modLanding_same]

/-- A packet with somewhere to go waits at the end of its landing's sources. -/
theorem sources_originateReps {reps : List Replica} (h : reps ≠ []) (tag : Option EmitTag) :
    (getLanding (originateReps k p reps tag s) (originLanding s k)).sources = (getLanding s (originLanding s k)).sources ++
      [{ pkt := p, reps := reps, multicast := decide (1 < reps.length), emit := tag }] := by
  unfold originateReps
  dsimp only
  rw [if_neg (by simpa using h)]
  exact sources_modLanding_append _ _ _

theorem sources_originate (d : Dest) (tag : Option EmitTag) :
    (getLanding (originate k p d tag s) (originLanding s k)).sources = (getLanding s (originLanding s k)).sources ++
      [{ pkt := p, reps := [{ dest := d, pkt := p, follow := none }], multicast := false, emit := tag }] :=
  sources_originateReps s k p (by simp) tag

/-- The sources only grow. -/
theorem sources_originate_subset (d : Dest) (tag : Option EmitTag) (l : Nat) :
    (getLanding s l).sources ⊆ (getLanding (originate k p d tag s) l).sources := by
  by_cases h : l = originLanding s k
  · subst h
    rw [sources_originate]
    exact List.subset_append_left _ _
  · intro q hq
    unfold originate originateReps
    dsimp only
    rw [if_neg (by simp), getLanding_modLanding_ne s _ _ h]
    exact hq

end

end Sys2Proof.Proofs

/-!
Lost units and parity failures (O40, O41).
-/
namespace Sys2Proof.Proofs
open Sys2Proof Sys2Proof.Machine Sys2Proof.Laws

/-! ### What runs after a completion -/

section
variable (s : State)

/-- Held-back commands start on cores that are up. -/
theorem mem_running_startWaiting (h : coresUp s ≠ []) (mac : Nat) :
    ∀ y ∈ (startWaiting mac s).host.running, y ∈ s.host.running ∨ y.core ∈ coresUp s := by
  unfold startWaiting
  refine (foldl_snd (fun u => u.units = s.units ∧ ∀ y ∈ u.host.running, y ∈ s.host.running ∨ y.core ∈ coresUp s) _ ?_ _ _
    ⟨rfl, fun y hy => .inl hy⟩).2
  intro a x ⟨hunits, hrun⟩
  dsimp only
  split
  · exact ⟨hunits, hrun⟩
  · refine ⟨hunits, fun y hy => ?_⟩
    have hup (v : State) (hv : v.units = a.2.units) : coresUp v = coresUp s := by
      simp only [coresUp, unitLost, hv, hunits]
    rcases List.mem_append.mp hy with hy | hy
    · exact hrun y hy
    · rw [List.mem_singleton.mp hy, ← hup { a.2 with svc := { a.2.svc with waiting := a.2.svc.waiting.erase x } } rfl]
      exact .inr (chooseCore_mem _ ((hup { a.2 with svc := { a.2.svc with waiting := a.2.svc.waiting.erase x } } rfl).symm ▸ h))

theorem mem_running_complete (h : coresUp s ≠ []) (r : Running) (status r0 r1 : Nat) (data : List Byte) :
    ∀ y ∈ (complete r status r0 r1 data s).host.running, y ∈ s.host.running ∨ y.core ∈ coresUp s := by
  cases hx : r.x.src with
  | ring q =>
    rw [running_complete_ring s hx]
    exact fun y hy => .inl hy
  | service mac =>
    unfold complete
    simp only [hx]
    generalize hu : keepCompletion mac r.x.cmd.tag _ _ = u
    have hrun : u.host.running = s.host.running := by
      rw [← hu]
      exact running_of_view (by simp)
    have hup : coresUp u = coresUp s := by
      have : u.units = s.units := by
        rw [← hu]
        exact units_of_view (by simp)
      simp only [coresUp, unitLost, this]
    rw [← hrun, ← hup]
    exact mem_running_startWaiting u (by rwa [hup]) mac

theorem grows_complete (r : Running) (status r0 r1 : Nat) (data : List Byte) : Grows s (complete r status r0 r1 data s) := by
  have hown {r : Running} (hr : r.orphan = false) : Grows s (complete r status r0 r1 data s) := by
    obtain ⟨out, hout, _⟩ := complete_answers s r status r0 r1 data hr
    exact .of_append hout
  cases hr : r.orphan with
  | false => exact hown hr
  | true =>
    cases hx : r.x.src with
    | ring q =>
      have : complete r status r0 r1 data s = countPurser 0x0001 1 s := by simp [complete, hx, hr]
      rw [this]
      exact grows_countPurser _ _ _
    | service mac =>
      have : complete r status r0 r1 data s = complete { r with orphan := false } status r0 r1 data s := by simp [complete, hx]
      rw [this]
      exact hown rfl

end

theorem replied_of_grows {x : Exec} {status r0 r1 : Nat} {t u : State} (h : Replied x status r0 r1 t) (hg : Grows t u) :
    Replied x status r0 r1 u := by
  obtain ⟨core, n, h⟩ := h
  refine ⟨core, n, ?_⟩
  cases hx : x.src with
  | ring q =>
    rw [hx] at h
    obtain ⟨a, h⟩ := h
    exact ⟨a, hg.subset h⟩
  | service mac =>
    rw [hx] at h
    obtain ⟨d, h⟩ := h
    exact ⟨d, hg.subset h⟩

/-! ### The commands of a lost core -/

/-- Commands that complete with one status, in turn. -/
def completeAll (status : Nat) (cs : List Running) (s : State) : State := cs.foldl (fun s r => complete r status 0 0 [] s) s

theorem coresUp_complete (s : State) (r : Running) (status r0 r1 : Nat) (data : List Byte) :
    coresUp (complete r status r0 r1 data s) = coresUp s := by
  have : (complete r status r0 r1 data s).units = s.units := units_of_view (by simp)
  simp only [coresUp, unitLost, this]

theorem mem_running_completeAll (status : Nat) (cs : List Running) {s : State} (h : coresUp s ≠ []) :
    ∀ y ∈ (completeAll status cs s).host.running, y ∈ s.host.running ∨ y.core ∈ coresUp s := by
  induction cs generalizing s with
  | nil => exact fun y hy => .inl hy
  | cons r cs ih =>
    intro y hy
    rcases ih (s := complete r status 0 0 [] s) (by rwa [coresUp_complete]) y hy with hy | hy
    · exact mem_running_complete s h r status 0 0 [] y hy
    · exact .inr (by rwa [coresUp_complete] at hy)

theorem replied_completeAll (status : Nat) {cs : List Running} {r : Running} (h : r ∈ cs) (hr : r.orphan = false) (s : State) :
    Replied r.x status 0 0 (completeAll status cs s) := by
  induction cs generalizing s with
  | nil => cases h
  | cons c cs ih =>
    rcases List.mem_cons.mp h with rfl | h
    · exact replied_of_grows (replied_of_answered (complete_answers s r status 0 0 [] hr))
        (grows_foldl _ (fun s c => grows_complete s c _ _ _ _) cs _)
    · exact ih h _

/-- A core that fails leaves no command of its own among those that run, and completes each with FAULTED. -/
theorem failCore_eq (c : Nat) (s : State) : ∃ cs u, failCore c s = completeAll stFaulted cs u ∧ u.units = s.units ∧
    u.host.running = s.host.running.filter (fun r => !(r.core == c)) ∧ s.host.running.filter (fun r => r.core == c) ⊆ cs := by
  refine ⟨_, _, rfl, ?_, ?_, ?_⟩
  · split <;> rfl
  · split <;> rfl
  · intro r hr
    simp only [List.append_assoc]
    exact List.mem_append_left _ hr

/-! ### The bytes of a lost stack -/

theorem stackOf_eq_iff (a k : Nat) : stackOf a = k ↔ k * (60 * 2 ^ 30) ≤ a ∧ a < k * (60 * 2 ^ 30) + 60 * 2 ^ 30 := by
  unfold stackOf
  omega

theorem find?_dropCells {m : List Host.Cell} {a lo hi : Nat} (h : a < lo ∨ hi ≤ a) :
    (dropCells m lo hi).find? (fun c => c.1 == a) = m.find? (fun c => c.1 == a) := by
  unfold dropCells
  rw [List.find?_filter]
  congr 1
  funext c
  by_cases hc : c.1 = a
  · simp [hc, h]
  · simp [hc]

theorem view_loseStack_mem (k : Nat) (s : State) :
    view (others [.mem, .island]) (loseStack k s) = view (others [.mem, .island])
      { s with hbm := { s.hbm with mem := dropCells s.hbm.mem (k * (60 * 2 ^ 30)) (k * (60 * 2 ^ 30) + 60 * 2 ^ 30) } } := by
  have hdrop (x : Tab Stack) (w : List RecordWrite) (m : List Host.Cell) :
      view (others [.mem, .island]) { s with hbm := { s.hbm with mem := m, stk := x, writes := w } } =
      view (others [.mem, .island]) { s with hbm := { s.hbm with mem := m } } := by
    simp [view, viewHbm]
  unfold loseStack
  dsimp only
  rw [view_mailboxRecord _ (by simp), view_requeueWaits _ (by simp), view_foldl _ (fun s o => by simp),
    view_raiseFault _ _ _ _ _ _ (by simp), view_foldl _ (fun s o => by split <;> simp)]
  exact hdrop _ _ _

/-! ### The slips of a lost engine -/

/-- Several slips change state, in turn. -/
def changeSlips (ns : List Nat) (new : SlipState) (reason : Nat) (s : State) : State :=
  ns.foldl (fun s n => changeSlip n new reason s) s

/-- The slips of a group change state in turn; then what that raises is raised. -/
theorem moveSlips_eq (ns : List Nat) (new : SlipState) (reason : Nat) (fs : List Raise) (s : State) :
    ∃ gs, moveSlips ns new reason fs s = raiseAll gs (changeSlips ns new reason s) := by
  have h (ns : List Nat) (a : State × List Raise) : (ns.foldl (fun (a : State × List Raise) n =>
      let s := changeSlip n new reason a.1
      (s, a.2 ++ slipFaults n (getSlip a.1 n).state new reason s)) a).1 = changeSlips ns new reason a.1 := by
    induction ns generalizing a with
    | nil => rfl
    | cons n ns ih => exact ih _
  exact ⟨_, congrArg (raiseAll _) (h ns (s, fs))⟩

theorem getSlip_changeSlip_down_fields (s : State) (n m reason : Nat) : (getSlip (changeSlip m .down reason s) n).engineDead =
    (getSlip s n).engineDead ∧ ((getSlip s n).state = .down ∨ n = m → (getSlip (changeSlip m .down reason s) n).state = .down) := by
  by_cases h : n = m
  · subst h
    obtain ⟨c, x, seeds, _, he⟩ := getSlip_changeSlip_down s n reason
    rw [he]
    exact ⟨rfl, fun _ => rfl⟩
  · rw [getSlip_changeSlip_ne s h]
    exact ⟨rfl, fun hd => hd.resolve_right h⟩

/-- Slips that go DOWN together are DOWN; whether a slip's engine is dead stays. -/
theorem getSlip_changeSlips_down (s : State) (n reason : Nat) (ns : List Nat) :
    (getSlip (changeSlips ns .down reason s) n).engineDead = (getSlip s n).engineDead ∧
    ((getSlip s n).state = .down ∨ n ∈ ns → (getSlip (changeSlips ns .down reason s) n).state = .down) := by
  induction ns generalizing s with
  | nil => exact ⟨rfl, fun h => h.resolve_right List.not_mem_nil⟩
  | cons m ns ih =>
    obtain ⟨hdead, hstate⟩ := getSlip_changeSlip_down_fields s n m reason
    obtain ⟨hdead', hstate'⟩ := ih (changeSlip m .down reason s)
    refine ⟨hdead'.trans hdead, fun h => hstate' ?_⟩
    rcases h with h | h
    · exact .inl (hstate (.inl h))
    · exact (List.mem_cons.mp h).imp (fun e => hstate (.inr e)) id

/-- The slips whose engine is dead. -/
def killSlips (ns : List Nat) (s : State) : State := ns.foldl (fun s n => modSlip n (fun p => { p with engineDead := true }) s) s

theorem getSlip_killSlips (s : State) (n : Nat) (ns : List Nat) (h : (getSlip s n).engineDead = true ∨ n ∈ ns) :
    (getSlip (killSlips ns s) n).engineDead = true := by
  induction ns generalizing s with
  | nil => exact h.resolve_right List.not_mem_nil
  | cons m ns ih =>
    refine ih _ ?_
    by_cases hm : n = m
    · subst hm
      exact .inl (by rw [getSlip_modSlip_same])
    · rw [getSlip_modSlip_ne s hm]
      exact h.imp_right (fun h => (List.mem_cons.mp h).resolve_left hm)

theorem loseEngine_eq (k detail : Nat) (s : State) : ∃ gs, loseEngine k detail s =
    raiseAll gs (changeSlips ((List.range 8).map (8 * k + ·)) .down 6 (modEngine k (fun e => { e with state := 2 })
      (killSlips ((List.range 8).map (8 * k + ·)) s))) := by
  obtain ⟨gs, h⟩ := moveSlips_eq ((List.range 8).map (8 * k + ·)) .down 6 [⟨0, 1, k, detail, 3⟩]
    (modEngine k (fun e => { e with state := 2 }) (killSlips ((List.range 8).map (8 * k + ·)) s))
  refine ⟨gs, ?_⟩
  rw [← h]
  unfold loseEngine killSlips
  rw [List.foldl_map]

theorem view_changeSlips {ps : List Part} (ns : List Nat) (new : SlipState) (reason : Nat) (s : State)
    (hp : [.serdes, .events, .eventSeq, .purser, .svcChanged, .lands, .slips, .hawsers, .freeCount, .outbox] ⊆ ps) :
    view ps (changeSlips ns new reason s) = view ps s :=
  view_foldl _ (fun s n => view_changeSlip _ _ _ _ hp) _ _

@[simp] theorem getEngine_settle (s : State) (k : Nat) : getEngine (settle s) k = getEngine s k := rfl

/-- The engine of a lost unit is in STATE 2, and its slips are DOWN, not to train again. -/
theorem loseEngine_fields (k detail : Nat) (s : State) : (getEngine (loseEngine k detail s) k).state = 2 ∧
    ∀ n, n / 8 = k → (getSlip (loseEngine k detail s) n).engineDead = true ∧ (getSlip (loseEngine k detail s) n).state = .down := by
  obtain ⟨gs, he⟩ := loseEngine_eq k detail s
  rw [he]
  generalize hu : modEngine k (fun e => { e with state := 2 }) (killSlips ((List.range 8).map (8 * k + ·)) s) = u
  refine ⟨?_, fun n hn => ?_⟩
  · have hoptics : (raiseAll gs (changeSlips ((List.range 8).map (8 * k + ·)) .down 6 u)).optics = u.optics :=
      optics_of_view ((view_raiseAll _ _ (by simp)).trans (view_changeSlips _ _ _ _ (by simp)))
    rw [getEngine, hoptics, ← hu]
    exact congrArg Engine.state (getEngine_modEngine_same _ k _)
  · have hn' : n ∈ (List.range 8).map (8 * k + ·) :=
      List.mem_map.mpr ⟨n % 8, List.mem_range.mpr (Nat.mod_lt _ (by decide)), by omega⟩
    have hdead : (getSlip u n).engineDead = true := by
      rw [← hu]
      exact getSlip_killSlips s n _ (.inr hn')
    obtain ⟨hd, hs⟩ := getSlip_changeSlips_down u n 6 ((List.range 8).map (8 * k + ·))
    rw [getSlip_raiseAll]
    exact ⟨hd.trans hdead, hs (.inr hn')⟩

/-! ### Units that are lost -/

section
variable {s : State} {k : Nat}

theorem loseUnit_of_lost {u : UnitRef} (h : unitLost s u = true) (d : Nat) : loseUnit u d s = s := by
  unfold loseUnit
  exact if_pos (by rw [h, Bool.true_or])

theorem exec_engineLost (h : unitWatched s (.engine k) = true) (laser : Bool) :
    exec (.engineLost k laser) s = .next (settle (loseUnit (.engine k) (b2n laser) s)) := if_pos h

/-- The detection that a heartbeat's timeout notes. -/
def heartbeatDetail : UnitRef → Nat
  | .engine _ => 0
  | _ => 2

theorem exec_unitHeartbeatTimeout {u : UnitRef} (h : unitWatched s u = true) : exec (.unitHeartbeatTimeout u) s =
    .next (settle (loseUnit u (heartbeatDetail u) s)) := by
  cases u <;> exact if_pos h

/-- What goes with a unit that is lost. -/
def loseHeld (u : UnitRef) (d : Nat) (s : State) : State :=
  match u with
  | .laneGroup g => loseLaneGroup g d s
  | .stack k => loseStack k s
  | .engine k => loseEngine k d s
  | .landing l => loseLanding l d s
  | .core c => failCore c (raiseFault 12 0 c d 3 s)
  | .sha3 e => raiseFault 13 0 e 0 0 s
  | .mldsa => s

/-- A unit that is there and not lost is noted first; then what it held goes. -/
theorem loseUnit_of_up {u : UnitRef} (hl : unitLost s u = false) (he : unitExists u = true) (d : Nat) :
    loseUnit u d s = loseHeld u d { s with units := s.units ++ [(u, d)] } := by
  have h : ¬ (unitLost s u || !unitExists u) = true := by simp [hl, he]
  rw [loseUnit, if_neg h]
  rfl

theorem coresUp_of_units {t : State} (h : t.units = s.units) : coresUp t = coresUp s := by
  simp only [coresUp, unitLost, h]

/-- A lost core: its commands complete with FAULTED (R294). -/
theorem failCore_fields (k : Nat) (s : State) : coresUp (failCore k s) = coresUp s ∧
    (coresUp s ≠ [] → ∀ y ∈ (failCore k s).host.running, y.core ≠ k ∨ y.core ∈ coresUp s) ∧
    ∀ r ∈ s.host.running, r.core = k → r.orphan = false → Replied r.x stFaulted 0 0 (failCore k s) := by
  obtain ⟨cs, v, hv, hunits, hrun, hown⟩ := failCore_eq k s
  have hups : coresUp v = coresUp s := coresUp_of_units hunits
  rw [hv]
  refine ⟨?_, fun hne y hy => ?_, fun r hr hrk ho => ?_⟩
  · exact coresUp_of_units ((units_of_view (view_foldl _ (fun s r => by simp) _ _)).trans hunits)
  · rcases mem_running_completeAll stFaulted cs (hups.symm ▸ hne) y hy with h | h
    · rw [hrun] at h
      exact .inl (by simpa using (List.mem_filter.mp h).2)
    · exact .inr (hups ▸ h)
  · exact replied_completeAll stFaulted (hown (List.mem_filter.mpr ⟨hr, by simp [hrk]⟩)) ho v

theorem not_mem_coresUp (h : (UnitRef.core k, 2) ∈ s.units) : k ∉ coresUp s := by
  intro hk
  have : unitLost s (.core k) = true := List.any_eq_true.mpr ⟨_, h, by simp⟩
  simp [coresUp, this] at hk

theorem exists_coreLost (hc : s.aon.collector = true) (hk : k < 16) (hl : unitLost s (.core k) = false) (r : Running) :
    ∃ t, exec (.unitHeartbeatTimeout (.core k)) s = .next t ∧
      k ∉ coresUp t ∧ (coresUp t ≠ [] → ∀ y ∈ t.host.running, y.core ≠ k) ∧ t.hbm = s.hbm ∧ t.slips = s.slips ∧
      (r ∈ s.host.running → r.core = k → r.orphan = false → Replied r.x stFaulted 0 0 t) := by
  generalize hv : { s with units := s.units ++ [(UnitRef.core k, 2)] } = v
  generalize hu : raiseFault 12 0 k 2 3 v = u
  have hx : loseUnit (.core k) 2 s = failCore k u :=
    (loseUnit_of_up (u := .core k) hl (by simpa [unitExists] using hk) 2).trans (by rw [hv, ← hu]; rfl)
  refine ⟨settle (failCore k u), hx ▸ exec_unitHeartbeatTimeout (u := .core k) (by simp [unitWatched, hc]), ?_⟩
  have hview {ps : List Part} (hp : [.fatal, .events, .eventSeq, .records, .purser, .accts, .outbox] ⊆ ps) : view ps u = view ps v := by
    rw [← hu]
    exact view_raiseFault _ _ _ _ _ _ hp
  have hrun : u.host.running = s.host.running := (running_of_view (hview (by simp))).trans (by rw [← hv])
  have hdown : k ∉ coresUp u := not_mem_coresUp (by rw [units_of_view (hview (by simp)), ← hv]; simp)
  obtain ⟨hups, hleft, hreply⟩ := failCore_fields k u
  refine ⟨fun h => hdown (hups ▸ h), fun hne y hy => ?_, ?_, ?_, fun hr => hreply r (hrun.symm ▸ hr)⟩
  · exact (hleft (fun h => hne (hups.trans h)) y hy).elim id (fun h hyk => hdown (hyk ▸ h))
  · exact (hbm_of_view ((view_failCore _ _ (by simp)).trans (hview (by simp)))).trans (by rw [← hv])
  · exact (slips_of_view ((view_failCore _ _ (by simp)).trans (hview (by simp)))).trans (by rw [← hv])

/-- A lost stack: its bytes are gone (R117). -/
theorem loseStack_fields (k : Nat) (s : State) : (∀ c ∈ (loseStack k s).hbm.mem, stackOf c.1 ≠ k) ∧
    ∀ a, stackOf a ≠ k → readByte (loseStack k s) a = readByte s a := by
  have hview := view_loseStack_mem k s
  refine ⟨fun c hc hst => ?_, fun a ha => ?_⟩
  · rw [mem_of_view (view_of_subset hview (others_subset (by simp)))] at hc
    have := (List.mem_filter.mp hc).2
    rw [stackOf_eq_iff] at hst
    simp at this
    omega
  · refine (congrFun (readByte_of_view _ hview) a).trans ?_
    have : a < k * (60 * 2 ^ 30) ∨ k * (60 * 2 ^ 30) + 60 * 2 ^ 30 ≤ a := by
      have := (stackOf_eq_iff a k).not.mp ha
      omega
    simp only [readByte, find?_dropCells this]

theorem not_mem_landingsUp (h : (UnitRef.landing k, 2) ∈ s.units) : k ∉ landingsUp s := by
  intro hk
  have : unitLost s (.landing k) = true := List.any_eq_true.mpr ⟨_, h, by simp⟩
  simp [landingsUp, this] at hk

end

/-- Settles O40. -/
theorem lostUnits : Obligations.lost_units := by
  intro s u k r laser
  dsimp only
  refine ⟨fun hw he hl => ?_, fun hw hl => ?_, fun hc hk hl => exists_coreLost hc hk hl r, fun hc hk hl => ?_, fun hw hk hl => ?_,
    fun hw hk hl => ?_, fun hw hk hl => ?_⟩
  · refine ⟨_, exec_unitHeartbeatTimeout hw, ?_, jobs_of_view (view_loseUnit _ _ _ (by simp)), tide_of_view (view_loseUnit _ _ _ (by simp))⟩
    have h : ¬ (unitLost s u || !unitExists u) = true := by simp [show unitLost s u = false from hl, he]
    have hunits := (units_loseUnit s u (heartbeatDetail u)).trans (if_neg h)
    cases u <;> exact hunits
  · rw [exec_unitHeartbeatTimeout hw, loseUnit_of_lost hl]
  · rw [exec_unitHeartbeatTimeout (u := .sha3 k) (by simp [unitWatched, hc]),
      loseUnit_of_up (u := .sha3 k) hl (by simpa [unitExists] using hk)]
    rfl
  · generalize hv : { s with units := s.units ++ [(UnitRef.stack k, 2)] } = v
    have hx : loseUnit (.stack k) 2 s = loseStack k v := (loseUnit_of_up (u := .stack k) hl (by simpa [unitExists] using hk) 2).trans (by rw [hv]; rfl)
    obtain ⟨hgone, hrest⟩ := loseStack_fields k v
    refine ⟨settle (loseStack k v), hx ▸ exec_unitHeartbeatTimeout hw, hgone, ?_⟩
    subst hv
    exact hrest
  · generalize hv : { s with units := s.units ++ [(UnitRef.landing k, 2)] } = v
    have hx : loseUnit (.landing k) 2 s = loseLanding k 2 v :=
      (loseUnit_of_up (u := .landing k) hl (by simpa [unitExists] using hk) 2).trans (by rw [hv]; rfl)
    refine ⟨settle (loseLanding k 2 v), hx ▸ exec_unitHeartbeatTimeout hw, not_mem_landingsUp ?_, ?_⟩
    · have hunits : (loseLanding k 2 v).units = v.units := units_of_view (view_loseLanding _ _ _ (by simp))
      rw [show (settle (loseLanding k 2 v)).units = _ from hunits, ← hv]
      simp
    · exact (hbm_of_view (view_loseLanding _ _ _ (by simp))).trans (by rw [← hv])
  · generalize hv : { s with units := s.units ++ [(UnitRef.engine k, b2n laser)] } = v
    have hx : loseUnit (.engine k) (b2n laser) s = loseEngine k (b2n laser) v :=
      (loseUnit_of_up (u := .engine k) hl (by simpa [unitExists] using hk) (b2n laser)).trans (by rw [hv]; rfl)
    obtain ⟨hstate, hslips⟩ := loseEngine_fields k (b2n laser) v
    have hunits : (loseEngine k (b2n laser) v).units = v.units := units_of_view (view_loseEngine _ _ _ (by simp))
    have hhbm : (loseEngine k (b2n laser) v).hbm = v.hbm := hbm_of_view (view_loseEngine _ _ _ (by simp))
    have hexec := exec_engineLost hw laser
    rw [hx] at hexec
    generalize loseEngine k (b2n laser) v = w at hexec hstate hslips hunits hhbm
    refine ⟨settle w, hexec, hunits.trans ?_, hstate, hslips, hhbm.trans ?_⟩
    · subst hv
      cases laser <;> rfl
    · rw [← hv]

/-! ### Crossings that go DOWN -/

section
variable (s : State) (x : Crossing)

/-- Whether an entry is of the same crossing. -/
def SameXing (x y : Crossing) : Prop := y.landing = x.landing ∧ y.peer = x.peer ∧ y.peerLanding = x.peerLanding

theorem mem_modXing {f : Crossing → Crossing} {P : Crossing → Prop} (hP : ∀ z, P (f z)) {y : Crossing}
    (hy : y ∈ (modXing x.landing x.peer x.peerLanding f s).xings) (hsame : SameXing x y) : P y := by
  obtain ⟨z, hz, rfl⟩ := List.mem_map.mp hy
  split
  · exact hP z
  case isFalse h =>
    rw [if_neg h] at hsame
    obtain ⟨hl, hp, hpl⟩ := hsame
    exact absurd (by simp [hl, hp, hpl]) h

/-- A crossing that goes DOWN is DOWN, wherever it is listed. -/
theorem xings_xingDown (h : x.state ≠ .down) (lane : Nat) :
    ∀ y ∈ (xingDown x lane s).xings, SameXing x y → y.state = .down := by
  intro y hy hsame
  unfold xingDown at hy
  rw [if_neg h] at hy
  dsimp only at hy
  rw [xings_of_view (view_raiseFault _ _ _ _ _ _ (by simp)), xings_of_view (view_raiseEvent _ _ _ _ (by simp)),
    xings_of_view (view_refuseWaiting _ _ (by simp))] at hy
  exact mem_modXing _ x (P := fun y => y.state = .down) (fun _ => rfl) hy hsame

end

/-! ### Parity failures -/

section
variable (s : State)

/-- A queued packet that is lost leaves its queue. -/
theorem voq_loseQueued (l entry : Nat) : ∀ q ∈ (getLanding (loseQueued l entry s) l).voq, q.id ≠ entry := by
  unfold loseQueued
  split
  case h_1 hnone => simpa using List.find?_eq_none.mp hnone
  case h_2 q hq =>
    dsimp only
    rw [getLanding_parityFault]
    rw [foldl_keeps _ (fun u => (getLanding u l).voq) (fun u r => voq_loseReplica u l l q r)]
    rw [getLanding_modLanding_same]
    intro k hk
    simpa using (List.mem_filter.mp hk).2

theorem exec_parityFailed (loc : ParityLoc) (ecc : EccResult) (h : parityStack s loc = none) :
    exec (.parityFailure loc .failed ecc) s = .next (settle (disposeParity loc (countPurser 0x0006 1 s))) := by
  simp only [exec, execParityFailure, h, finish]

theorem unitLost_countPurser (i n : Nat) (u : UnitRef) : unitLost (countPurser i n s) u = unitLost s u := by
  simp only [unitLost, units_of_view (view_countPurser i n s (ps := others [.units]) (by simp))]

/-- A unit that a parity failure takes is lost with detection 1. -/
theorem exists_parityLoss {u : UnitRef} {loc : ParityLoc} (ecc : EccResult) (h : parityStack s loc = none)
    (hloc : ∀ t, disposeParity loc t = loseUnit u 1 t) (he : unitExists u = true) (hl : unitLost s u = false) :
    ∃ t, exec (.parityFailure loc .failed ecc) s = .next t ∧ t.units = s.units ++ [(u, 1)] := by
  refine ⟨_, exec_parityFailed s loc ecc h, ?_⟩
  rw [hloc]
  have hc : ¬ (unitLost (countPurser 0x0006 1 s) u || !unitExists u) = true := by simp [unitLost_countPurser, hl, he]
  refine ((units_loseUnit _ u 1).trans (if_neg hc)).trans ?_
  rw [units_of_view (view_countPurser 0x0006 1 s (by simp))]

/-- What a stack's error correction reports is counted for its stack. -/
def eccNoted (loc : ParityLoc) (ecc : EccResult) : State := ((parityStack s loc).map (fun k => countEcc k ecc s)).getD s

theorem exec_parityFailure (loc : ParityLoc) (r : ParityResult) (ecc : EccResult) : exec (.parityFailure loc r ecc) s =
    .next (settle (match r with
      | .ok => eccNoted s loc ecc
      | .retryOk => countPurser 0x0005 1 (eccNoted s loc ecc)
      | .failed => disposeParity loc (countPurser 0x0006 1 (eccNoted s loc ecc)))) := by
  simp only [exec, execParityFailure, eccNoted]
  cases parityStack s loc <;> cases r <;> rfl

theorem view_eccNoted {ps : List Part} (loc : ParityLoc) (ecc : EccResult) (hp : [.events, .eventSeq, .purser, .outbox] ⊆ ps) :
    view ps (eccNoted s loc ecc) = view ps s := by
  unfold eccNoted
  cases parityStack s loc with
  | none => rfl
  | some k => exact view_countEcc _ _ _ hp

end

/-- Settles O41. -/
theorem parityFailures : Obligations.parity_failures := by
  intro s loc r ecc l e k lane x
  dsimp only
  refine ⟨exec_parityFailure s loc .ok ecc, exec_parityFailure s loc .retryOk ecc, ⟨_, exec_parityFailure s loc r ecc, ?_⟩,
    ⟨_, exec_parityFailed s _ ecc rfl, voq_loseQueued _ l e⟩, exec_parityFailed s _ ecc rfl, fun hk hl => ?_, fun hk hl => ?_,
    fun hx hd => ?_⟩
  · have hview : view (others [.jobs, .tide, .sentT1, .pending]) (match r with
        | .ok => eccNoted s loc ecc
        | .retryOk => countPurser 0x0005 1 (eccNoted s loc ecc)
        | .failed => disposeParity loc (countPurser 0x0006 1 (eccNoted s loc ecc))) = view (others [.jobs, .tide, .sentT1, .pending]) s := by
      cases r with
      | ok => exact view_eccNoted _ _ _ (by simp)
      | retryOk => exact (view_countPurser _ _ _ (by simp)).trans (view_eccNoted _ _ _ (by simp))
      | failed =>
        exact (view_disposeParity _ _ (by simp)).trans ((view_countPurser _ _ _ (by simp)).trans (view_eccNoted _ _ _ (by simp)))
    exact ⟨jobs_of_view (view_of_subset hview (others_subset (by simp))), tide_of_view (view_of_subset hview (others_subset (by simp))),
      pending_of_view (view_of_subset hview (others_subset (by simp)))⟩
  · exact exists_parityLoss s ecc rfl (fun _ => rfl) (by simpa [unitExists] using hk) hl
  · exact exists_parityLoss s ecc rfl (fun _ => rfl) (by simpa [unitExists] using hk) hl
  · refine ⟨_, exec_parityFailed s _ ecc rfl, ?_⟩
    have hfind : findXing (countPurser 0x0006 1 s) x.landing x.peer x.peerLanding = some x := by
      rw [findXing, xings_of_view (view_countPurser 0x0006 1 s (by simp))]
      exact hx
    have hdispose : disposeParity (.copyOrHeld x.landing x.peer x.peerLanding lane) (countPurser 0x0006 1 s) =
        parityFault 1 x.landing 2 (xingDown x lane (countPurser 0x0006 1 s)) := by
      simp only [disposeParity, hfind]
    rw [hdispose]
    intro y hy hl hp hpl
    have hxings : (parityFault 1 x.landing 2 (xingDown x lane (countPurser 0x0006 1 s))).xings =
      (xingDown x lane (countPurser 0x0006 1 s)).xings := xings_of_view (view_parityFault _ _ _ _ (by simp))
    exact xings_xingDown _ x hd lane y (hxings ▸ hy) ⟨hl, hp, hpl⟩

end Sys2Proof.Proofs

/-!
Reduction contexts: what the movement of the window leaves of them, and the Reduction commands (O26).
-/
namespace Sys2Proof.Proofs
open Sys2Proof Sys2Proof.Machine Sys2Proof.Laws

theorem tabHas_of_keys {α : Type} {a b : Tab α} (h : a.map Prod.fst = b.map Prod.fst) (k : Nat) : tabHas a k = tabHas b k := by
  have hk (t : Tab α) : tabHas t k = (t.map Prod.fst).any (· == k) := by
    simp only [tabHas, tabGet?, Option.isSome_map, List.any_map]
    rw [Bool.eq_iff_iff]
    simp
  rw [hk, hk, h]

theorem tabHas_tabDel_same {α : Type} (t : Tab α) (k : Nat) : tabHas (tabDel t k) k = false := by
  simp [tabHas, tabGet?_tabDel_same]

theorem tabHas_tabDel_ne {α : Type} (t : Tab α) {k j : Nat} (h : j ≠ k) : tabHas (tabDel t k) j = tabHas t j := by
  simp [tabHas, tabGet?_tabDel_ne t h]

theorem rctx_modRctx_of_get {s : State} {c : Nat} {r : Rctx} (h : tabGet? s.rctxs c = some r) (f : Rctx → Rctx) :
    tabGet? (modRctx c f s).rctxs c = some (f r) := by
  rw [rctx_modRctx_same, h, Option.map_some]

theorem octx_modOctx_of_get {s : State} {n : Nat} {o : Octx} (h : tabGet? s.octxs n = some o) (f : Octx → Octx) :
    tabGet? (modOctx n f s).octxs n = some (f o) := by
  rw [octx_modOctx_same, h, Option.map_some]

/-! ### What a context keeps -/

/-- Something that is read of a reduction context. -/
def rctxGet {α : Type} (g : Rctx → α) (c : Nat) (s : State) : Option α := (tabGet? s.rctxs c).map g

section
variable {α : Type} (g : Rctx → α) (c : Nat) (s : State)

theorem rctxGet_of_get {r : Rctx} (h : tabGet? s.rctxs c = some r) : rctxGet g c s = some (g r) := by
  simp [rctxGet, h]

theorem exists_of_rctxGet {a : α} (h : rctxGet g c s = some a) : ∃ r, tabGet? s.rctxs c = some r ∧ g r = a :=
  Option.map_eq_some_iff.mp h

theorem rctxGet_of_rctxs {t : State} (h : t.rctxs = s.rctxs) : rctxGet g c t = rctxGet g c s := by simp only [rctxGet, h]

/-- What does not depend on the accounts of audit records stays where nothing else of the contexts changed. -/
theorem rctxGet_of_view {s t : State} (h : view (others [.rctxs, .rctxVals]) t = view (others [.rctxs, .rctxVals]) s)
    (hg : ∀ (r : Rctx) a, g { r with acct := a } = g r) : rctxGet g c t = rctxGet g c s := by
  cases hx : tabGet? s.rctxs c with
  | none => rw [rctxGet, rctxGet, rctx_none_of_view h hx, hx]
  | some r =>
    obtain ⟨a, ha⟩ := rctx_of_view h hx
    rw [rctxGet, rctxGet, ha, hx, Option.map_some, Option.map_some, hg]

theorem rctxGet_modRctx (k : Nat) (f : Rctx → Rctx) (hf : ∀ r, tabGet? s.rctxs k = some r → g (f r) = g r) :
    rctxGet g c (modRctx k f s) = rctxGet g c s := by
  by_cases h : c = k
  · subst h
    rw [rctxGet, rctxGet, rctx_modRctx_same]
    cases hr : tabGet? s.rctxs c with
    | none => rfl
    | some r => exact congrArg some (hf r hr)
  · rw [rctxGet, rctxGet, rctx_modRctx_ne _ _ _ h]

@[simp] theorem rctxs_toSlot (r : Rctx) (slot num chunk : Nat) (body : Nat → Body) : (toSlot r slot num chunk body s).rctxs = s.rctxs :=
  rctxs_of_view (view_toSlot _ _ _ _ _ _ (by simp))

/-- What of a context does not depend on which CREDITs are due and sent. -/
def PastCredits (g : Rctx → α) : Prop := ∀ (r : Rctx) due sent, g { r with creditDue := due, creditSent := sent } = g r

variable {g} (hg : PastCredits g)
include hg

theorem rctxGet_sendCredit (k slot : Nat) : rctxGet g c (sendCredit k slot s) = rctxGet g c s := by
  unfold sendCredit
  split
  · rfl
  · dsimp only
    split
    · rw [rctxGet_of_rctxs _ _ _ (rctxs_toSlot _ _ _ _ _ _)]
      exact rctxGet_modRctx _ _ _ _ _ (fun r _ => hg r _ _)
    · rfl

theorem rctxGet_dueCredit (k slot : Nat) : rctxGet g c (dueCredit k slot s) = rctxGet g c s := by
  unfold dueCredit
  split
  · rfl
  · split
    · exact rctxGet_sendCredit c s hg k slot
    · exact rctxGet_modRctx _ _ _ _ _ (fun r _ => hg r _ _)

theorem rctxGet_creditAll (k : Nat) : rctxGet g c (creditAll k s) = rctxGet g c s := by
  unfold creditAll
  split
  · rfl
  · exact foldl_keeps _ (rctxGet g c) (fun s i => rctxGet_dueCredit c s hg k i) _ _

/-- The window moves on: what depends neither on it nor on the credits stays. -/
theorem rctxGet_advanceWindow (k : Nat) (hmove : ∀ r n, g (retireOps (advanceBase n r)) = g r) :
    rctxGet g c (advanceWindow k s) = rctxGet g c s := by
  unfold advanceWindow
  split
  · rfl
  case h_2 r hr =>
    split
    · rfl
    · dsimp only
      have hmod := rctxGet_modRctx g c s k (fun _ => retireOps (advanceBase r.released.length r))
        (fun r' hr' => by rw [hr] at hr'; cases hr'; exact hmove _ _)
      split
      · exact hmod
      · exact (rctxGet_creditAll c _ hg k).trans hmod

end

/-- The parts of a context that a movement of its window leaves: what it was made from, its slots, its positions, its optimizer context. -/
def standing (r : Rctx) : RDesc × Nat × Tab Position × Option Nat × Tab Credit :=
  (r.d, r.enabled, r.positions, r.octx, r.credits)

theorem standing_advanceBase (n : Nat) (r : Rctx) : standing (advanceBase n r) = standing r := by
  induction n generalizing r with
  | zero => rfl
  | succ n ih =>
    unfold advanceBase
    split
    · exact ih _
    · rfl

theorem standing_closePeriod (r : Rctx) : standing (closePeriod r) = standing r := by
  unfold closePeriod
  split <;> rfl

theorem standing_retireOps (r : Rctx) : standing (retireOps r) = standing r := by
  unfold retireOps
  dsimp only
  split
  · exact standing_closePeriod r
  · rfl

theorem standing_advanceWindow (c k : Nat) (s : State) : rctxGet standing c (advanceWindow k s) = rctxGet standing c s :=
  rctxGet_advanceWindow c s (fun _ _ _ => rfl) k (fun r n => (standing_retireOps _).trans (standing_advanceBase n r))

/-! ### The Reduction commands -/

theorem Admitted.rctxs {s u : State} (h : Admitted s u) : u.rctxs = s.rctxs := h.of_host State.rctxs (fun _ _ _ => rfl)

theorem exists_rctxDestroy {x : Exec} {s : State} (h : Accepts x (rowRctxDestroy x) s) : ∃ t, exec (.rctxDestroy x) s = .next t ∧
    Answered x stOk 0 0 [] s t ∧ tabHas t.rctxs (param x 0 2) = false ∧
    (∀ k, k ≠ param x 0 2 → tabHas t.rctxs k = tabHas s.rctxs k) ∧ t.jobs = s.jobs ∧ t.hbm = s.hbm ∧ t.net = s.net ∧ t.slips = s.slips := by
  obtain ⟨u, rn, hu, hx, hrun, he⟩ := exec_of_accepts h _ (.rctxDestroy x) rfl
  dsimp only [Effect.ok] at he
  generalize ((tabGet? u.rctxs (param x 0 2)).map (fun r => r.positions.map Prod.fst)).getD [] = qs at he
  generalize hv : ({ withdraw (param x 0 2) qs u with rctxs := tabDel u.rctxs (param x 0 2) } : State) = v at he
  have hview {ps : List Part} (hp : [.lands, .xings, .accts, .rctxVals, .rctxs] ⊆ ps) : view ps v = view ps u := by
    simp only [List.cons_subset, List.nil_subset, and_true] at hp
    rw [← hv, view_with_rctxs _ (by simp [viewRctxs, hp]), view_withdraw _ _ _ (by simp [hp])]
  have hkeys : (settle (complete rn stOk 0 0 [] v)).rctxs.map Prod.fst = v.rctxs.map Prod.fst := rctxKeys_of_view (by simp)
  have hdel : v.rctxs = tabDel s.rctxs (param x 0 2) := by
    rw [← hv, ← hu.rctxs]
  refine ⟨_, he, answered_complete hx hrun _ _ _ _ ?_, ?_, fun k hk => ?_, ?_, ?_, ?_, ?_⟩
  · exact (outbox_of_view (hview (by simp))).trans (hu.of_host State.outbox (fun _ _ _ => rfl))
  · rw [tabHas_of_keys hkeys, hdel, tabHas_tabDel_same]
  · rw [tabHas_of_keys hkeys, hdel, tabHas_tabDel_ne _ hk]
  · simp only [settle_fields, complete_fields]
    exact (jobs_of_view (hview (by simp))).trans (hu.of_host State.jobs (fun _ _ _ => rfl))
  · simp only [settle_fields, complete_fields]
    exact (hbm_of_view (hview (by simp))).trans (hu.of_host State.hbm (fun _ _ _ => rfl))
  · simp only [settle_fields, complete_fields]
    exact (net_of_view (hview (by simp))).trans (hu.of_host State.net (fun _ _ _ => rfl))
  · simp only [settle_fields, complete_fields]
    exact (slips_of_view (hview (by simp))).trans (hu.of_host State.slips (fun _ _ _ => rfl))

theorem done_rctxQuery {x : Exec} {s : State} {r : Rctx} (h : Accepts x (rowRctxQuery x) s) (hr : tabGet? s.rctxs (param x 0 2) = some r) :
    ∃ data, field data 0 2 = param x 0 2 ∧ field data 2 1 = rstateCode r.state ∧ bytesAt data 4 2 = le 2 r.w ∧
      Done (.rctxQuery x) x 0 0 data s s := by
  obtain ⟨v, hv, hown⟩ := own_of_accepts h
  have hnone : (jobRctx v x (param x 0 2)).isNone = false := hown _ stState (fun _ hf => hf) (by decide)
  have hjob : jobRctx s x (param x 0 2) = some r := by
    refine jobRctx_of_get hr ?_
    rw [← hv.of_host (fun s => jobRctx s x (param x 0 2)) (fun _ _ _ => rfl)]
    simpa using hnone
  have hd := done_of_query h _ (.rctxQuery x) rfl (fun u hu => by
    have hju : jobRctx u x (param x 0 2) = some r := (hu.of_host (fun s => jobRctx s x (param x 0 2)) (fun _ _ _ => rfl)).trans hjob
    simp only [hju, hjob, Effect.ok, and_self])
  rw [hjob] at hd
  refine ⟨_, ?_, ?_, ?_, hd⟩
  · have hlt : param x 0 2 < 65536 := param_lt _ _ _
    simp [field, bytesAt_fit, bytesAt_append_left, bytesAt_all, Nat.mod_eq_of_lt hlt]
  · have hlt : rstateCode r.state < 256 := by cases r.state <;> decide
    simp [field, bytesAt_fit, bytesAt_append_left, bytesAt_append_right, bytesAt_all, Nat.mod_eq_of_lt hlt]
  · simp [bytesAt_fit, bytesAt_append_left, bytesAt_append_right, bytesAt_all]

/-- What a re-form of a context leaves of it: its descriptor; the slots enabled are those of the map. -/
theorem rctx_applyReform {s : State} {ctx : Nat} {r : Rctx} (map : Nat) (hr : tabGet? s.rctxs ctx = some r) :
    ∃ r', tabGet? (applyReform ctx map s).rctxs ctx = some r' ∧ r'.enabled = map ∧ r'.d = r.d := by
  have hget (v : State) (y : Rctx) (hv : tabGet? v.rctxs ctx = some y) (he : y.enabled = map) (hd : y.d = r.d) (gone : List (Nat × Position)) :
      ∃ r', tabGet? (advanceWindow ctx (gone.foldl (fun s p => (setBits r.d.slots map).foldl (fun s i =>
        toSlot r i p.2.op p.2.chunk (fun c => .resend c p.2.op p.2.chunk) s) s) v)).rctxs ctx = some r' ∧ r'.enabled = map ∧ r'.d = r.d := by
    have hfold : (gone.foldl (fun s p => (setBits r.d.slots map).foldl (fun s i =>
        toSlot r i p.2.op p.2.chunk (fun c => .resend c p.2.op p.2.chunk) s) s) v).rctxs = v.rctxs :=
      foldl_keeps _ State.rctxs (fun s p => foldl_keeps _ State.rctxs (fun s i => rctxs_toSlot _ _ _ _ _ _) _ _) _ _
    have hst := standing_advanceWindow ctx ctx (gone.foldl (fun s p => (setBits r.d.slots map).foldl (fun s i =>
        toSlot r i p.2.op p.2.chunk (fun c => .resend c p.2.op p.2.chunk) s) s) v)
    rw [rctxGet_of_rctxs standing ctx _ hfold, rctxGet_of_get _ _ _ hv] at hst
    obtain ⟨r', hr', hs⟩ := exists_of_rctxGet _ _ _ hst
    simp only [standing, Prod.mk.injEq] at hs
    obtain ⟨hd', he', _⟩ := hs
    exact ⟨r', hr', he'.trans he, hd'.trans hd⟩
  unfold applyReform
  rw [hr]
  refine hget _ _ (rctx_modRctx_of_get (r := r) ?_ _) ?_ ?_ _
  · rw [rctxs_of_view (view_withdraw _ _ _ (by simp))]
    exact hr
  · rfl
  · rfl

/-- Settles O26. -/
theorem reductionCommands : Obligations.reduction_commands := by
  intro x s r
  dsimp only
  refine ⟨fun h => ⟨?_, rfl, rfl, rfl, ?_⟩, exists_rctxDestroy, done_rctxQuery, fun h hr => ?_⟩
  · exact (done_of_runCmd h _ (.rctxCreate x) rfl (fun _ => rfl) (fun _ _ => rfl) (fun _ _ => rfl) (fun _ _ => rfl) :)
  · obtain ⟨u, hu, hown⟩ := own_of_accepts h
    have hfree := hown _ stState (fun _ hf => List.mem_append_left _ (List.mem_append_right _ hf)) (by decide)
    simp only [Bool.or_eq_false_iff] at hfree
    rw [← hu.rctxs]
    exact hfree.1.1
  · obtain ⟨u, rn, hu, hx, hrun, he⟩ := exec_of_accepts h _ (.rctxReform x) rfl
    have hru : tabGet? u.rctxs (param x 0 2) = some r := hu.rctxs ▸ hr
    simp only [hru, Effect.ok, Option.map_some, Option.getD_some] at he
    obtain ⟨r', hr', hen, hd⟩ := rctx_applyReform (leNat (desc x)) hru
    obtain ⟨a, ha⟩ := rctx_of_view (view_complete rn stOk _ 0 [] _ (by simp)) hr'
    exact ⟨_, _, he, replied_complete hx hrun _ _ _ _ _, ha, hen, hd⟩

end Sys2Proof.Proofs

/-!
The Optimizer commands, and the commit of a step (O27, O28).
-/
namespace Sys2Proof.Proofs
open Sys2Proof Sys2Proof.Machine Sys2Proof.Laws

theorem Admitted.octxs {s u : State} (h : Admitted s u) : u.octxs = s.octxs := h.of_host State.octxs (fun _ _ _ => rfl)

/-- The optimizer context that a command names in its own job. -/
theorem jobOctx_of_get {s : State} {x : Exec} {n : Nat} {o : Octx} (ho : tabGet? s.octxs n = some o) (h : (jobOctx s x n).isSome = true) :
    jobOctx s x n = some o := by
  unfold jobOctx at h ⊢
  simp only [ho, Option.bind_some] at h ⊢
  split
  · rfl
  · simp_all

/-! ### The Optimizer commands -/

/-- A context's records that wait are written; those of no other are. -/
theorem writes_flushWrites (n : Nat) (s : State) : (flushWrites n s).hbm.writes = s.hbm.writes.filter (fun w => w.octx != n) := by
  unfold flushWrites
  dsimp only
  rw [foldl_keeps (fun s (w : RecordWrite) => writeBytes w.addr w.bytes s) (fun s => s.hbm.writes) (fun _ _ => rfl)]

theorem writes_discardHeld (ctx : Nat) (all : Bool) (s : State) : (discardHeld ctx all s).hbm.writes ⊆ s.hbm.writes := by
  unfold discardHeld
  split
  · exact fun _ h => h
  · dsimp only
    rw [foldl_keeps _ (fun s => s.hbm.writes) (fun s q => writes_of_view (view_releasePosition _ _ _ (by simp)))]
    exact List.filter_subset_self _

theorem exists_octxDestroy {x : Exec} {s : State} (h : Accepts x (rowOctxDestroy x) s) : ∃ t, exec (.octxDestroy x) s = .next t ∧
    Replied x stOk 0 0 t ∧ tabHas t.octxs (param x 0 2) = false ∧ (∀ w ∈ t.hbm.writes, w.octx ≠ param x 0 2) ∧ t.jobs = s.jobs ∧
    t.net = s.net := by
  obtain ⟨w, hw, hown⟩ := own_of_accepts h
  obtain ⟨u, rn, hu, hx, hrun, he⟩ := exec_of_accepts h _ (.octxDestroy x) rfl
  obtain ⟨o, ho⟩ : ∃ o, tabGet? u.octxs (param x 0 2) = some o := by
    rw [hu.octxs, ← hw.octxs]
    cases hj : jobOctx w x (param x 0 2) with
    | none => exact absurd (hown true stState (fun f hf => by simpa [rowOctxDestroy, hj] using hf) (by decide)) (by simp)
    | some o =>
      unfold jobOctx at hj
      cases hg : tabGet? w.octxs (param x 0 2) with
      | none => simp [hg] at hj
      | some o => exact ⟨o, rfl⟩
  simp only [ho, Effect.ok] at he
  generalize hd : discardHeld o.d.rctx true (flushWrites (param x 0 2) u) = d at he
  generalize hv : modRctx o.d.rctx (fun r => { r with octx := none, period := none, dots := [] })
    (mapImages (fun im => if im.octx = param x 0 2 then none else some im) d) = v at he
  have hview {ps : List Part} (hp : [.lands, .rctxs, .accts, .rctxVals, .deck, .mem, .stk, .writes, .octxs, .octxVals] ⊆ ps) :
      view ps ({ v with octxs := tabDel v.octxs (param x 0 2) } : State) = view ps u := by
    simp only [List.cons_subset, List.nil_subset, and_true] at hp
    rw [view_with_octxs _ (by simp [viewOctxs, hp]), ← hv, view_modRctx _ _ _ (by simp [hp]), view_mapImages _ _ (by simp [hp]), ← hd,
      view_discardHeld _ _ _ (by simp [hp]), view_flushWrites _ _ (by simp [hp])]
  have hwrites : v.hbm.writes ⊆ u.hbm.writes.filter (fun w => w.octx != param x 0 2) := by
    rw [← writes_flushWrites, ← hv]
    show d.hbm.writes ⊆ _
    rw [← hd]
    exact writes_discardHeld _ _ _
  refine ⟨_, he, replied_complete hx hrun _ _ _ _ _, ?_, fun w hw => ?_, ?_, ?_⟩
  · rw [tabHas_of_keys (octxKeys_of_view (s := { v with octxs := tabDel v.octxs (param x 0 2) }) (by simp))]
    exact tabHas_tabDel_same _ _
  · simp only [settle_fields, complete_fields] at hw
    simpa using (List.mem_filter.mp (hwrites hw)).2
  · simp only [settle_fields, complete_fields]
    exact (jobs_of_view (hview (by simp))).trans (hu.of_host State.jobs (fun _ _ _ => rfl))
  · simp only [settle_fields, complete_fields]
    exact (net_of_view (hview (by simp))).trans (hu.of_host State.net (fun _ _ _ => rfl))

theorem done_octxQuery {x : Exec} {s : State} {o : Octx} (h : Accepts x (rowOctxQuery x) s) (ho : tabGet? s.octxs (param x 0 2) = some o) :
    ∃ data, field data 0 2 = param x 0 2 ∧ field data 2 1 = ostateCode o.state ∧ bytesAt data 8 8 = le 8 o.s ∧
      Done (.octxQuery x) x 0 0 data s s := by
  have hd := done_of_query h _ (.octxQuery x) rfl (fun u hu => by
    rcases hu with ⟨l, rfl⟩ | ⟨l, rfl⟩ <;> (simp only [ho]; exact ⟨rfl, rfl, rfl, rfl⟩))
  simp only [ho] at hd
  refine ⟨_, ?_, ?_, ?_, hd⟩
  · have hlt : param x 0 2 < 65536 := param_lt _ _ _
    simp [field, bytesAt_fit, bytesAt_append_left, bytesAt_all, Nat.mod_eq_of_lt hlt]
  · have hlt : ostateCode o.state < 256 := by cases o.state <;> decide
    simp [field, bytesAt_fit, bytesAt_append_left, bytesAt_append_right, bytesAt_all, Nat.mod_eq_of_lt hlt]
  · simp [bytesAt_fit, bytesAt_append_left, bytesAt_append_right, bytesAt_all]

/-- Settles O27. -/
theorem optimizerCommands : Obligations.optimizer_commands := by
  intro x s o
  dsimp only
  refine ⟨fun h => ⟨?_, rfl, rfl, rfl, rfl, ?_⟩, exists_octxDestroy, done_octxQuery, fun h => ?_⟩
  · exact (done_of_runCmd h _ (.octxCreate x) rfl (fun _ => rfl) (fun _ _ => rfl) (fun _ _ => rfl) (fun _ _ => rfl) :)
  · obtain ⟨u, hu, hown⟩ := own_of_accepts h
    have hfree := hown _ stState (fun _ hf => List.mem_append_left _ (List.mem_append_left _ (List.mem_append_right _ hf))) (by decide)
    simp only [Bool.or_eq_false_iff] at hfree
    rw [← hu.octxs]
    exact hfree.1.1
  · exact (done_of_runCmd h _ (.reshardFence x) rfl (fun _ => rfl) (fun _ _ => rfl) (fun _ _ => rfl) (fun _ _ => rfl) :)

/-! ### The outbox only grows -/

theorem grows_of_view {s t : State} (h : view (others [.outbox]) t = view (others [.outbox]) s) : Grows s t := .of_eq (outbox_of_view h)

theorem grows_placeChunk (ctx q : Nat) (s : State) : Grows s (placeChunk ctx q s) := by
  unfold placeChunk
  split
  · exact .refl s
  case h_2 r hr =>
    split
    · dsimp only
      split
      · exact Grows.trans (t := countJob r.d.job 14 s) (grows_countPurser s _ _) (grows_of_view (by simp))
      · split
        · exact grows_of_view (by simp)
        · split
          · exact grows_of_view (by simp)
          · exact grows_of_view (by simp)
    · exact .refl s

theorem grows_recheckHeld (ctx : Nat) (s : State) : Grows s (recheckHeld ctx s) := by
  unfold recheckHeld
  split
  · exact .refl s
  · exact grows_foldl _ (fun s p => grows_placeChunk _ _ s) _ _

/-! ### The commit of a step -/

theorem rctx_some_of_view {s t : State} (h : view (others [.rctxs]) t = view (others [.rctxs]) s) {c : Nat} {r : Rctx}
    (hr : tabGet? s.rctxs c = some r) : ∃ r', tabGet? t.rctxs c = some r' := by
  have hk : tabHas t.rctxs c = tabHas s.rctxs c := tabHas_of_keys (rctxKeys_of_view h) c
  exact Option.isSome_iff_exists.mp (hk.trans (by simp [tabHas, hr]))

/-- A confirmed context without a fence has no more to confirm. -/
theorem confirmIfHeld_of_confirmed {s : State} {n : Nat} {o : Octx} (ho : tabGet? s.octxs n = some o) (hc : o.confirmed = true) :
    confirmIfHeld n s = s := by
  unfold confirmIfHeld
  simp [ho, hc]

theorem fenceNow_of_none {s : State} {n : Nat} {o : Octx} (ho : tabGet? s.octxs n = some o) (hf : o.fence = none) : fenceNow n s = s := by
  unfold fenceNow
  simp [ho, hf]

/-- How the commit of a confirmed context without a fence ends: its command is answered, and the context stays. -/
theorem commit_ends {u : State} {n : Nat} {o : Octx} {y : Running} (ho : tabGet? u.octxs n = some o) (hc : o.confirmed = true)
    (hf : o.fence = none) (horphan : y.orphan = false) (v c : Nat) :
    ∃ a, tabGet? (confirmIfHeld n (recheckHeld c (fenceNow n (complete y stOk v 0 [] u)))).octxs n = some { o with acct := a } ∧
      Replied y.x stOk v 0 (confirmIfHeld n (recheckHeld c (fenceNow n (complete y stOk v 0 [] u)))) := by
  obtain ⟨a, ha⟩ := octx_of_view (view_complete y stOk v 0 [] u (by simp)) ho
  rw [fenceNow_of_none ha hf]
  obtain ⟨b, hb⟩ := octx_of_view (view_recheckHeld c (complete y stOk v 0 [] u) (by simp)) ha
  rw [confirmIfHeld_of_confirmed hb hc]
  exact ⟨b, hb, replied_of_grows (replied_of_answered (complete_answers u y stOk v 0 [] horphan)) (grows_recheckHeld _ _)⟩

@[simp] theorem octxs_queueRecord (s : State) (r : RecordIn) : (queueRecord r s).octxs = s.octxs := rfl

theorem octx_restartAccount {s : State} {n : Nat} {o : Octx} (h : tabGet? s.octxs n = some o) (c : Nat) :
    tabGet? (restartAccount n c s).octxs n = some { o with acct := Account.start s, leaves := [] } := by
  unfold restartAccount
  dsimp only
  rw [octxs_modRctx]
  exact octx_modOctx_of_get h _

/-- A sealed step of a context without peers and without a fence commits (R110, R111): the version is the next, the context OPEN, and
the command that waited is answered. -/
theorem commitStep_alone {s : State} {n : Nat} {o : Octx} {r : Rctx} {y : Running} (ho : tabGet? s.octxs n = some o)
    (hr : tabGet? s.rctxs o.d.rctx = some r) (hp : o.d.peers = []) (hf : o.fence = none) (hy : o.command = some y)
    (horphan : y.orphan = false) : ∃ o', tabGet? (commitStep n s).octxs n = some o' ∧ o'.state = .opened ∧ o'.s = o.s + 1 ∧
      o'.confirmed = true ∧ o'.command = none ∧ o'.prev = o.cur ∧ Replied y.x stOk (o.s + 1) 0 (commitStep n s) := by
  unfold commitStep
  simp only [ho, hr, hp, hy, List.isEmpty_nil, List.length_nil, List.range_zero, List.foldl_nil, if_true]
  generalize hu : restartAccount n o.d.rctx (queueRecord _ _) = u
  have hget : ∃ o1, tabGet? u.octxs n = some o1 ∧ o1.state = .opened ∧ o1.s = o.s + 1 ∧ o1.confirmed = true ∧ o1.command = none ∧
      o1.prev = o.cur ∧ o1.fence = none := by
    rw [← hu]
    refine ⟨_, octx_restartAccount (o := ?o) ?hmod _, ?_⟩
    case hmod =>
      rw [octxs_queueRecord]
      exact octx_modOctx_of_get ho _
    exact ⟨rfl, rfl, rfl, rfl, rfl, hf⟩
  obtain ⟨o1, ho1, hst, hs, hconf, hcmd, hprev, hfence⟩ := hget
  generalize hw : raiseEvent 112 (some o.d.job) _ u = w
  obtain ⟨a, ha⟩ := octx_of_view (t := w) (by rw [← hw]; exact view_raiseEvent _ _ _ _ (by simp)) ho1
  obtain ⟨b, hb, hreply⟩ := commit_ends (n := n) ha hconf hfence horphan (o.s + 1) o.d.rctx
  exact ⟨_, hb, hst, hs, hconf, hcmd, hprev, hreply⟩

theorem sealIfWritten_of_sealed {s : State} {n : Nat} {o : Octx} (ho : tabGet? s.octxs n = some o) (h : o.sealedStep = true) :
    sealIfWritten n s = s := by
  unfold sealIfWritten
  simp only [ho, h, Bool.true_or, if_true]
  split <;> rfl

theorem sealIfWritten_of_unwritten {s : State} {n : Nat} {o : Octx} {r : Rctx} (ho : tabGet? s.octxs n = some o)
    (hr : tabGet? s.rctxs o.d.rctx = some r) (h : ∃ c ∈ localChunks r o, (getChunk o c.1 c.2).written = false) : sealIfWritten n s = s := by
  unfold sealIfWritten
  have hall : (localChunks r o).all (fun c => (getChunk o c.1 c.2).written) = false := by
    rw [List.all_eq_false]
    obtain ⟨c, hc, hw⟩ := h
    exact ⟨c, hc, by simp [hw]⟩
  simp only [ho, hr, hall, Bool.not_false, Bool.or_true, if_true]

/-- A commit waits while the step is not sealed. -/
theorem afterWrite_of_unsealed {s : State} {n : Nat} {o : Octx} (ho : tabGet? s.octxs n = some o) (hs : o.sealedStep = false)
    (hseal : sealIfWritten n s = s) : afterWrite n s = s := by
  unfold afterWrite
  simp only [hseal, ho, hs, Bool.and_false, Bool.false_and, Bool.false_eq_true, if_false]

/-- A context without peers needs none to agree. -/
theorem afterWrite_of_sealed {s : State} {n : Nat} {o : Octx} (ho : tabGet? s.octxs n = some o) (hst : o.state = .committing)
    (hs : o.sealedStep = true) (hready : o.sentReady = false) (hp : o.d.peers = []) : ∃ v o', afterWrite n s = commitStep n v ∧
      tabGet? v.octxs n = some o' ∧ v.rctxs = s.rctxs ∧ (∃ b, o' = { o with sentReady := b }) := by
  have hsend : ∃ v o', sendReady n s = v ∧ tabGet? v.octxs n = some o' ∧ v.rctxs = s.rctxs ∧ ∃ b, o' = { o with sentReady := b } := by
    unfold sendReady
    simp only [ho]
    split
    · exact ⟨_, _, rfl, ho, rfl, o.sentReady, rfl⟩
    · simp only [hp, List.length_nil, List.range_zero, List.foldl_nil]
      exact ⟨_, _, rfl, octx_modOctx_of_get ho _, rfl, true, rfl⟩
  obtain ⟨v, o', hv, ho', hr, b, hb⟩ := hsend
  refine ⟨v, o', ?_, ho', hr, b, hb⟩
  unfold afterWrite
  simp only [sealIfWritten_of_sealed ho hs, ho, hst, hs, hready, beq_self_eq_true, Bool.not_false, Bool.and_self, if_true, hv]
  unfold tryCommit
  subst hb
  simp [ho', hst, hs, hp]

/-! ### Rolling back -/

theorem exists_stepRollback {x : Exec} {s : State} {o : Octx} {r : Rctx} (h : Accepts x (rowStepRollback x) s)
    (ho : tabGet? s.octxs (param x 0 2) = some o) (hr : tabGet? s.rctxs o.d.rctx = some r) :
    ∃ t o', exec (.stepRollback x) s = .next t ∧ Replied x stOk (param x 8 8) 0 t ∧
      tabGet? t.octxs (param x 0 2) = some o' ∧ o'.s = param x 8 8 ∧ o'.sealedStep = false ∧ (o.state ≠ .halted → o'.state = .opened) ∧
      t.audit.signQueue.length = s.audit.signQueue.length + 1 := by
  obtain ⟨w, hw, hown⟩ := own_of_accepts h
  have hjob : jobOctx w x (param x 0 2) = some o := by
    refine jobOctx_of_get (hw.octxs ▸ ho) ?_
    cases hj : jobOctx w x (param x 0 2) with
    | none => exact absurd (hown true stState (fun f hf => by simpa [rowStepRollback, hj] using hf) (by decide)) (by simp)
    | some o => rfl
  have hstep : param x 8 8 = o.s ∨ param x 8 8 + 1 = o.s := by
    have hsub := hown (o.state == .fenced || !(param x 8 8 == o.s || param x 8 8 + 1 == o.s) ||
      !((tabGet? w.rctxs o.d.rctx).map (fun r => versionWhole w r o (param x 8 8) &&
        (param x 8 8 == o.s || chunksWritten r o == 0))).getD false) stState
      (fun f hf => by
        simp only [rowStepRollback, hjob]
        exact List.mem_append_left _ hf) (by decide)
    simp only [Bool.or_eq_false_iff, Bool.not_eq_false', Bool.or_eq_true, beq_iff_eq] at hsub
    exact hsub.1.2
  obtain ⟨u, rn, hu, hx, hrun, he⟩ := exec_of_accepts h _ (.stepRollback x) rfl
  have hou : tabGet? u.octxs (param x 0 2) = some o := hu.octxs ▸ ho
  have hru : tabGet? u.rctxs o.d.rctx = some r := hu.rctxs ▸ hr
  simp only [hou, Effect.ok] at he
  generalize hback : (param x 8 8 != o.s) = back at he
  generalize hd : mapImages _ (discardHeld o.d.rctx true (flushWrites (param x 0 2) u)) = d at he
  have hview {ps : List Part} (hp : [.lands, .accts, .rctxVals, .deck, .mem, .stk, .writes] ⊆ ps) : view ps d = view ps u := by
    simp only [List.cons_subset, List.nil_subset, and_true] at hp
    rw [← hd, view_mapImages _ _ (by simp [hp]), view_discardHeld _ _ _ (by simp [hp]), view_flushWrites _ _ (by simp [hp])]
  obtain ⟨a, hod⟩ := octx_of_view (hview (by simp)) hou
  obtain ⟨r', hrd⟩ := rctx_some_of_view (hview (by simp)) hru
  have haudit : d.audit = s.audit := (audit_of_view (hview (by simp))).trans (hu.of_host State.audit (fun _ _ _ => rfl))
  generalize hm : modRctx o.d.rctx _ (modOctx (param x 0 2) (Octx.rolledBack back) d) = m at he
  have hom : tabGet? m.octxs (param x 0 2) = some (Octx.rolledBack back { o with acct := a }) := by
    rw [← hm, octxs_modRctx]
    exact octx_modOctx_of_get hod _
  obtain ⟨r'', hrm⟩ : ∃ r'', tabGet? m.rctxs o.d.rctx = some r'' := by
    rw [← hm]
    exact ⟨_, rctx_modRctx_of_get (s := modOctx _ _ d) hrd _⟩
  have ham : m.audit = s.audit := by rw [← haudit, ← hm]; rfl
  simp only [hom, hrm] at he
  generalize hrec : stepRecord r'' _ _ _ _ _ _ _ _ _ = rec_ at he
  have hend := octx_restartAccount (s := queueRecord rec_ m) (n := param x 0 2) (by rw [octxs_queueRecord]; exact hom) o.d.rctx
  obtain ⟨b, hb⟩ := octx_of_view (t := settle (complete rn stOk (param x 8 8) 0 [] (raiseEvent 113 (some o.d.job) _
    (restartAccount (param x 0 2) o.d.rctx (queueRecord rec_ m))))) (by simp) hend
  refine ⟨_, _, he, replied_complete hx hrun _ _ _ _ _, hb, ?_, rfl, fun hst => ?_, ?_⟩
  · show (if back = true then o.s - 1 else o.s) = _
    rw [← hback]
    rcases hstep with hv | hv
    · simp [hv]
    · have hne : (param x 8 8 != o.s) = true := by simp; omega
      rw [hne, if_pos rfl]
      omega
  · exact if_neg hst
  · have hq : (restartAccount (param x 0 2) o.d.rctx (queueRecord rec_ m)).audit = (queueRecord rec_ m).audit := rfl
    rw [audit_of_view (s := restartAccount (param x 0 2) o.d.rctx (queueRecord rec_ m)) (by simp), hq, ← ham]
    exact List.length_append

/-- Settles O28. -/
theorem stepCommands : Obligations.step_commands := by
  intro x s o r n ho hr
  refine ⟨fun h hs hw => ?_, fun h hs hready hp hf => ?_, fun h => exists_stepRollback h ho hr⟩
  · obtain ⟨u, y, hu, hx, hrun, he⟩ := execLater_of_accepts h _ (.stepCommit x) rfl
    have hou := octx_modOctx_of_get (s := u) (n := n) (hu.octxs ▸ ho) (fun o =>
      { o with state := .committing, command := some y, deadline := now u + BitVec.ofNat 64 (1000 * o.d.beaconTimeout) })
    have hseal := sealIfWritten_of_unwritten hou (r := r) (by exact hu.rctxs ▸ hr) hw
    rw [afterWrite_of_unsealed hou hs hseal] at he
    refine ⟨_, y, _, he, hou, rfl, rfl, rfl, hx, ?_, rfl, ?_, ?_⟩
    · exact congrArg (fun t => t + _) (hu.of_host now (fun _ _ _ => rfl))
    · exact hu.of_host State.outbox (fun _ _ _ => rfl)
    · exact hu.of_host State.hbm (fun _ _ _ => rfl)
  · obtain ⟨u, y, hu, hx, hrun, he⟩ := execLater_of_accepts h _ (.stepCommit x) rfl
    have hou := octx_modOctx_of_get (s := u) (n := n) (hu.octxs ▸ ho) (fun o =>
      { o with state := .committing, command := some y, deadline := now u + BitVec.ofNat 64 (1000 * o.d.beaconTimeout) })
    obtain ⟨v, o', hv, ho', hrv, b, hb⟩ := afterWrite_of_sealed hou rfl hs hready hp
    subst hb
    obtain ⟨o2, h2, hst, hs2, hconf, hcmd, hprev, hreply⟩ := commitStep_alone ho' (r := r) (by rw [hrv]; exact hu.rctxs ▸ hr) hp hf rfl hrun
    rw [hv] at he
    exact ⟨_, o2, he, h2, hst, hs2, hconf, hcmd, hprev, hx ▸ hreply⟩

end Sys2Proof.Proofs

/-!
Lanes: bring-up (O42) and what the lanes receive (O43).
-/
namespace Sys2Proof.Proofs
open Sys2Proof Sys2Proof.Machine Sys2Proof.Laws

section
variable {s t : State} {slip : Nat}

/-- What touches one slip's lanes, and else only events, counters and faults. -/
theorem lanesOnly_of_view (h : view (.slips :: loud) t = view (.slips :: loud) s) (hne : ∀ n, n ≠ slip → getSlip t n = getSlip s n) :
    LanesOnly slip s t := ⟨quiet_slips_of_view h, hne⟩

theorem laneCounted_countLane (k m : Nat) : LaneCounted slip k m s (countLane slip k m s) := by
  unfold LaneCounted
  rw [getSlip_countLane_same]
  dsimp only
  rw [tabGet_tabPut_same]
  rfl

theorem linkCounted_countLink (k m : Nat) : LinkCounted slip k m s (countLink slip k m s) := by
  unfold LinkCounted
  rw [getSlip_countLink_same]
  dsimp only
  rw [tabGet_tabPut_same]
  rfl

end

/-! ### Training frames -/

section
variable (s : State) (slip pos : Nat)

theorem training_setTraining (f : Training → Training) :
    training (getSlip (setTraining slip pos f s) slip) pos = f (training (getSlip s slip) pos) := by
  unfold setTraining training
  rw [getSlip_modSlip_same]
  by_cases h : pos = 0 <;> simp [h]

theorem getSlip_setTraining_fields (f : Training → Training) :
    (getSlip (setTraining slip pos f s) slip).step = (getSlip s slip).step ∧
    (getSlip (setTraining slip pos f s) slip).state = (getSlip s slip).state ∧
    (getSlip (setTraining slip pos f s) slip).rx = (getSlip s slip).rx := by
  unfold setTraining
  rw [getSlip_modSlip_same]
  split <;> exact ⟨rfl, rfl, rfl⟩

@[simp] theorem getSlip_setTraining_ne {n : Nat} (h : n ≠ slip) (f : Training → Training) :
    getSlip (setTraining slip pos f s) n = getSlip s n := getSlip_modSlip_ne s h _

@[simp] theorem getSlip_modRx_ne {n : Nat} (h : n ≠ slip) (f : LaneRx → LaneRx) : getSlip (modRx slip f s) n = getSlip s n :=
  getSlip_modSlip_ne s h _

@[simp] theorem getSlip_modTx_ne {n : Nat} (h : n ≠ slip) (f : LaneTx → LaneTx) : getSlip (modTx slip f s) n = getSlip s n :=
  getSlip_modSlip_ne s h _

@[simp] theorem getSlip_modRx_same (f : LaneRx → LaneRx) :
    getSlip (modRx slip f s) slip = { getSlip s slip with rx := f (getSlip s slip).rx } := getSlip_modSlip_same _ _ _

@[simp] theorem getSlip_modTx_same (f : LaneTx → LaneTx) :
    getSlip (modTx slip f s) slip = { getSlip s slip with tx := f (getSlip s slip).tx } := getSlip_modSlip_same _ _ _

/-- A control field that is acted on leaves the frames counted, and what the receiver knows. -/
theorem takeField_keeps (b : List Byte) :
    (training (getSlip (takeField slip pos b s) slip) pos).frames = (training (getSlip s slip) pos).frames ∧
    (getSlip (takeField slip pos b s) slip).step = (getSlip s slip).step ∧
    (getSlip (takeField slip pos b s) slip).state = (getSlip s slip).state ∧
    (getSlip (takeField slip pos b s) slip).rx = (getSlip s slip).rx := by
  unfold takeField
  dsimp only
  rw [getSlip_modTx_same]
  have htrain (p : Slip) (x : LaneTx) : training { p with tx := x } pos = training p pos := rfl
  rw [htrain, training_setTraining]
  exact ⟨rfl, getSlip_setTraining_fields (fresh 64 s).2 slip pos _⟩

@[simp] theorem getSlip_takeField_ne {n : Nat} (h : n ≠ slip) (b : List Byte) : getSlip (takeField slip pos b s) n = getSlip s n := by
  unfold takeField
  dsimp only
  rw [getSlip_modTx_ne _ _ h, getSlip_setTraining_ne _ _ _ h, getSlip_fresh]

end

section
variable {s : State} {slip : Nat}

theorem readPattern_pos {v pos : Nat} {inv : Bool} (h : readPattern v = some (pos, inv)) : pos < 2 := by
  have := List.mem_of_find?_eq_some h
  simp only [List.mem_cons, Prod.mk.injEq, List.not_mem_nil, or_false] at this
  omega

/-- What a receiver learns of a frame's pattern: in step 3, lane order and polarity. -/
def learnPattern (slip : Nat) (rx : TrainRx) (pos : Nat) (inv : Bool) (s : State) : State :=
  if (getSlip s slip).step = 3 then
    modRx slip (fun r =>
      let r := { r with reversed := pos != rx.lane }
      if rx.lane = 0 then { r with inverted0 := inv } else { r with inverted1 := inv }) s
  else s

theorem learnPattern_fields (rx : TrainRx) (pos : Nat) (inv : Bool) :
    (getSlip (learnPattern slip rx pos inv s) slip).step = (getSlip s slip).step ∧
    (getSlip (learnPattern slip rx pos inv s) slip).state = (getSlip s slip).state ∧
    training (getSlip (learnPattern slip rx pos inv s) slip) pos = training (getSlip s slip) pos ∧
    (getSlip (learnPattern slip rx pos inv s) slip).rx.reversed =
      if (getSlip s slip).step = 3 then pos != rx.lane else (getSlip s slip).rx.reversed := by
  unfold learnPattern
  split
  · rw [getSlip_modRx_same]
    refine ⟨rfl, rfl, rfl, ?_⟩
    dsimp only
    split <;> rfl
  · exact ⟨rfl, rfl, rfl, rfl⟩

theorem exists_trainingFrame {rx : TrainRx} (h1 : 3 ≤ (getSlip s slip).step) (h2 : (getSlip s slip).step ≤ 6) :
    ∃ t, exec (.trainingFrame slip rx) s = .next t ∧ LanesOnly slip s t ∧ (getSlip t slip).step = (getSlip s slip).step ∧
      (getSlip t slip).state = (getSlip s slip).state ∧
      (readPattern (bitsToNat ((rx.levels.map (fun l => decide (2 ≤ l))).take 48)) = none →
        (training (getSlip t slip) (if (getSlip s slip).rx.reversed = true then 1 - rx.lane else rx.lane)).frames = 0) ∧
      (∀ pos inv, readPattern (bitsToNat ((rx.levels.map (fun l => decide (2 ≤ l))).take 48)) = some (pos, inv) →
        (training (getSlip t slip) pos).frames = (training (getSlip s slip) pos).frames + 1 ∧
        (getSlip t slip).rx.reversed = (if (getSlip s slip).step = 3 then pos != rx.lane else (getSlip s slip).rx.reversed)) := by
  have hstep : ¬ (!(decide (3 ≤ (getSlip s slip).step) && decide ((getSlip s slip).step ≤ 6))) = true := by simp [h1, h2]
  cases hseen : readPattern (bitsToNat ((rx.levels.map (fun l => decide (2 ≤ l))).take 48)) with
  | none =>
    have hx : exec (.trainingFrame slip rx) s = .next (settle (setTraining slip
        (if (getSlip s slip).rx.reversed = true then 1 - rx.lane else rx.lane) (fun t => { t with frames := 0 }) s)) := by
      simp only [exec, execTrainingFrame, if_neg hstep, hseen, finish]
    refine ⟨_, hx, lanesOnly_of_view ?_ (fun n hn => ?_), ?_⟩
    · simp [loud]
    · simp [hn]
    obtain ⟨hst, hstate, _⟩ := getSlip_setTraining_fields s slip (if (getSlip s slip).rx.reversed = true then 1 - rx.lane else rx.lane)
      (fun t => { t with frames := 0 })
    rw [getSlip_settle]
    exact ⟨hst, hstate, fun _ => congrArg Training.frames (training_setTraining _ _ _ _), fun _ _ h => by simp at h⟩
  | some seen =>
    obtain ⟨pos, inv⟩ := seen
    generalize hb : bitsToBytes ((((rx.levels.map (fun l => decide (2 ≤ l))).drop 48).take 128).map (fun x => xor x inv)) = b
    generalize hu : setTraining slip pos (fun t => { t with frames := t.frames + 1 }) (learnPattern slip rx pos inv s) = u
    have hx : exec (.trainingFrame slip rx) s = .next (settle (if field b 14 2 = crc16 (b.take 14) then takeField slip pos b u else u)) := by
      simp only [exec, execTrainingFrame, if_neg hstep, hseen, finish, hb, ← hu]
      rfl
    obtain ⟨hst, hstate, hrx⟩ := getSlip_setTraining_fields (learnPattern slip rx pos inv s) slip pos
      (fun t => { t with frames := t.frames + 1 })
    have htrain := congrArg Training.frames (training_setTraining (learnPattern slip rx pos inv s) slip pos
      (fun t => { t with frames := t.frames + 1 }))
    obtain ⟨lst, lstate, ltrain, lrev⟩ := learnPattern_fields (s := s) (slip := slip) rx pos inv
    rw [hu] at hst hstate hrx htrain
    obtain ⟨kframes, kst, kstate, krx⟩ := takeField_keeps u slip pos b
    have hkeep : ∀ v : State, v = (if field b 14 2 = crc16 (b.take 14) then takeField slip pos b u else u) →
        (training (getSlip v slip) pos).frames = (training (getSlip u slip) pos).frames ∧ (getSlip v slip).step = (getSlip u slip).step ∧
        (getSlip v slip).state = (getSlip u slip).state ∧ (getSlip v slip).rx = (getSlip u slip).rx := by
      intro v hv
      subst hv
      split
      · exact ⟨kframes, kst, kstate, krx⟩
      · exact ⟨rfl, rfl, rfl, rfl⟩
    obtain ⟨vframes, vst, vstate, vrx⟩ := hkeep _ rfl
    refine ⟨_, hx, lanesOnly_of_view ?_ (fun n hn => ?_), ?_⟩
    · have hview : view (.slips :: loud) u = view (.slips :: loud) s := by
        rw [← hu, view_setTraining _ _ _ _ (by simp)]
        unfold learnPattern
        split <;> simp
      rw [view_settle _ (by simp [loud])]
      split
      · rw [view_takeField _ _ _ _ (by simp [loud]), hview]
      · exact hview
    · have hne : getSlip u n = getSlip s n := by
        rw [← hu, getSlip_setTraining_ne _ _ _ hn]
        unfold learnPattern
        split <;> simp [hn]
      rw [getSlip_settle]
      split <;> simp [hn, hne]
    · rw [getSlip_settle]
      refine ⟨vst.trans (hst.trans lst), vstate.trans (hstate.trans lstate), fun h => by simp at h, fun pos' inv' h => ?_⟩
      cases h
      exact ⟨vframes.trans (htrain.trans (congrArg (fun t => t.frames + 1) ltrain)),
        (congrArg LaneRx.reversed (vrx.trans hrx)).trans lrev⟩

/-! ### Steps of bring-up -/

/-- What a step's end does to the slip before the step changes. -/
def endStep (slip : Nat) (s : State) : State :=
  match (getSlip s slip).step with
  | 3 =>
    let f := fresh 2 s
    modSlip slip (fun p => { p with train0 := { p.train0 with precodeReq := precodeRequest p.precodeNow (f.1.getLsbD 0) },
                                    train1 := { p.train1 with precodeReq := precodeRequest p.precodeNow (f.1.getLsbD 1) } }) f.2
  | 4 => modRx slip (fun r => { r with precode0 := (getSlip s slip).train0.precodeReq, precode1 := (getSlip s slip).train1.precodeReq }) s
  | 5 => modTx slip (fun t => { t with countdown0 := 15, countdown1 := 15 }) s
  | _ => s

theorem nextStep_eq : nextStep slip s = if (getSlip s slip).step = 9 then moveSlip slip .identify 0 (endStep slip s)
    else modLane slip (fun p => { p with step := p.step + 1, stepStart := now (endStep slip s) }) (endStep slip s) := rfl

theorem endStep_keeps : (getSlip (endStep slip s) slip).step = (getSlip s slip).step ∧
    (getSlip (endStep slip s) slip).state = (getSlip s slip).state ∧ now (endStep slip s) = now s ∧
    (∀ n, n ≠ slip → getSlip (endStep slip s) n = getSlip s n) ∧ view (.slips :: loud) (endStep slip s) = view (.slips :: loud) s := by
  unfold endStep
  split
  · dsimp only
    rw [getSlip_modSlip_same]
    exact ⟨rfl, rfl, rfl, fun n hn => by simp [hn], by simp [loud]⟩
  · rw [getSlip_modRx_same]
    exact ⟨rfl, rfl, rfl, fun n hn => by simp [hn], by simp⟩
  · rw [getSlip_modTx_same]
    exact ⟨rfl, rfl, rfl, fun n hn => by simp [hn], by simp⟩
  · exact ⟨rfl, rfl, rfl, fun _ _ => rfl, rfl⟩

theorem exec_bringupStepDone (h1 : 1 ≤ (getSlip s slip).step) (h2 : (getSlip s slip).step ≤ 9) (hc : stepComplete (getSlip s slip) = true)
    (hclk : tabGet? s.clk.serdes (slip / 8) = some .locked) : exec (.bringupStepDone slip) s = .next (settle (nextStep slip s)) :=
  if_pos (by simp [h1, h2, hc, hclk])

theorem exists_bringupStepDone (h1 : 1 ≤ (getSlip s slip).step) (h2 : (getSlip s slip).step ≤ 8)
    (hc : stepComplete (getSlip s slip) = true) (hclk : tabGet? s.clk.serdes (slip / 8) = some .locked) :
    ∃ t, exec (.bringupStepDone slip) s = .next t ∧ LanesOnly slip s t ∧ (getSlip t slip).step = (getSlip s slip).step + 1 ∧
      (getSlip t slip).stepStart = s.tide.count ∧ (getSlip t slip).state = (getSlip s slip).state := by
  obtain ⟨hstep, hstate, hnow, hne, hview⟩ := endStep_keeps (s := s) (slip := slip)
  have hnext : nextStep slip s =
      modLane slip (fun p => { p with step := p.step + 1, stepStart := now (endStep slip s) }) (endStep slip s) :=
    nextStep_eq.trans (if_neg (by omega))
  refine ⟨_, exec_bringupStepDone h1 (by omega) hc hclk, ?_⟩
  rw [hnext]
  obtain ⟨x, hx⟩ := getSlip_modLane_same (endStep slip s) slip (fun p => { p with step := p.step + 1, stepStart := now (endStep slip s) })
  refine ⟨lanesOnly_of_view ?_ (fun n hn => ?_), ?_⟩
  · rw [view_settle _ (by simp [loud]), view_modLane _ _ _ (by simp), hview]
  · rw [getSlip_settle, getSlip_modLane_ne _ hn, hne n hn]
  · rw [getSlip_settle, hx]
    exact ⟨congrArg (· + 1) hstep, hnow, hstate⟩

theorem exists_bringupDone (h : (getSlip s slip).step = 9) (hf : (getSlip s slip).rx.fecLock = true)
    (hclk : tabGet? s.clk.serdes (slip / 8) = some .locked) : ∃ t, exec (.bringupStepDone slip) s = .next t ∧
      (getSlip t slip).step = 10 ∧ (getSlip t slip).state = .identify ∧ (getSlip t slip).ltx = LinkTx.reset ∧
      (getSlip t slip).lrx = LinkRx.reset := by
  have hc : stepComplete (getSlip s slip) = true := by simp [stepComplete, h, hf]
  refine ⟨_, exec_bringupStepDone (by omega) (by omega) hc hclk, ?_⟩
  rw [nextStep_eq, if_pos h, getSlip_settle, getSlip_moveSlip]
  obtain ⟨c, x, _, hx⟩ := getSlip_changeSlip_identify (endStep slip s) slip 0
  rw [hx]
  exact ⟨rfl, rfl, rfl, rfl⟩

/-! ### Bring-up that starts again -/

theorem canTrain_countLane (k m : Nat) : canTrain (countLane slip k m s) slip = canTrain s slip := by
  have hx := getSlip_countLane_same s slip k m
  exact canTrain_of_view (view_countLane _ _ _ _ (by simp)) (by rw [hx]) (by rw [hx]) (by rw [hx])

theorem restartBringup_fields : (getSlip (restartBringup slip s) slip).laneCnt = (getSlip s slip).laneCnt ∧
    (getSlip (restartBringup slip s) slip).state = (getSlip s slip).state ∧
    (getSlip (restartBringup slip s) slip).step = if canTrain s slip = true then 1 else 0 := by
  obtain ⟨x, seeds, hx⟩ := getSlip_restartBringup_same s slip
  rw [hx]
  exact ⟨rfl, rfl, rfl⟩

theorem exists_bringupStepTimeout (h1 : 2 ≤ (getSlip s slip).step) (h2 : (getSlip s slip).step ≤ 9)
    (hlate : stepLimit (getSlip s slip).step < tideSince (getSlip s slip).stepStart s.tide.count) :
    ∃ t, exec (.bringupStepTimeout slip) s = .next t ∧ LaneCounted slip 22 1 s t ∧ (getSlip t slip).state = (getSlip s slip).state ∧
      (getSlip t slip).step = (if canTrain s slip = true then 1 else 0) ∧ (∀ n, n ≠ slip → getSlip t n = getSlip s n) := by
  refine ⟨_, if_pos (by simp [h1, h2]; exact hlate), ?_⟩
  obtain ⟨hcnt, hstate, hstep⟩ := restartBringup_fields (s := countLane slip 22 1 s) (slip := slip)
  have hcount : LaneCounted slip 22 1 s (countLane slip 22 1 s) := laneCounted_countLane _ _
  refine ⟨?_, ?_, ?_, fun n hn => ?_⟩
  · unfold LaneCounted at hcount ⊢
    rw [getSlip_settle, hcnt, hcount]
  · rw [getSlip_settle, hstate, getSlip_countLane_same]
  · rw [getSlip_settle, hstep, canTrain_countLane]
  · simp [hn]

/-- Settles O42. -/
theorem laneBringup : Obligations.lane_bringup := by
  intro s slip rx
  dsimp only
  refine ⟨exists_trainingFrame, fun h => ?_, exists_bringupStepDone, exists_bringupDone, exists_bringupStepTimeout,
    fun h1 h2 => ?_, fun h1 h2 => ?_, fun h1 h2 => ?_⟩
  · exact if_pos (by simp; omega)
  · obtain ⟨hcnt, hstate, hstep⟩ := restartBringup_fields (s := s) (slip := slip)
    exact ⟨_, if_pos (by simp [h1, h2]), hcnt, hstate, hstep⟩
  · have hx : exec (.lightLoss slip) s = .next (settle (loseLanes slip s)) := by
      simp [exec, execLightLoss, h1, h2, finish]
    refine ⟨_, hx, ?_⟩
    unfold loseLanes
    rw [getSlip_settle, getSlip_moveSlip]
    obtain ⟨c, x, seeds, _, hx⟩ := getSlip_changeSlip_down (countLane slip 21 1 s) slip 1
    rw [hx]
    rfl
  · have : ¬ (getSlip s slip).power ≤ 1 := by omega
    simp [exec, execLightLoss, h1, this, finish]

end

/-! ### Markers -/

section
variable {s : State} {slip : Nat}

/-- What the markers of both lanes in order tell the receiver. -/
def markersSeen (inv0 inv1 : Bool) (n0 n1 : Nat) (r : LaneRx) : LaneRx :=
  { r with reversed := false, inverted0 := inv0, inverted1 := inv1, am0 := some n0, am1 := some n1 }

theorem markAm_good (pos : Nat) : markAm slip pos false s =
    modRx slip (fun r => if pos = 0 then { r with amBad0 := 0 } else { r with amBad1 := 0 }) s := rfl

theorem judgeMarkers_of_good (h0 : (getSlip s slip).rx.amBad0 < 3) (h1 : (getSlip s slip).rx.amBad1 < 3) : judgeMarkers slip s = s := by
  have h0' : ¬ 3 ≤ (getSlip s slip).rx.amBad0 := by omega
  have h1' : ¬ 3 ≤ (getSlip s slip).rx.amBad1 := by omega
  simp [judgeMarkers, h0', h1']

/-- The markers of both lanes, good and in order. -/
def takeMarkers (slip : Nat) (inv0 inv1 : Bool) (n0 n1 : Nat) (skew : Int) (due : Bool) (s : State) : State :=
  let s := modSlip slip (fun p => { p with tele := { p.tele with skew := skew } }) (modRx slip (markersSeen inv0 inv1 n0 n1) s)
  modRx slip LaneRx.afterMarker (if due then markAm slip 1 false (markAm slip 0 false s) else s)

theorem getSlip_takeMarkers (inv0 inv1 : Bool) (n0 n1 : Nat) (skew : Int) (due : Bool) :
    ∃ r, getSlip (takeMarkers slip inv0 inv1 n0 n1 skew due s) slip = { getSlip s slip with
      tele := { (getSlip s slip).tele with skew := skew }, rx := r } ∧ r.reversed = false ∧ r.inverted0 = inv0 ∧ r.inverted1 = inv1 ∧
      r.am0 = some n0 ∧ r.am1 = some n1 ∧ r.cwn = 0 ∧ r.prbs = BitVec.allOnes 31 ∧
      ((getSlip s slip).rx.amBad0 < 3 → r.amBad0 < 3) ∧ ((getSlip s slip).rx.amBad1 < 3 → r.amBad1 < 3) := by
  unfold takeMarkers
  cases due with
  | false =>
    simp only [Bool.false_eq_true, if_false, getSlip_modRx_same, getSlip_modSlip_same]
    exact ⟨_, rfl, rfl, rfl, rfl, rfl, rfl, rfl, rfl, fun h => h, fun h => h⟩
  | true =>
    simp only [if_true, markAm_good, getSlip_modRx_same, getSlip_modSlip_same]
    exact ⟨_, rfl, rfl, rfl, rfl, rfl, rfl, rfl, rfl, fun _ => (by decide : 0 < 3), fun _ => (by decide : 0 < 3)⟩

theorem takeMarkers_keeps (inv0 inv1 : Bool) (n0 n1 : Nat) (skew : Int) (due : Bool) :
    (∀ n, n ≠ slip → getSlip (takeMarkers slip inv0 inv1 n0 n1 skew due s) n = getSlip s n) ∧
    view (.slips :: loud) (takeMarkers slip inv0 inv1 n0 n1 skew due s) = view (.slips :: loud) s := by
  unfold takeMarkers
  cases due with
  | false => exact ⟨fun n hn => by simp [hn], by simp⟩
  | true => exact ⟨fun n hn => by simp [hn, markAm_good], by simp [markAm_good]⟩

theorem exists_alignmentMarker {lower upper : List Nat} {skew : Int} {inv0 inv1 : Bool} {n0 n1 : Nat}
    (hl : laneListens (getSlip s slip) = true) (h0 : readMarker lower = some (0, inv0, n0)) (h1 : readMarker upper = some (1, inv1, n1))
    (hb0 : (getSlip s slip).rx.amBad0 < 3) (hb1 : (getSlip s slip).rx.amBad1 < 3) :
    ∃ t, exec (.alignmentMarker slip lower upper skew) s = .next t ∧ LanesOnly slip s t ∧
      (getSlip t slip).rx.reversed = false ∧ (getSlip t slip).rx.inverted0 = inv0 ∧ (getSlip t slip).rx.inverted1 = inv1 ∧
      (getSlip t slip).rx.am0 = some n0 ∧ (getSlip t slip).rx.am1 = some n1 ∧ (getSlip t slip).rx.cwn = 0 ∧
      (getSlip t slip).rx.prbs = BitVec.allOnes 31 ∧ (getSlip t slip).tele.skew = skew ∧ (getSlip t slip).state = (getSlip s slip).state := by
  generalize hdue : ((getSlip s slip).rx.amExpected && (getSlip s slip).rx.fecLock) = due
  obtain ⟨r, hget, hrev, hi0, hi1, ha0, ha1, hcwn, hprbs, hbad0, hbad1⟩ :=
    getSlip_takeMarkers (s := s) (slip := slip) inv0 inv1 n0 n1 skew due
  obtain ⟨hne, hview⟩ := takeMarkers_keeps (s := s) (slip := slip) inv0 inv1 n0 n1 skew due
  have hjudge := judgeMarkers_of_good (s := takeMarkers slip inv0 inv1 n0 n1 skew due s) (slip := slip)
    (by rw [hget]; exact hbad0 hb0) (by rw [hget]; exact hbad1 hb1)
  have hx : exec (.alignmentMarker slip lower upper skew) s = .next (settle (judgeMarkers slip (takeMarkers slip inv0 inv1 n0 n1 skew due s))) := by
    simp [exec, execAlignmentMarker, hl, h0, h1, finish, hdue, takeMarkers]
    rfl
  rw [hjudge] at hx
  refine ⟨_, hx, lanesOnly_of_view ?_ (fun n hn => ?_), ?_⟩
  · rw [view_settle _ (by simp [loud]), hview]
  · rw [getSlip_settle, hne n hn]
  · rw [getSlip_settle, hget]
    exact ⟨hrev, hi0, hi1, ha0, ha1, hcwn, hprbs, rfl, rfl⟩

/-! ### Codewords -/

/-- What the decoding of a codeword counts. -/
def countWord (slip : Nat) (d : Option (List Nat × List Nat)) (s : State) : State :=
  match d with
  | some x => countCodeword slip x.2 s
  | none => countLane slip 1 1 (modSlip slip (fun p => { p with tele := { p.tele with words := p.tele.words + 1 } }) s)

theorem countCodeword_keeps (fixed : List Nat) : ∃ c e, getSlip (countCodeword slip fixed s) slip = { getSlip s slip with
    laneCnt := c, tele := { (getSlip s slip).tele with words := (getSlip s slip).tele.words + 1, errs := e } } := by
  unfold countCodeword
  dsimp only
  split
  · rw [getSlip_modSlip_same]
    exact ⟨_, _, rfl⟩
  · simp only [getSlip_countLane_same, getSlip_modSlip_same]
    exact ⟨_, _, rfl⟩

theorem countWord_fields (d : Option (List Nat × List Nat)) : (∃ c e, getSlip (countWord slip d s) slip = { getSlip s slip with
      laneCnt := c, tele := { (getSlip s slip).tele with words := (getSlip s slip).tele.words + 1, errs := e } }) ∧
    (d = none → LaneCounted slip 1 1 s (countWord slip d s)) ∧ (∀ n, n ≠ slip → getSlip (countWord slip d s) n = getSlip s n) ∧
    view (.slips :: loud) (countWord slip d s) = view (.slips :: loud) s := by
  cases d with
  | some x =>
    refine ⟨countCodeword_keeps x.2, (fun h => by cases h), fun n hn => ?_, view_countCodeword _ _ _ (by simp [loud])⟩
    simp only [countWord, countCodeword]
    split <;> simp [hn]
  | none =>
    refine ⟨?_, fun _ => ?_, fun n hn => by simp [countWord, hn], ?_⟩
    · simp only [countWord, getSlip_countLane_same, getSlip_modSlip_same]
      exact ⟨_, _, rfl⟩
    · have h := laneCounted_countLane (s := modSlip slip (fun p => { p with tele := { p.tele with words := p.tele.words + 1 } }) s)
        (slip := slip) 1 1
      unfold LaneCounted at h ⊢
      rwa [getSlip_modSlip_same] at h
    · simp only [countWord]
      rw [view_countLane _ _ _ _ (by simp [loud]), view_modSlip _ _ _ (by simp)]

/-- The receiver once a codeword has been taken where no marker was due. -/
def wordTaken (slip : Nat) (lower upper : List Nat) (s : State) : State :=
  let r := (getSlip s slip).rx
  let w := receivedWord r lower upper
  let d := rsDecode w.1
  let m := scramble r.prbs (messageBits ((d.map Prod.fst).getD w.1))
  modRx slip (fun r => r.after m.2 w.2.1 w.2.2 (d.map (fun _ => bitsToNat (m.1.take 20)))) (countWord slip d s)

/-- A codeword out of data mode only counts. -/
theorem takeCodeword_of_training (lower upper : List Nat) (h : (getSlip s slip).rx.amExpected = false) (hs : (getSlip s slip).step ≠ 10) :
    takeCodeword slip lower upper s = wordTaken slip lower upper s := by
  unfold takeCodeword
  simp only [h, Bool.false_eq_true, if_false]
  exact if_pos (by simp [hs])

/-- The eighth codeword in a row that cannot be decoded, in data mode, is a bad frame and takes the lanes. -/
theorem takeCodeword_of_bad (lower upper : List Nat) (h : (getSlip s slip).rx.amExpected = false) (hs : (getSlip s slip).step = 10)
    (hlock : (getSlip s slip).rx.fecLock = true) (hrun : 8 ≤ (getSlip (wordTaken slip lower upper s) slip).rx.badRun) :
    takeCodeword slip lower upper s = loseLanes slip (badFrame slip 0 (wordTaken slip lower upper s)) := by
  unfold takeCodeword
  simp only [h, Bool.false_eq_true, if_false]
  exact (if_neg (by simp [hs, hlock])).trans (if_pos hrun)

theorem exists_codewordCounted {lower upper : List Nat} (hl : laneListens (getSlip s slip) = true) (hs : (getSlip s slip).step = 9)
    (hm : (getSlip s slip).rx.amExpected = false) {w : List Nat × Nat × Nat} (hw : receivedWord (getSlip s slip).rx lower upper = w)
    {d : Option (List Nat × List Nat)} (hd : rsDecode w.1 = d) {m : List Bool × BitVec 31}
    (hb : scramble (getSlip s slip).rx.prbs (messageBits ((d.map Prod.fst).getD w.1)) = m) :
    ∃ t, exec (.codewordReceive slip lower upper) s = .next t ∧
      (getSlip t slip).rx = (getSlip s slip).rx.after m.2 w.2.1 w.2.2 (d.map (fun _ => bitsToNat (m.1.take 20))) ∧
      (getSlip t slip).tele.words = (getSlip s slip).tele.words + 1 ∧ (getSlip t slip).step = 9 ∧
      (getSlip t slip).state = (getSlip s slip).state ∧ LanesOnly slip s t ∧ (d = none → LaneCounted slip 1 1 s t) := by
  have hx : exec (.codewordReceive slip lower upper) s = .next (settle (takeCodeword slip lower upper s)) := if_pos (by simp [hl, hs])
  rw [takeCodeword_of_training lower upper hm (by omega)] at hx
  have htaken : wordTaken slip lower upper s = modRx slip (fun r => r.after m.2 w.2.1 w.2.2 (d.map (fun _ => bitsToNat (m.1.take 20))))
      (countWord slip d s) := by
    subst hw hd hb
    rfl
  obtain ⟨⟨c, e, hget⟩, hcount, hne, hview⟩ := countWord_fields (s := s) (slip := slip) d
  rw [htaken] at hx
  refine ⟨_, hx, ?_⟩
  simp only [getSlip_settle, getSlip_modRx_same, hget]
  refine ⟨trivial, trivial, hs, trivial, lanesOnly_of_view ?_ (fun n hn => ?_), fun hn => ?_⟩
  · rw [view_settle _ (by simp [loud]), view_modRx _ _ _ (by simp), hview]
  · rw [getSlip_settle, getSlip_modRx_ne _ _ hn, hne n hn]
  · have := hcount hn
    unfold LaneCounted at this ⊢
    rwa [getSlip_settle, getSlip_modRx_same]

theorem getSlip_setNak_same : ∃ c l, getSlip (setNak slip s) slip = { getSlip s slip with linkCnt := c, lrx := l } ∧
    ∀ k, k ≠ 3 → tabGet? c k = tabGet? (getSlip s slip).linkCnt k := by
  unfold setNak
  dsimp only
  split
  · rw [getSlip_modSlip_same, getSlip_countLink_same]
    exact ⟨_, _, rfl, fun k hk => tabGet?_tabPut_ne _ _ hk⟩
  · exact ⟨_, _, rfl, fun _ _ => rfl⟩

/-- A slip that loses its lanes is DOWN; of its link's counters only those of a change of state count. -/
theorem getSlip_loseLanes_same : (getSlip (loseLanes slip s) slip).state = .down ∧
    SameLinks (getSlip (loseLanes slip s) slip).linkCnt (getSlip s slip).linkCnt := by
  unfold loseLanes
  rw [getSlip_moveSlip]
  obtain ⟨c, x, seeds, hc, hx⟩ := getSlip_changeSlip_down (countLane slip 21 1 s) slip 1
  rw [hx]
  rw [getSlip_countLane_same] at hc
  exact ⟨rfl, hc⟩

theorem linkCounted_of_get {t u : State} {k m : Nat} (h : LinkCounted slip k m s t)
    (hu : tabGet? (getSlip u slip).linkCnt k = tabGet? (getSlip t slip).linkCnt k) : LinkCounted slip k m s u := by
  unfold LinkCounted tabGet at *
  rwa [hu]

theorem linkCounted_badFrame (u : State) (hu : (getSlip u slip).linkCnt = (getSlip s slip).linkCnt) :
    LinkCounted slip 0 1 s (badFrame slip 0 u) := by
  obtain ⟨cn, l, hnak, hkeep⟩ := getSlip_setNak_same (s := countLink slip 0 1 u) (slip := slip)
  have hcount : LinkCounted slip 0 1 s (countLink slip 0 1 u) := by
    have := linkCounted_countLink (s := u) (slip := slip) 0 1
    unfold LinkCounted at this ⊢
    rw [this, hu]
  refine linkCounted_of_get hcount ?_
  unfold badFrame
  rw [hnak]
  exact hkeep 0 (by decide)

theorem exec_codewordReceive {lower upper : List Nat} (hl : laneListens (getSlip s slip) = true) (hs : 9 ≤ (getSlip s slip).step) :
    exec (.codewordReceive slip lower upper) s = .next (settle (takeCodeword slip lower upper s)) := if_pos (by simp [hl, hs])

theorem badRun_wordTaken {lower upper : List Nat} (hd : rsDecode (receivedWord (getSlip s slip).rx lower upper).1 = none) :
    (getSlip (wordTaken slip lower upper s) slip).linkCnt = (getSlip s slip).linkCnt ∧
      (getSlip (wordTaken slip lower upper s) slip).rx.badRun = (getSlip s slip).rx.badRun + 1 := by
  obtain ⟨⟨c, e, hget⟩, _, _, _⟩ := countWord_fields (s := s) (slip := slip) none
  unfold wordTaken
  dsimp only
  rw [hd, getSlip_modRx_same, hget]
  exact ⟨rfl, rfl⟩

theorem down_of_loseLanes {u : State} (hcount : LinkCounted slip 0 1 s u) :
    (getSlip (settle (loseLanes slip u)) slip).state = .down ∧ LinkCounted slip 0 1 s (settle (loseLanes slip u)) := by
  obtain ⟨hdown, hlinks⟩ := getSlip_loseLanes_same (s := u) (slip := slip)
  have hkept := linkCounted_of_get (u := loseLanes slip u) hcount (hlinks 0 (by decide) (by decide) (by decide))
  unfold LinkCounted at hkept ⊢
  rw [getSlip_settle]
  exact ⟨hdown, hkept⟩

theorem exists_badCodeword {lower upper : List Nat} (hl : laneListens (getSlip s slip) = true) (hs : (getSlip s slip).step = 10)
    (hlock : (getSlip s slip).rx.fecLock = true) (hm : (getSlip s slip).rx.amExpected = false)
    (hd : rsDecode (receivedWord (getSlip s slip).rx lower upper).1 = none) (hrun : 7 ≤ (getSlip s slip).rx.badRun) :
    ∃ t, exec (.codewordReceive slip lower upper) s = .next t ∧ (getSlip t slip).state = .down ∧ LinkCounted slip 0 1 s t := by
  obtain ⟨hlinks0, hbad⟩ := badRun_wordTaken hd
  have hx := exec_codewordReceive (lower := lower) (upper := upper) hl (by omega)
  rw [takeCodeword_of_bad lower upper hm hs hlock (hbad.symm ▸ Nat.succ_le_succ hrun)] at hx
  exact ⟨_, hx, down_of_loseLanes (linkCounted_badFrame _ hlinks0)⟩

/-! ### Test patterns -/

theorem exists_patternCompared {lane : Nat} {levels : List Nat} {pos : Nat}
    (ht : (getSlip s slip).loopback = 1 ∨ (getSlip s slip).loopback = 2 ∨ (getSlip s slip).loopback = 4)
    (hpos : (if (getSlip s slip).rx.reversed = true then 1 - lane else lane) = pos) :
    exec (.patternSymbolReceive slip lane levels) s = .next (settle (checkPattern slip pos
      (uninvert (if lane = 0 then (getSlip s slip).rx.inverted0 else (getSlip s slip).rx.inverted1) levels) s)) := by
  have h3 : ((getSlip s slip).loopback == 3) = false := by
    rw [beq_eq_false_iff_ne]
    omega
  have hp : patternMode (getSlip s slip) = true := by
    rcases ht with h | h | h <;> simp [patternMode, h]
  simp [exec, execPatternSymbolReceive, h3, hp, hpos, finish]

/-- A comparison counts what it found on the lane's position, and keeps where it stands. -/
theorem counted_of_compare (pos m : Nat) (f : Slip → Slip) (hf : (f (getSlip s slip)).laneCnt = (getSlip s slip).laneCnt) :
    LanesOnly slip s (settle (countLane slip (24 + pos) m (modSlip slip f s))) ∧
    LaneCounted slip (24 + pos) m s (settle (countLane slip (24 + pos) m (modSlip slip f s))) ∧
    ∃ c, getSlip (settle (countLane slip (24 + pos) m (modSlip slip f s))) slip = { f (getSlip s slip) with laneCnt := c } := by
  refine ⟨lanesOnly_of_view ?_ (fun n hn => by simp [hn]), ?_, ?_⟩
  · rw [view_settle _ (by simp [loud]), view_countLane _ _ _ _ (by simp [loud]), view_modSlip _ _ _ (by simp)]
  · have := laneCounted_countLane (s := modSlip slip f s) (slip := slip) (24 + pos) m
    unfold LaneCounted at this ⊢
    rwa [getSlip_modSlip_same, hf] at this
  · rw [getSlip_settle, getSlip_countLane_same, getSlip_modSlip_same]
    exact ⟨_, rfl⟩

end

/-- Settles O43. -/
theorem laneReception : Obligations.lane_reception := by
  intro s slip lane lower upper levels skew inv0 inv1 n0 n1
  dsimp only
  refine ⟨exists_alignmentMarker, fun h => ⟨?_, ?_⟩, fun h1 h2 ha => ?_, fun hl hs hm => exists_codewordCounted hl hs hm rfl rfl rfl,
    exists_badCodeword, fun ht hp _ => ?_, fun ht hp _ => ?_, fun h3 hp => ?_, fun h0 => ?_⟩
  · exact if_pos (by simp [h])
  · exact if_neg (by simp [h])
  · have hlock : ((getSlip s slip).step == 0 || decide (9 ≤ (getSlip s slip).step) ||
        ((getSlip s slip).rx.am0.isSome && (getSlip s slip).rx.am0 == (getSlip s slip).rx.am1)) = false := by
      have h9 : ¬ 9 ≤ (getSlip s slip).step := by omega
      have h0 : (getSlip s slip).step ≠ 0 := by omega
      rcases ha with ha | ha <;> simp [h9, h0, ha]
    simp [exec, execCodewordReceive, hlock, finish]
  · generalize hpos : (if (getSlip s slip).rx.reversed = true then 1 - lane else lane) = pos
    have hx := exists_patternCompared (levels := levels) ht hpos
    rw [checkPattern, if_neg hp] at hx
    dsimp only at hx
    generalize patternErrors _ _ _ = e at hx ⊢
    obtain ⟨honly, hcount, c, hc⟩ := counted_of_compare (s := s) (slip := slip) pos e.1
      (fun p => if pos = 0 then { p with pattern0 := e.2 } else { p with pattern1 := e.2 }) (by split <;> rfl)
    refine ⟨_, hx, honly, hcount, ?_⟩
    rw [hc]
    dsimp only
    split <;> rfl
  · generalize hpos : (if (getSlip s slip).rx.reversed = true then 1 - lane else lane) = pos
    have hx := exists_patternCompared (levels := levels) ht hpos
    rw [checkPattern, if_pos hp] at hx
    dsimp only at hx
    generalize compareAwaited _ _ = e at hx ⊢
    obtain ⟨honly, hcount, c, hc⟩ := counted_of_compare (s := s) (slip := slip) pos e.1
      (fun p => if pos = 0 then { p with await0 := e.2 } else { p with await1 := e.2 }) (by split <;> rfl)
    refine ⟨_, hx, honly, hcount, ?_⟩
    rw [hc]
    dsimp only
    split <;> rfl
  · simp [exec, execPatternSymbolReceive, h3, hp, finish]
  · simp [exec, execPatternSymbolReceive, h0, patternMode, finish]

end Sys2Proof.Proofs

/-!
The link layer of a slip: frames sent and kept, and the neighbour exchange (O45).
-/
namespace Sys2Proof.Proofs
open Sys2Proof Sys2Proof.Machine Sys2Proof.Laws

/-! ### Frames -/

section
variable (s : State) (slip : Nat)

theorem getSlip_refreshCredits_same : ∃ l, getSlip (refreshCredits slip s) slip = { getSlip s slip with lrx := l } := by
  have h (cs : List Nat) (u : State) (hu : ∃ l, getSlip u slip = { getSlip s slip with lrx := l }) :
      ∃ l, getSlip (cs.foldl (fun s c =>
        let v := creditLimit s slip c
        modSlip slip (fun p => { p with lrx := { p.lrx with limit := tabPut p.lrx.limit c v } }) s) u) slip =
        { getSlip s slip with lrx := l } := by
    induction cs generalizing u with
    | nil => exact hu
    | cons c cs ih =>
      obtain ⟨l, hl⟩ := hu
      exact ih _ ⟨_, by rw [getSlip_modSlip_same, hl]⟩
  exact h _ s ⟨_, rfl⟩

theorem getSlip_sendCodeword_same (b : List Byte) : ∃ x, getSlip (sendCodeword slip b s) slip = { getSlip s slip with tx := x } := by
  unfold sendCodeword
  dsimp only
  rw [getSlip_modSlip_same]
  split <;> exact ⟨_, rfl⟩

@[simp] theorem getSlip_sendCodeword_ne {n : Nat} (h : n ≠ slip) (b : List Byte) : getSlip (sendCodeword slip b s) n = getSlip s n := by
  unfold sendCodeword
  dsimp only
  rw [getSlip_modSlip_ne _ h]
  split <;> simp

theorem getSlip_transmit_same (ftype : Nat) (f : FSeq) (m : List Nat) (us : List (List Byte)) (hs : List Seq) :
    ∃ l x, getSlip (transmit slip ftype f m us hs s) slip = { getSlip s slip with lrx := l, tx := x } := by
  obtain ⟨l, hl⟩ := getSlip_refreshCredits_same s slip
  unfold transmit
  dsimp only
  generalize hb : frameBytes (refreshCredits slip s) slip ftype f m us hs = b
  obtain ⟨x, hx⟩ := getSlip_sendCodeword_same (emit (.frame slip b) (refreshCredits slip s)) slip b
  rw [hx, getSlip_emit, hl]
  exact ⟨_, _, rfl⟩

@[simp] theorem getSlip_transmit_ne {n : Nat} (h : n ≠ slip) (ftype : Nat) (f : FSeq) (m : List Nat) (us : List (List Byte))
    (hs : List Seq) : getSlip (transmit slip ftype f m us hs s) n = getSlip s n := by
  simp [transmit, h]

/-- A frame sent is the last of those kept for replay. -/
theorem getSlip_sendFrame_same (ftype : Nat) (m : List Nat) (us : List (List Byte)) (hs : List Seq) (ps : List SentPkt) :
    ∃ l x a w, getSlip (sendFrame slip ftype m us hs ps s) slip = { getSlip s slip with
      lrx := l, tx := x, lastWork := w
      ltx := { (getSlip s slip).ltx with
        nextFseq := (getSlip s slip).ltx.nextFseq + 1, ackChanged := a
        held := (getSlip s slip).ltx.held ++ [{ fseq := (getSlip s slip).ltx.nextFseq, ftype := ftype, unitMap := m, units := us,
                                                hseqs := hs, pkts := ps }] } } := by
  unfold sendFrame
  dsimp only
  obtain ⟨l, x, h⟩ := getSlip_transmit_same (setPowerReq slip 0 s) slip ftype (getSlip s slip).ltx.nextFseq m us hs
  rw [getSlip_modSlip_same, h]
  unfold setPowerReq
  rw [getSlip_modSlip_same]
  exact ⟨_, _, _, _, rfl⟩

@[simp] theorem getSlip_sendFrame_ne {n : Nat} (h : n ≠ slip) (ftype : Nat) (m : List Nat) (us : List (List Byte)) (hs : List Seq)
    (ps : List SentPkt) : getSlip (sendFrame slip ftype m us hs ps s) n = getSlip s n := by
  simp [sendFrame, h]

/-- A link message is sent while there is room to keep its frame. -/
theorem getSlip_sendLink_same (us : List (List Byte)) : ∃ l x y w, getSlip (sendLink slip us s) slip = { getSlip s slip with
      lrx := l, tx := x, lastWork := w, ltx := y } ∧
    ((getSlip s slip).ltx.held.length < 256 → ∃ f, y.held = (getSlip s slip).ltx.held ++ [f] ∧ f.ftype = 2 ∧ f.units = us) := by
  unfold sendLink
  split
  · obtain ⟨l, x, a, w, h⟩ := getSlip_sendFrame_same s slip 2 (1 :: List.replicate (us.length - 1) 2) us [] []
    exact ⟨l, x, _, w, h, fun _ => ⟨_, rfl, rfl, rfl⟩⟩
  case isFalse hfull => exact ⟨_, _, _, _, rfl, fun h => absurd h hfull⟩

@[simp] theorem getSlip_sendLink_ne {n : Nat} (h : n ≠ slip) (us : List (List Byte)) : getSlip (sendLink slip us s) n = getSlip s n := by
  unfold sendLink
  split <;> simp [h]

end

/-! ### The neighbour exchange -/

section
variable {s : State} {slip : Nat}

/-- What of a slip an IDENT or its answer leaves as it goes out: all but its link, its lanes' state and what it has sent. -/
theorem getSlip_sendIdent_same : ∃ l x y w, getSlip (sendIdent slip s) slip = { getSlip s slip with
      lrx := l, tx := x, lastWork := w, ltx := y, ex := { (getSlip s slip).ex with reported := some (widthUp s slip) } } ∧
    ((getSlip s slip).ltx.held.length < 256 → ∃ f, y.held = (getSlip s slip).ltx.held ++ [f] ∧ f.ftype = 2 ∧
      f.units = [(identBytes (ownIdent s slip)).take 64, (identBytes (ownIdent s slip)).drop 64]) := by
  unfold sendIdent
  dsimp only
  obtain ⟨l, x, y, w, h, hf⟩ := getSlip_sendLink_same s slip
    [(identBytes (ownIdent s slip)).take 64, (identBytes (ownIdent s slip)).drop 64]
  rw [getSlip_modSlip_same, h]
  exact ⟨l, x, y, w, rfl, hf⟩

theorem getSlip_sendIdent_ne {n : Nat} (h : n ≠ slip) : getSlip (sendIdent slip s) n = getSlip s n := by
  unfold sendIdent
  dsimp only
  rw [getSlip_modSlip_ne _ h, getSlip_sendLink_ne _ _ h]

theorem tryService_of_none (h : (getSlip s slip).ex.accepted = none) : tryService slip s = s := by simp [tryService, h]

/-- A slip that enters service, or not, keeps what it knows of the exchange. -/
theorem ex_tryService : (getSlip (tryService slip s) slip).ex = (getSlip s slip).ex := by
  unfold tryService
  dsimp only
  split
  · split
    · rw [getSlip_moveSlip]
      obtain ⟨c, l, r, _, h⟩ := getSlip_changeSlip_inService s slip (if (getSlip s slip).state = .quarantine then 8 else 0)
      rw [h]
    · rfl
  · rfl

theorem state_tryService {m : Ident} (hst : (getSlip s slip).state = .identify) (ha : (getSlip s slip).ex.accepted = some m)
    (hs : (getSlip s slip).ex.sentAck = some 0) (hg : (getSlip s slip).ex.gotAck = some 0) (hw : widthsAgree (getSlip s slip) m = true) :
    (getSlip (tryService slip s) slip).state = .inService := by
  unfold tryService
  simp only [ha, hst, hs, hg, hw, beq_self_eq_true, Bool.true_or, Bool.and_self, if_true]
  rw [getSlip_moveSlip]
  obtain ⟨c, l, r, _, h⟩ := getSlip_changeSlip_inService s slip (if SlipState.identify = .quarantine then 8 else 0)
  rw [h]

theorem exists_identTimer_first (hst : (getSlip s slip).state = .identify) (hh : (getSlip s slip).ex.held = none)
    (ha : (getSlip s slip).ex.accepted = none) (hroom : (getSlip s slip).ltx.held.length < 256) :
    ∃ t, exec (.identTimer slip) s = .next t ∧
      LanesOnly slip s t ∧ (∃ f, (getSlip t slip).ltx.held = (getSlip s slip).ltx.held ++ [f] ∧ f.ftype = 2 ∧
        f.units = [(identBytes (ownIdent s slip)).take 64, (identBytes (ownIdent s slip)).drop 64]) ∧
      (getSlip t slip).state = .identify ∧ (getSlip t slip).ex.reported = some (widthUp s slip) := by
  obtain ⟨l, x, y, w, h, hf⟩ := getSlip_sendIdent_same (s := s) (slip := slip)
  have hx : exec (.identTimer slip) s = .next (settle (tryService slip (sendIdent slip s))) := by
    simp [exec, execIdentTimer, hh, hst, finish]
  rw [tryService_of_none (by rw [h]; exact ha)] at hx
  refine ⟨_, hx, lanesOnly_of_view ?_ (fun n hn => ?_), ?_⟩
  · rw [view_settle _ (by simp [loud]), view_sendIdent _ _ (by simp [loud])]
  · rw [getSlip_settle, getSlip_sendIdent_ne hn]
  · rw [getSlip_settle, h]
    exact ⟨hf hroom, hst, rfl⟩

theorem exists_identTimer_again {m : Ident} (hst : (getSlip s slip).state = .identify) (hh : (getSlip s slip).ex.held = some m)
    (ha : (getSlip s slip).ex.accepted = some m) (hw : widthsAgree (getSlip s slip) m = false) :
    ∃ t, exec (.identTimer slip) s = .next t ∧ (getSlip t slip).ex.reported = some (widthUp s slip) := by
  obtain ⟨l, x, y, w, h, hf⟩ := getSlip_sendIdent_same (s := s) (slip := slip)
  have hx : exec (.identTimer slip) s = .next (settle (tryService slip (sendIdent slip s))) := by
    simp [exec, execIdentTimer, hh, ha, hw, hst, finish]
  refine ⟨_, hx, ?_⟩
  rw [getSlip_settle, ex_tryService, h]

/-! ### An IDENT that is judged -/

theorem slips_stopForNeighbours (ms : List Ident) (s : State) : (stopForNeighbours ms s).slips = s.slips :=
  foldl_keeps _ State.slips (fun s r => by
    dsimp only
    split
    · exact slips_of_view (view_stopUnnamed _ _ _ _ (by simp))
    · rfl) _ _

theorem getSlip_acceptNeighbour (m : Ident) (n : Nat) : getSlip (acceptNeighbour slip m s) n = getSlip s n :=
  getSlip_of_slips (slips_stopForNeighbours [m] (noteNeighbour slip m s)) n

theorem getSlip_answerIdent_same (m : Ident) : (getSlip (answerIdent slip m s) slip).state = (getSlip s slip).state ∧
    (getSlip (answerIdent slip m s) slip).ex = { (getSlip s slip).ex with
      held := some m, lastResult := identResult s slip m, sentAck := some (identResult s slip m)
      accepted := if identResult s slip m = 0 then some m else none, proto := chosenProto m } := by
  unfold answerIdent sendIdentAck
  dsimp only
  generalize hu : modSlip slip _ s = u
  obtain ⟨l, x, y, w, h, _⟩ := getSlip_sendLink_same u slip
    [fit 64 (le 1 0x02 ++ le 1 (chosenProto m) ++ le 1 (identResult s slip m))]
  rw [h, ← hu, getSlip_modSlip_same]
  exact ⟨rfl, rfl⟩

theorem getSlip_quarantine_same (result reason : Nat) : (getSlip (quarantine slip result reason s) slip).state = .quarantine ∧
    (getSlip (quarantine slip result reason s) slip).ex = (getSlip s slip).ex := by
  unfold quarantine raiseMismatch
  dsimp only
  rw [getSlip_raiseEvent, getSlip_moveSlip]
  obtain ⟨c, l, r, _, h⟩ := getSlip_changeSlip_quarantine s slip reason
  rw [h]
  exact ⟨rfl, rfl⟩

theorem exists_identJudged (m : Ident) (hst : (getSlip s slip).state = .identify) (hr : m.rsvd = false) :
    ∃ t, exec (.ident slip m) s = .next t ∧ (getSlip t slip).ex.held = some m ∧
      (getSlip t slip).ex.lastResult = identResult s slip m ∧ (getSlip t slip).ex.sentAck = some (identResult s slip m) ∧
      (identResult s slip m = 0 → (getSlip t slip).ex.accepted = some m) ∧
      (identResult s slip m ≠ 0 → (getSlip t slip).state = .quarantine) := by
  obtain ⟨hstate, hex⟩ := getSlip_answerIdent_same (s := s) (slip := slip) m
  have hx : exec (.ident slip m) s = .next (settle (judgeIdent slip m s)) := by
    simp [exec, execIdent, takeIdent, hst, hr, finish]
  by_cases h0 : identResult s slip m = 0
  · have hj : judgeIdent slip m s = tryService slip (acceptNeighbour slip m (answerIdent slip m s)) := by
      simp only [judgeIdent, if_pos h0]
    rw [hj] at hx
    refine ⟨_, hx, ?_⟩
    rw [getSlip_settle, ex_tryService, getSlip_acceptNeighbour, hex]
    exact ⟨rfl, rfl, rfl, fun h => if_pos h, fun h => absurd h0 h⟩
  · have hj : judgeIdent slip m s = quarantine slip (identResult s slip m) 8 (answerIdent slip m s) := by
      simp only [judgeIdent, if_neg h0, hstate, hst, if_true]
    rw [hj] at hx
    obtain ⟨hq, hqex⟩ := getSlip_quarantine_same (s := answerIdent slip m s) (slip := slip) (identResult s slip m) 8
    refine ⟨_, hx, ?_⟩
    rw [getSlip_settle, hqex, hex]
    exact ⟨rfl, rfl, rfl, fun h => absurd h h0, fun _ => hq⟩

end

/-- Settles O45. -/
theorem neighbourExchange : Obligations.neighbour_exchange := by
  intro s slip m a
  dsimp only
  refine ⟨exists_identTimer_first, exists_identTimer_again, fun hd => ⟨?_, ?_⟩, fun hd hr => ?_, fun hd hr => ?_, exists_identJudged m,
    fun hst hr ha => ?_, fun hst hr ha => ?_, fun hst hr hn => ?_, fun hst hr h0 ha hs hw => ?_, fun hst hh hlate => ?_⟩
  · simp [exec, execIdent, takeIdent, hd, finish]
  · simp [exec, execIdentAck, takeIdentAck, hd, finish]
  · simp [exec, execIdent, takeIdent, hd, hr, finish]
  · simp [exec, execIdentAck, takeIdentAck, hd, hr, finish]
  · simp [exec, execIdent, takeIdent, hst, hr, ha, finish]
  · have hx : exec (.ident slip m) s = .next (settle (moveSlip slip .down 3 s)) := by
      simp [exec, execIdent, takeIdent, hst, hr, ha, finish]
    refine ⟨_, hx, ?_⟩
    rw [getSlip_settle, getSlip_moveSlip]
    obtain ⟨c, x, seeds, _, h⟩ := getSlip_changeSlip_down s slip 3
    rw [h]
    rfl
  · generalize hu : modSlip slip (fun p => { p with ex := { p.ex with gotAck := some a.result } }) s = u
    have hx : exec (.identAck slip a) s = .next (settle (moveSlip slip .quarantine 8 u)) := by
      simp [exec, execIdentAck, takeIdentAck, hst, hr, hn, finish, ← hu]
    refine ⟨_, hx, ?_⟩
    rw [getSlip_settle, getSlip_moveSlip]
    obtain ⟨c, l, r, _, h⟩ := getSlip_changeSlip_quarantine u slip 8
    rw [h, ← hu, getSlip_modSlip_same]
    exact ⟨rfl, rfl⟩
  · generalize hu : modSlip slip (fun p => { p with ex := { p.ex with gotAck := some a.result } }) s = u
    have hget : getSlip u slip = { getSlip s slip with ex := { (getSlip s slip).ex with gotAck := some a.result } } := by
      rw [← hu, getSlip_modSlip_same]
    have hx : exec (.identAck slip a) s = .next (settle (tryService slip u)) := by
      simp [exec, execIdentAck, takeIdentAck, hst, hr, h0, finish, ← hu]
    refine ⟨_, hx, ?_⟩
    rw [getSlip_settle, ex_tryService]
    refine ⟨state_tryService (m := m) ?_ ?_ ?_ ?_ ?_, ?_⟩
    all_goals rw [hget]
    · exact hst
    · exact ha
    · exact hs
    · exact congrArg some h0
    · exact hw
    · exact congrArg some h0
  · have hx : exec (.identTimeout slip) s = .next (settle (moveSlip slip .down 3 (countLink slip 11 1 s))) :=
      if_pos (by simp [hst, hh]; exact hlate)
    refine ⟨_, hx, ?_⟩
    obtain ⟨c, x, seeds, hc, h⟩ := getSlip_changeSlip_down (countLink slip 11 1 s) slip 3
    refine ⟨linkCounted_of_get (linkCounted_countLink 11 1) ?_, ?_⟩
    all_goals rw [getSlip_settle, getSlip_moveSlip, h]
    · exact hc 11 (by decide) (by decide) (by decide)
    · rfl

end Sys2Proof.Proofs

/-!
Lane power states and optics alarms (O46).
-/
namespace Sys2Proof.Proofs
open Sys2Proof Sys2Proof.Machine Sys2Proof.Laws

theorem tabPut_tabPut {α : Type} (t : Tab α) (k : Nat) (v w : α) : tabPut (tabPut t k v) k w = tabPut t k w := by
  induction t with
  | nil => simp [tabPut]
  | cons p t ih =>
    obtain ⟨k', x⟩ := p
    by_cases h1 : k < k'
    · simp [h1, tabPut]
    · by_cases h2 : k = k'
      · simp [h2, tabPut]
      · simp only [tabPut, h1, h2, if_false, ih]

theorem modSlip_modSlip (slip : Nat) (f g : Slip → Slip) (s : State) : modSlip slip f (modSlip slip g s) = modSlip slip (fun p => f (g p)) s := by
  have h : getSlip (modSlip slip g s) slip = g (getSlip s slip) := getSlip_modSlip_same _ _ _
  unfold modSlip at h ⊢
  rw [h]
  exact congrArg (fun x => { s with slips := x }) (tabPut_tabPut _ _ _ _)

section
variable {s : State} {slip : Nat}

/-! ### Lane power states -/

theorem exists_laneIdleEntry (hst : (getSlip s slip).state = .inService) (hw : (getSlip s slip).waking = false)
    (hb : laneBusy s slip = false) (ht : 16 ≤ (getSlip s slip).tx.powerRun) (hr : 16 ≤ (getSlip s slip).rx.powerRun) {deeper : Nat}
    (hd : min (getSlip s slip).tx.powerReq (getSlip s slip).rx.powerReq = deeper)
    (hp : (getSlip s slip).power < deeper) (hq : deeper ≤ laneRequest s slip) : ∃ t, exec (.laneIdleEntry slip) s = .next t ∧
      LanesOnly slip s t ∧ (getSlip t slip).power = deeper ∧ (getSlip t slip).state = .inService ∧
      (1 < deeper → (getSlip t slip).rx.fecLock = false) := by
  generalize hu : (if deeper = 1 then s else measureSlip slip s) = u
  have hx : exec (.laneIdleEntry slip) s = .next (settle (modLane slip (fun p => { p with
      power := deeper
      rx := if deeper = 1 then p.rx else { p.rx with fecLock := false, sawLocked := false, goodRun := 0 } }) u)) := by
    simp only [exec, execLaneIdleEntry, hst, hw, hb, ht, hr, hd, hp, hq, finish, beq_self_eq_true, Bool.not_false, Bool.and_self,
      decide_true, if_true, hu]
  have hget : ∃ y, getSlip u slip = { getSlip s slip with tele := y } := by
    rw [← hu]
    split
    · exact ⟨_, rfl⟩
    · exact getSlip_measureSlip_same s slip
  obtain ⟨y, hy⟩ := hget
  obtain ⟨z, hz⟩ := getSlip_modLane_same u slip (fun p => { p with
    power := deeper
    rx := if deeper = 1 then p.rx else { p.rx with fecLock := false, sawLocked := false, goodRun := 0 } })
  refine ⟨_, hx, lanesOnly_of_view ?_ (fun n hn => ?_), ?_⟩
  · rw [view_settle _ (by simp [loud]), view_modLane _ _ _ (by simp), ← hu]
    split
    · rfl
    · exact view_measureSlip _ _ (by simp [loud])
  · rw [getSlip_settle, getSlip_modLane_ne _ hn, ← hu]
    split <;> simp [hn]
  · rw [getSlip_settle, hz, hy]
    refine ⟨rfl, hst, fun h => ?_⟩
    dsimp only
    rw [if_neg (by omega)]

/-- A slip whose lanes wake. -/
theorem exists_laneWake (h1 : 1 ≤ (getSlip s slip).power) (h3 : (getSlip s slip).power ≤ 3) (hw : (getSlip s slip).waking = false) :
    ∃ t, exec (.laneWake slip) s = .next t ∧ LanesOnly slip s t ∧ (getSlip t slip).waking = true ∧
      (getSlip t slip).wakeStart = s.tide.count ∧ (getSlip t slip).power = (getSlip s slip).power ∧ (getSlip t slip).tx.powerReq = 0 ∧
      t.outbox = s.outbox ++ (if (getSlip s slip).power = 1 then [] else [.marker slip (getSlip s slip).tx.amCount]) := by
  have hx : exec (.laneWake slip) s = .next (settle (wakeSlip slip s)) := rfl
  refine ⟨_, hx, lanesOnly_of_view ?_ (fun n hn => ?_), ?_⟩
  · rw [view_settle _ (by simp [loud]), view_wakeSlip _ _ (by simp [loud])]
  · simp [hn]
  · rw [getSlip_settle]
    unfold wakeSlip
    simp only [h1, h3, hw, decide_true, Bool.and_self, Bool.not_true, Bool.false_or, Bool.false_eq_true, if_false]
    split
    · simp only [getSlip_modSlip_same, setPowerReq]
      exact ⟨trivial, rfl, trivial, trivial, (List.append_nil _).symm⟩
    · simp only [getSlip_modSlip_same, getSlip_emit, setPowerReq]
      exact ⟨trivial, rfl, trivial, rfl, rfl⟩

theorem wakeSlip_of_awake (h : (getSlip s slip).power = 0 ∨ 3 < (getSlip s slip).power ∨ (getSlip s slip).waking = true) :
    wakeSlip slip s = modSlip slip (fun p => { p with lastWork := s.tide.count, tx := { p.tx with powerReq := 0 } }) s := by
  have hc : (!(decide (1 ≤ (getSlip s slip).power) && decide ((getSlip s slip).power ≤ 3)) || (getSlip s slip).waking) = true := by
    rcases h with h | h | h
    · simp [h]
    · have : ¬ (getSlip s slip).power ≤ 3 := by omega
      simp [this]
    · simp [h]
  unfold wakeSlip
  simp only [hc, if_true]
  exact modSlip_modSlip slip _ _ s

theorem exists_laneWakeDone (hw : (getSlip s slip).waking = true)
    (hup : ((getSlip s slip).power = 1 ∧ 128 ≤ tideSince (getSlip s slip).wakeStart s.tide.count) ∨
      ((getSlip s slip).power ≠ 1 ∧ (getSlip s slip).rx.fecLock = true ∧ (getSlip s slip).rx.sawLocked = true)) :
    ∃ t, exec (.laneWakeDone slip) s = .next t ∧ LanesOnly slip s t ∧
      (getSlip t slip).power = 0 ∧ (getSlip t slip).waking = false ∧ (getSlip t slip).state = (getSlip s slip).state ∧
      ((getSlip s slip).power = 3 → (getSlip s slip).ltx.held.length < 256 →
        ∃ f, (getSlip t slip).ltx.held = (getSlip s slip).ltx.held ++ [f] ∧ f.ftype = 2) := by
  generalize hu : modLane slip (fun p => { p with power := 0, waking := false, lastWork := now s }) s = u
  have hc : ((getSlip s slip).waking && (if (getSlip s slip).power = 1 then decide (128 ≤ tideSince (getSlip s slip).wakeStart (now s))
      else (getSlip s slip).rx.fecLock && (getSlip s slip).rx.sawLocked)) = true := by
    rcases hup with ⟨hp, ht⟩ | ⟨hp, hf, hs⟩
    · simp [hw, hp]
      exact ht
    · simp [hw, hp, hf, hs]
  have hx : exec (.laneWakeDone slip) s = .next (settle (if (getSlip s slip).power = 3 then sendIdent slip u else u)) := by
    rw [← hu]
    exact if_pos hc
  obtain ⟨y, hy⟩ := getSlip_modLane_same s slip (fun p => { p with power := 0, waking := false, lastWork := now s })
  rw [hu] at hy
  have hview : view (.slips :: loud) u = view (.slips :: loud) s := by
    rw [← hu]
    exact view_modLane _ _ _ (by simp)
  have hne (n : Nat) (hn : n ≠ slip) : getSlip u n = getSlip s n := by
    rw [← hu]
    exact getSlip_modLane_ne _ hn _
  by_cases h3 : (getSlip s slip).power = 3
  · rw [if_pos h3] at hx
    obtain ⟨l, x, z, w, hs, hf⟩ := getSlip_sendIdent_same (s := u) (slip := slip)
    refine ⟨_, hx, lanesOnly_of_view ?_ (fun n hn => ?_), ?_⟩
    · rw [view_settle _ (by simp [loud]), view_sendIdent _ _ (by simp [loud]), hview]
    · rw [getSlip_settle, getSlip_sendIdent_ne hn, hne n hn]
    · rw [getSlip_settle, hs]
      rw [hy] at hf ⊢
      refine ⟨rfl, rfl, rfl, fun _ hroom => ?_⟩
      obtain ⟨f, hheld, htype, _⟩ := hf hroom
      exact ⟨f, hheld, htype⟩
  · rw [if_neg h3] at hx
    refine ⟨_, hx, lanesOnly_of_view ?_ (fun n hn => ?_), ?_⟩
    · rw [view_settle _ (by simp [loud]), hview]
    · rw [getSlip_settle, hne n hn]
    · rw [getSlip_settle, hy]
      exact ⟨rfl, rfl, rfl, fun h => absurd h h3⟩

theorem exists_wakeFail (hw : (getSlip s slip).waking = true)
    (hlate : 2 * laneWakeTime (getSlip s slip).power < tideSince (getSlip s slip).wakeStart s.tide.count) :
    ∃ t, exec (.wakeFail slip) s = .next t ∧ LaneCounted slip 23 1 s t ∧ (getSlip t slip).state = .down := by
  have hx : exec (.wakeFail slip) s = .next (settle (moveSlip slip .down 7 (countLane slip 23 1 s))) :=
    if_pos (by simp [hw]; exact hlate)
  obtain ⟨c, x, seeds, _, h⟩ := getSlip_changeSlip_down (countLane slip 23 1 s) slip 7
  have hcount : LaneCounted slip 23 1 s (countLane slip 23 1 s) := laneCounted_countLane 23 1
  refine ⟨_, hx, ?_, ?_⟩
  · unfold LaneCounted at hcount ⊢
    rw [getSlip_settle, getSlip_moveSlip, h]
    exact hcount
  · rw [getSlip_settle, getSlip_moveSlip, h]
    rfl

end

/-! ### Optics alarms -/

theorem alarmBit_lt {lane : Nat} (power : Bool) (h : lane < 16) : alarmBit lane power < 32 := by
  unfold alarmBit
  split <;> omega

theorem getLsbD_setAlarm (a : BitVec 32) {b : Nat} (hb : b < 32) (i : Nat) :
    (a ||| BitVec.ofNat 32 (2 ^ b)).getLsbD i = (a.getLsbD i || decide (i = b)) := by
  rw [BitVec.getLsbD_or, BitVec.getLsbD_ofNat, Nat.testBit_two_pow]
  by_cases h : i = b
  · subst h
    simp [hb]
  · have : b ≠ i := fun e => h e.symm
    simp [h, this]

theorem getLsbD_clearAlarm (a : BitVec 32) {b : Nat} (hb : b < 32) (i : Nat) :
    (a &&& ~~~(BitVec.ofNat 32 (2 ^ b))).getLsbD i = (a.getLsbD i && !decide (i = b)) := by
  rw [BitVec.getLsbD_and, BitVec.getLsbD_not, BitVec.getLsbD_ofNat, Nat.testBit_two_pow]
  by_cases h : i = b
  · subst h
    simp [hb]
  · have hne : b ≠ i := fun e => h e.symm
    by_cases hi : i < 32
    · simp [h, hne, hi]
    · simp [hi, BitVec.getLsbD_of_ge a i (by omega)]

section
variable {s : State} {k lane : Nat} {power : Bool}

theorem exists_opticsAlarm (hl : lane < 16) (hb : (getEngine s k).alarms.getLsbD (alarmBit lane power) = false)
    (hst : (getEngine s k).state ≠ 2) (hup : power = true → (getSlip s (8 * k + lane / 2)).state = .inService) :
    ∃ t, exec (.opticsAlarm k lane power) s = .next t ∧ (getEngine t k).alarms.getLsbD (alarmBit lane power) = true ∧
      (∀ i, i ≠ alarmBit lane power → (getEngine t k).alarms.getLsbD i = (getEngine s k).alarms.getLsbD i) ∧
      (∀ j, j ≠ k → getEngine t j = getEngine s j) ∧ t.quiet = { s with optics := t.optics }.quiet ∧ t.slips = s.slips := by
  generalize hu : modEngine k (fun e => { e with alarms := e.alarms ||| BitVec.ofNat 32 (2 ^ alarmBit lane power) }) s = u
  generalize hp : le 1 k ++ le 1 lane ++ le 1 (b2n power) = params
  have hc : ((getEngine s k).alarms.getLsbD (alarmBit lane power) || (getEngine s k).state == 2 ||
      (power && !((getSlip s (8 * k + lane / 2)).state == .inService))) = false := by
    cases power with
    | false => simp [hb, hst]
    | true => simp [hb, hst, hup rfl]
  have hx : exec (.opticsAlarm k lane power) s = .next (settle (raiseEvent 0x0022 none params u)) := by
    simp only [exec, execOpticsAlarm, hc, Bool.false_eq_true, if_false, finish, hu, hp]
  have hoptics : (settle (raiseEvent 0x0022 none params u)).optics = u.optics := optics_of_view (by simp)
  have hget (j : Nat) : getEngine (settle (raiseEvent 0x0022 none params u)) j = getEngine u j :=
    congrArg (fun x => tabGet x j Engine.reset) hoptics
  have hsame : getEngine u k = { getEngine s k with
      alarms := (getEngine s k).alarms ||| BitVec.ofNat 32 (2 ^ alarmBit lane power) } := by
    rw [← hu]
    exact getEngine_modEngine_same _ _ _
  refine ⟨_, hx, ?_, fun i hi => ?_, fun j hj => ?_, quiet_optics_of_view ?_, ?_⟩
  · rw [hget, hsame]
    dsimp only
    rw [getLsbD_setAlarm _ (alarmBit_lt power hl)]
    simp
  · rw [hget, hsame]
    dsimp only
    rw [getLsbD_setAlarm _ (alarmBit_lt power hl)]
    simp [hi]
  · rw [hget, ← hu]
    exact getEngine_modEngine_ne _ _ hj
  · rw [view_settle _ (by simp [loud]), view_raiseEvent _ _ _ _ (by simp [loud]), ← hu, view_modEngine _ _ _ (by simp)]
  · refine (slips_of_view (s := u) (by simp)).trans ?_
    rw [← hu]
    rfl

theorem exists_opticsAlarmClear (hl : lane < 16) :
    ∃ t, exec (.opticsAlarmClear k lane power) s = .next t ∧ (getEngine t k).alarms.getLsbD (alarmBit lane power) = false ∧
      (∀ i, i ≠ alarmBit lane power → (getEngine t k).alarms.getLsbD i = (getEngine s k).alarms.getLsbD i) ∧
      (∀ j, j ≠ k → getEngine t j = getEngine s j) ∧ t.quiet = { s with optics := t.optics }.quiet := by
  have hsame := getEngine_modEngine_same s k (fun e => { e with alarms := e.alarms &&& ~~~(BitVec.ofNat 32 (2 ^ alarmBit lane power)) })
  refine ⟨_, rfl, ?_, fun i hi => ?_, fun j hj => ?_, ?_⟩
  · rw [getEngine_settle, hsame]
    dsimp only
    rw [getLsbD_clearAlarm _ (alarmBit_lt power hl)]
    simp
  · rw [getEngine_settle, hsame]
    dsimp only
    rw [getLsbD_clearAlarm _ (alarmBit_lt power hl)]
    simp [hi]
  · rw [getEngine_settle]
    exact getEngine_modEngine_ne _ _ hj
  · exact quiet_optics_of_view (by rw [view_settle _ (by simp [loud]), view_modEngine _ _ _ (by simp)])

end

/-- Settles O46. -/
theorem lanePowerAndOptics : Obligations.lane_power_and_optics := by
  intro s slip k lane power
  dsimp only
  refine ⟨fun hst hw hb ht hr hp hq => exists_laneIdleEntry hst hw hb ht hr rfl hp hq, exists_laneWake, fun h => ?_, exists_laneWakeDone,
    exists_wakeFail, exists_opticsAlarm, fun h => ?_, exists_opticsAlarmClear⟩
  · rw [← wakeSlip_of_awake h]
    rfl
  · exact if_pos (by simp [h])

end Sys2Proof.Proofs

/-!
Replay and the start of packets (O44).
-/
namespace Sys2Proof.Proofs
open Sys2Proof Sys2Proof.Machine Sys2Proof.Laws

section
variable {s : State} {slip : Nat}

/-! ### Replay -/

theorem linkCounted_countLink_ne {t : State} {k j m i : Nat} (h : LinkCounted slip k m s t) (hj : k ≠ j) :
    LinkCounted slip k m s (countLink slip j i t) :=
  linkCounted_of_get h (by rw [getSlip_countLink_same]; exact tabGet?_tabPut_ne _ _ hj)

theorem linkCounted_of_getSlip {t u : State} {k m : Nat} (h : LinkCounted slip k m s t)
    (hu : (getSlip u slip).linkCnt = (getSlip t slip).linkCnt) : LinkCounted slip k m s u := linkCounted_of_get h (by rw [hu])

theorem getSlip_countNoted (n k : Nat) : getSlip (countNoted n s) k = getSlip s k := getSlip_of_view (view_countNoted _ _ (by simp)) k

/-- What a replay counts, before the frames go again. -/
def replayCounted (slip n : Nat) (byTimer : Bool) (s : State) : State :=
  let s := countLink slip 6 n (countLink slip 4 1 (countNoted 0x0009 s))
  if byTimer then countLink slip 5 1 s else s

theorem getSlip_replayCounted (n : Nat) (byTimer : Bool) : (∃ c, getSlip (replayCounted slip n byTimer s) slip =
      { getSlip s slip with linkCnt := c }) ∧ LinkCounted slip 4 1 s (replayCounted slip n byTimer s) ∧
    (byTimer = true → LinkCounted slip 5 1 s (replayCounted slip n byTimer s)) := by
  have h4 : LinkCounted slip 4 1 s (countLink slip 6 n (countLink slip 4 1 (countNoted 0x0009 s))) := by
    refine linkCounted_countLink_ne ?_ (by decide)
    have h := linkCounted_countLink (s := countNoted 0x0009 s) (slip := slip) 4 1
    unfold LinkCounted at h ⊢
    rwa [getSlip_countNoted] at h
  have hget : getSlip (countLink slip 6 n (countLink slip 4 1 (countNoted 0x0009 s))) slip = { getSlip s slip with
      linkCnt := (getSlip (countLink slip 6 n (countLink slip 4 1 (countNoted 0x0009 s))) slip).linkCnt } := by
    simp only [getSlip_countLink_same, getSlip_countNoted]
  generalize hu : countLink slip 6 n (countLink slip 4 1 (countNoted 0x0009 s)) = u at h4 hget
  unfold replayCounted
  dsimp only
  rw [hu]
  cases byTimer with
  | false => exact ⟨⟨_, hget⟩, h4, fun h => by cases h⟩
  | true =>
    simp only [if_true]
    refine ⟨⟨_, by rw [getSlip_countLink_same, hget]⟩, linkCounted_countLink_ne h4 (by decide), fun _ => ?_⟩
    have h5 : tabGet? (getSlip u slip).linkCnt 5 = tabGet? (getSlip s slip).linkCnt 5 := by
      rw [← hu, getSlip_countLink_same, getSlip_countLink_same, getSlip_countNoted]
      exact (tabGet?_tabPut_ne _ _ (by decide)).trans (tabGet?_tabPut_ne _ _ (by decide))
    have h := linkCounted_countLink (s := u) (slip := slip) 5 1
    unfold LinkCounted at h ⊢
    rw [h]
    simp only [tabGet, h5]

/-- Frames that are transmitted, in turn. -/
def transmitAll (slip : Nat) (fs : List HeldFrame) (s : State) : State :=
  fs.foldl (fun s k => transmit slip k.ftype k.fseq k.unitMap k.units k.hseqs s) s

theorem getSlip_transmitAll (fs : List HeldFrame) : ∃ l x, getSlip (transmitAll slip fs s) slip = { getSlip s slip with lrx := l, tx := x } := by
  induction fs generalizing s with
  | nil => exact ⟨_, _, rfl⟩
  | cons f fs ih =>
    obtain ⟨l, x, h⟩ := getSlip_transmit_same s slip f.ftype f.fseq f.unitMap f.units f.hseqs
    obtain ⟨l', x', h'⟩ := ih (s := transmit slip f.ftype f.fseq f.unitMap f.units f.hseqs s)
    exact ⟨l', x', by rw [transmitAll, List.foldl_cons, ← transmitAll, h', h]⟩

/-- How often in a row a slip replays from its first held frame. -/
def replayRunOf (p : Slip) (f : HeldFrame) : Nat := if p.ltx.replayFrom = some f.fseq then p.ltx.replayRun + 1 else 1

/-- A replay, once its frames have gone again. -/
def replayNoted (slip run : Nat) (f : HeldFrame) (byTimer : Bool) (s : State) : State :=
  modSlip slip (fun p =>
    { p with ltx := { p.ltx with replayRun := run, replayFrom := some f.fseq, nakPending := false,
                                 ackChanged := if byTimer then now s else p.ltx.ackChanged } }) s

theorem replay_eq {f : HeldFrame} {fs : List HeldFrame} (hst : (getSlip s slip).state ≠ .down) (hh : (getSlip s slip).ltx.held = f :: fs)
    (byTimer : Bool) : ∃ u, replay slip byTimer s =
      (if 8 ≤ replayRunOf (getSlip s slip) f then moveSlip slip .down 2 u else u) ∧
      LinkCounted slip 4 1 s u ∧ (byTimer = true → LinkCounted slip 5 1 s u) ∧ (getSlip u slip).state = (getSlip s slip).state ∧
      (getSlip u slip).ltx.held = (getSlip s slip).ltx.held ∧ (getSlip u slip).ltx.replayRun = replayRunOf (getSlip s slip) f ∧
      (getSlip u slip).ltx.ackChanged = if byTimer then now s else (getSlip s slip).ltx.ackChanged := by
  obtain ⟨⟨c, hc⟩, h4, h5⟩ := getSlip_replayCounted (s := s) (slip := slip) (fs.length + 1) byTimer
  obtain ⟨l, x, hx⟩ := getSlip_transmitAll (s := replayCounted slip (fs.length + 1) byTimer s) (slip := slip) (f :: fs)
  generalize hv : transmitAll slip (f :: fs) (replayCounted slip (fs.length + 1) byTimer s) = v at hx
  rw [hc] at hx
  have hnow : now v = now s := by
    rw [← hv]
    refine congrArg TideUnit.count (tide_of_view ?_)
    unfold transmitAll replayCounted
    rw [view_foldl _ (fun s k => by simp)]
    dsimp only
    split <;> simp
  have hreplay : replay slip byTimer s = (if 8 ≤ replayRunOf (getSlip v slip) f then
      moveSlip slip .down 2 (replayNoted slip (replayRunOf (getSlip v slip) f) f byTimer v)
    else replayNoted slip (replayRunOf (getSlip v slip) f) f byTimer v) := by
    rw [← hv]
    unfold replay
    rw [if_neg hst, hh]
    rfl
  have hrun : replayRunOf (getSlip v slip) f = replayRunOf (getSlip s slip) f := by rw [hx]; rfl
  rw [hrun] at hreplay
  have hget : getSlip (replayNoted slip (replayRunOf (getSlip s slip) f) f byTimer v) slip = _ := getSlip_modSlip_same v slip _
  have hlinks : (getSlip (replayNoted slip (replayRunOf (getSlip s slip) f) f byTimer v) slip).linkCnt =
      (getSlip (replayCounted slip (fs.length + 1) byTimer s) slip).linkCnt := by
    rw [hget, hx, hc]
  refine ⟨_, hreplay, linkCounted_of_getSlip h4 hlinks, fun h => linkCounted_of_getSlip (h5 h) hlinks, ?_⟩
  rw [hget, hx, hnow]
  exact ⟨rfl, rfl, rfl, rfl⟩

theorem linkCounted_moveSlip_down {u : State} {k m : Nat} (h : LinkCounted slip k m s u) (hk : k ≠ 7 ∧ k ≠ 12 ∧ k ≠ 13) (reason : Nat) :
    LinkCounted slip k m s (moveSlip slip .down reason u) := by
  obtain ⟨c, x, seeds, hc, hx⟩ := getSlip_changeSlip_down u slip reason
  refine linkCounted_of_get h ?_
  rw [getSlip_moveSlip, hx]
  exact hc k hk.1 hk.2.1 hk.2.2

theorem state_moveSlip_down (u : State) (reason : Nat) : (getSlip (moveSlip slip .down reason u) slip).state = .down := by
  obtain ⟨c, x, seeds, hc, hx⟩ := getSlip_changeSlip_down u slip reason
  rw [getSlip_moveSlip, hx]
  rfl

/-- What a replay counts, and what it leaves unless it is the eighth in a row from one frame. -/
theorem replay_fields {f : HeldFrame} {fs : List HeldFrame} (hst : (getSlip s slip).state ≠ .down) (hh : (getSlip s slip).ltx.held = f :: fs)
    (byTimer : Bool) : LinkCounted slip 4 1 s (replay slip byTimer s) ∧ (byTimer = true → LinkCounted slip 5 1 s (replay slip byTimer s)) ∧
      (8 ≤ replayRunOf (getSlip s slip) f → (getSlip (replay slip byTimer s) slip).state = .down) ∧
      (replayRunOf (getSlip s slip) f < 8 → (getSlip (replay slip byTimer s) slip).state = (getSlip s slip).state ∧
        (getSlip (replay slip byTimer s) slip).ltx.held = (getSlip s slip).ltx.held ∧
        (getSlip (replay slip byTimer s) slip).ltx.replayRun = replayRunOf (getSlip s slip) f ∧
        (getSlip (replay slip byTimer s) slip).ltx.ackChanged = if byTimer then now s else (getSlip s slip).ltx.ackChanged) := by
  obtain ⟨u, hu, h4, h5, hrest⟩ := replay_eq hst hh byTimer
  rw [hu]
  by_cases hrun : 8 ≤ replayRunOf (getSlip s slip) f
  · rw [if_pos hrun]
    exact ⟨linkCounted_moveSlip_down h4 (by decide) 2, fun h => linkCounted_moveSlip_down (h5 h) (by decide) 2,
      fun _ => state_moveSlip_down u 2, fun h => absurd hrun (by omega)⟩
  · rw [if_neg hrun]
    exact ⟨h4, h5, fun h => absurd h hrun, fun _ => hrest⟩

theorem exists_nakReplay (h : (getSlip s slip).ltx.nakPending = true) (f : HeldFrame) (fs : List HeldFrame) :
    ∃ t, exec (.nakReplay slip) s = .next t ∧ (getSlip t slip).ltx.nakPending = false ∧
      (getSlip t slip).ltx.nakActedOn = some ((getSlip s slip).ltx.acked.getD 0xFFF) ∧
      ((getSlip s slip).state ≠ .down → (getSlip s slip).ltx.held ≠ [] → LinkCounted slip 4 1 s t) ∧
      ((getSlip s slip).state ≠ .down → (getSlip s slip).ltx.held = f :: fs → replayRunOf (getSlip s slip) f < 8 →
        (getSlip t slip).ltx.held = (getSlip s slip).ltx.held ∧ (getSlip t slip).ltx.ackChanged = (getSlip s slip).ltx.ackChanged) := by
  have hx : exec (.nakReplay slip) s = .next (settle (modSlip slip (fun p =>
      { p with ltx := { p.ltx with nakPending := false, nakActedOn := some ((getSlip s slip).ltx.acked.getD 0xFFF) } })
      (replay slip false s))) := if_pos h
  refine ⟨_, hx, ?_⟩
  have hcnt (hc : LinkCounted slip 4 1 s (replay slip false s)) := linkCounted_of_getSlip (u := settle (modSlip slip (fun p =>
      { p with ltx := { p.ltx with nakPending := false, nakActedOn := some ((getSlip s slip).ltx.acked.getD 0xFFF) } })
      (replay slip false s))) hc (by rw [getSlip_settle, getSlip_modSlip_same])
  rw [getSlip_settle, getSlip_modSlip_same]
  refine ⟨rfl, rfl, fun hst hne => hcnt ?_, fun hst hh hrun => ?_⟩
  · obtain ⟨g, gs, hg⟩ := List.exists_cons_of_ne_nil hne
    exact (replay_fields hst hg false).1
  · obtain ⟨_, _, _, hkeep⟩ := replay_fields hst hh false
    obtain ⟨_, hheld, _, hack⟩ := hkeep hrun
    exact ⟨hheld, hack⟩

theorem exists_replayTimeout {f : HeldFrame} {fs : List HeldFrame} (hst : (getSlip s slip).state ≠ .down)
    (hh : (getSlip s slip).ltx.held = f :: fs) (hlate : 8000 ≤ tideSince (getSlip s slip).ltx.ackChanged s.tide.count) :
    ∃ t, exec (.replayTimeout slip) s = .next t ∧ LinkCounted slip 4 1 s t ∧ LinkCounted slip 5 1 s t ∧
      (8 ≤ replayRunOf (getSlip s slip) f → (getSlip t slip).state = .down) ∧
      (replayRunOf (getSlip s slip) f < 8 → (getSlip t slip).state = (getSlip s slip).state ∧
        (getSlip t slip).ltx.held = (getSlip s slip).ltx.held ∧ (getSlip t slip).ltx.replayRun = replayRunOf (getSlip s slip) f ∧
        (getSlip t slip).ltx.ackChanged = s.tide.count) := by
  have hx : exec (.replayTimeout slip) s = .next (settle (replay slip true s)) := if_pos (by simp [hh]; exact hlate)
  obtain ⟨h4, h5, hdown, hkeep⟩ := replay_fields hst hh true
  generalize replay slip true s = u at hx h4 h5 hdown hkeep
  exact ⟨_, hx, linkCounted_of_getSlip h4 rfl, linkCounted_of_getSlip (h5 rfl) rfl, hdown, hkeep⟩

end

/-! ### The start of a packet -/

section
variable (s : State) (slip : Nat)

theorem getHawser_modHawser (h : Nat) (f : Hawser → Hawser) : getHawser (modHawser h f s) h = f (getHawser s h) := by
  conv => lhs; unfold getHawser
  simp only [modHawser, tabGet?_tabPut_same]

theorem hawserOf_of_hawsers {t u : State} (h : t.hawsers = u.hawsers) (n : Nat) : hawserOf t n = hawserOf u n := by
  simp only [hawserOf, h]

@[simp] theorem getHawser_modSlip (f : Slip → Slip) (n : Nat) : getHawser (modSlip slip f s) n = getHawser s n := rfl

@[simp] theorem getHawser_settle (n : Nat) : getHawser (settle s) n = getHawser s n := rfl

theorem getHawser_of_hawsers {t u : State} (h : t.hawsers = u.hawsers) (n : Nat) : getHawser t n = getHawser u n := by
  unfold getHawser
  rw [hawserOf_of_hawsers h, h]

/-- DATA frames of one packet, kept for replay behind those held. -/
def KeptFrames (p : Slip) (y : SentPkt) (x : Slip) : Prop :=
  (∃ new, x.ltx.held = p.ltx.held ++ new ∧ ∀ z ∈ new, z.ftype = 0 ∧ z.pkts = [y]) ∧ x.ltx.consumed = p.ltx.consumed

theorem keptFrames_refl (p : Slip) (y : SentPkt) : KeptFrames p y p := ⟨⟨[], by simp, by simp⟩, rfl⟩

theorem keptFrames_sendFrame {p : Slip} {y : SentPkt} (h : KeptFrames p y (getSlip s slip)) (m : List Nat) (us : List (List Byte))
    (hs : List Seq) : KeptFrames p y (getSlip (sendFrame slip 0 m us hs [y] s) slip) := by
  obtain ⟨⟨new, hheld, hnew⟩, hc⟩ := h
  obtain ⟨l, x, a, w, hf⟩ := getSlip_sendFrame_same s slip 0 m us hs [y]
  rw [hf]
  refine ⟨⟨new ++ [_], by rw [hheld, List.append_assoc], ?_⟩, hc⟩
  intro z hz
  rcases List.mem_append.mp hz with hz | hz
  · exact hnew z hz
  · rw [List.mem_singleton.mp hz]
    exact ⟨rfl, rfl⟩

theorem keptFrames_sendPacketFrames (q : Seq) (k : Packet) (via : Option Nat) :
    KeptFrames (getSlip s slip) { seq := q, pkt := k, via := via } (getSlip (sendPacketFrames slip q k via s) slip) := by
  have hfold (fs : List (List (List Byte) × Nat)) (u : State)
      (hu : KeptFrames (getSlip s slip) { seq := q, pkt := k, via := via } (getSlip u slip)) :
      KeptFrames (getSlip s slip) { seq := q, pkt := k, via := via } (getSlip (fs.foldl (fun s f =>
        let map := (List.range 9).map (fun i => if f.1.length ≤ i then 0 else if f.2 = 0 && i = 0 then 1 else 2)
        sendFrame slip 0 map f.1 (if f.2 = 0 then [q] else []) [{ seq := q, pkt := k, via := via }] s) u) slip) := by
    induction fs generalizing u with
    | nil => exact hu
    | cons f fs ih => exact ih _ (keptFrames_sendFrame u slip hu _ _ _)
  exact hfold _ s (keptFrames_refl _ _)

@[simp] theorem getSlip_countSlip (n k i : Nat) : getSlip (countSlip slip n k s) i = getSlip s i :=
  getSlip_of_view (by simp [countSlip]) i

/-- A packet that starts takes its credits. -/
theorem ltx_payStart (cls u : Nat) : (getSlip (payStart slip cls u s) slip).ltx = { (getSlip s slip).ltx with
    consumed := tabPut (getSlip s slip).ltx.consumed cls (tabGet (getSlip s slip).ltx.consumed cls 0 + BitVec.ofNat 24 u) } := by
  unfold payStart
  dsimp only
  rw [getSlip_countSlip, getSlip_countSlip, getSlip_modSlip_same]

/-- A packet sent in frames of its own, its credits taken. -/
theorem sends_packet (cls : Nat) (q : Seq) (k : Packet) (via : Option Nat) {p : Slip} {t : State}
    (ht : getSlip t slip = getSlip (sendPacketFrames slip q k via (payStart slip cls (pktUnits k) s)) slip)
    (hp : (getSlip s slip).ltx = p.ltx) :
    (∃ new, (getSlip t slip).ltx.held = p.ltx.held ++ new ∧
      ∀ z ∈ new, z.ftype = 0 ∧ z.pkts = [{ seq := q, pkt := k, via := via }]) ∧
    tabGet (getSlip t slip).ltx.consumed cls 0 = tabGet p.ltx.consumed cls 0 + BitVec.ofNat 24 (pktUnits k) := by
  obtain ⟨⟨new, hheld, hnew⟩, hc⟩ := keptFrames_sendPacketFrames (payStart slip cls (pktUnits k) s) slip q k via
  rw [ltx_payStart, hp] at hheld hc
  rw [ht]
  refine ⟨⟨new, hheld, hnew⟩, ?_⟩
  rw [hc]
  simp only [tabGet, tabGet?_tabPut_same, Option.getD_some]

end

section
variable {s : State} {slip : Nat}

/-- Class service changes nothing but its own standing with the slip. -/
theorem pickClass_state : (pickClass s slip).2 = s ∨
    ∃ c g d, (pickClass s slip).2 = modSlip slip (fun p => { p with cur := c, granted := g, deficit := d }) s := by
  unfold pickClass
  split
  · exact .inl rfl
  · split
    · exact .inl rfl
    · exact .inr ⟨_, _, _, rfl⟩

theorem leaving_of_ex {u : State} (h : (getSlip u slip).ex = (getSlip s slip).ex) (r : Replica) :
    leaving u slip r = leaving s slip r := by
  unfold leaving peerSlip
  rw [h]

theorem stampTide_of_now {u : State} (h : now u = now s) (p : Packet) : (stampTide p u).1 = (stampTide p s).1 := by
  unfold stampTide
  rw [h]
  split
  · split
    · rfl
    · split <;> rfl
  · rfl

/-- What a packet's start takes from its queue, before its frames go. -/
def replicaTaken (slip l cls : Nat) (q : Queued) (r : Replica) (s : State) : State :=
  modSlip slip (fun p => { p with rr := tabPut p.rr cls l })
    (modHawser (hawserOf s slip) (fun x => { x with txSeq := x.txSeq + 1 })
      (pushFollow l (hawserOf s slip) r.follow (takeReplica l q r (stampTide (leaving s slip r) s).2)))

theorem startReplica_eq (l cls : Nat) (q : Queued) (r : Replica) : startReplica slip l cls q r s =
    emissionsLeft q.emit 1 (sendPacketFrames slip (getHawser s (hawserOf s slip)).txSeq (stampTide (leaving s slip r) s).1 q.chargedSlip
      (payStart slip cls (pktUnits (stampTide (leaving s slip r) s).1) (replicaTaken slip l cls q r s))) := rfl

theorem getSlip_replicaTaken (l cls : Nat) (q : Queued) (r : Replica) :
    (getSlip (replicaTaken slip l cls q r s) slip).ltx = (getSlip s slip).ltx := by
  have h : getSlip (pushFollow l (hawserOf s slip) r.follow (takeReplica l q r (stampTide (leaving s slip r) s).2)) slip = getSlip s slip :=
    getSlip_of_view (by simp) slip
  unfold replicaTaken
  rw [getSlip_modSlip_same, getSlip_modHawser, h]

theorem txSeq_replicaTaken (l cls : Nat) (q : Queued) (r : Replica) :
    (getHawser (replicaTaken slip l cls q r s) (hawserOf s slip)).txSeq = (getHawser s (hawserOf s slip)).txSeq + 1 := by
  have h : (pushFollow l (hawserOf s slip) r.follow (takeReplica l q r (stampTide (leaving s slip r) s).2)).hawsers = s.hawsers :=
    hawsers_of_view (by simp)
  unfold replicaTaken
  rw [getHawser_modSlip, getHawser_modHawser, getHawser_of_hawsers h]

theorem startReplica_fields (l cls : Nat) (q : Queued) (r : Replica) :
    getSlip (startReplica slip l cls q r s) slip = getSlip (sendPacketFrames slip (getHawser s (hawserOf s slip)).txSeq
      (stampTide (leaving s slip r) s).1 q.chargedSlip (payStart slip cls (pktUnits (stampTide (leaving s slip r) s).1)
        (replicaTaken slip l cls q r s))) slip ∧
    (getHawser (startReplica slip l cls q r s) (hawserOf s slip)).txSeq = (getHawser s (hawserOf s slip)).txSeq + 1 ∧
    (startReplica slip l cls q r s).jobs = s.jobs ∧ (startReplica slip l cls q r s).hbm = s.hbm ∧
    (startReplica slip l cls q r s).net = s.net := by
  refine ⟨?_, ?_, jobs_of_view (by simp), hbm_of_view (by simp), net_of_view (by simp)⟩
  · rw [startReplica_eq]
    exact getSlip_of_view (by simp) slip
  · have h : (startReplica slip l cls q r s).hawsers = (replicaTaken slip l cls q r s).hawsers := by
      rw [startReplica_eq]
      exact hawsers_of_view (by simp)
    rw [← txSeq_replicaTaken l cls q r, getHawser_of_hawsers h]

theorem exists_packetStart {l k : Nat} {q : Queued} {r : Replica} (hf : (getHawser s (hawserOf s slip)).failover = [])
    (hm : maySend s slip = true) (hk : (pickClass s slip).1 = some k) (hc : classHead s slip k = some (l, q, r))
    (hfit : framesFit s slip r.pkt = true) : ∃ t, exec (.packetStart slip) s = .next t ∧
      ((∃ new, (getSlip t slip).ltx.held = (getSlip s slip).ltx.held ++ new ∧ ∀ z ∈ new, z.ftype = 0 ∧ z.pkts = [
          { seq := (getHawser s (hawserOf s slip)).txSeq, pkt := (stampTide (leaving s slip r) s).1, via := q.chargedSlip }]) ∧
        tabGet (getSlip t slip).ltx.consumed k 0 = tabGet (getSlip s slip).ltx.consumed k 0 +
          BitVec.ofNat 24 (pktUnits (stampTide (leaving s slip r) s).1)) ∧
      (getHawser t (hawserOf s slip)).txSeq = (getHawser s (hawserOf s slip)).txSeq + 1 ∧
      t.jobs = s.jobs ∧ t.hbm = s.hbm ∧ t.net = s.net := by
  have hx : exec (.packetStart slip) s = .next (settle (startReplica slip l k q r (pickClass s slip).2)) := by
    change execPacketStart slip s = _
    unfold execPacketStart
    simp only [hm, hf, hk, hc, hfit, Bool.not_true, Bool.false_eq_true, if_false, List.isEmpty_nil, Option.bind_some, Option.map_some,
      if_true]
    rfl
  obtain ⟨c, hcu, hltx, hex⟩ : ∃ c : State, (pickClass s slip).2 = c ∧ (getSlip c slip).ltx = (getSlip s slip).ltx ∧
      (getSlip c slip).ex = (getSlip s slip).ex := by
    refine ⟨_, rfl, ?_⟩
    rcases pickClass_state (s := s) (slip := slip) with h | ⟨a, b, d, h⟩
    · rw [h]; exact ⟨rfl, rfl⟩
    · rw [h, getSlip_modSlip_same]; exact ⟨rfl, rfl⟩
  have hkeep : c.hawsers = s.hawsers ∧ c.tide = s.tide ∧ c.jobs = s.jobs ∧ c.hbm = s.hbm ∧ c.net = s.net := by
    rw [← hcu]
    rcases pickClass_state (s := s) (slip := slip) with h | ⟨a, b, d, h⟩ <;> rw [h] <;> exact ⟨rfl, rfl, rfl, rfl, rfl⟩
  obtain ⟨hhaw, htide, hjobs, hhbm, hnet⟩ := hkeep
  have hpkt : (stampTide (leaving c slip r) c).1 = (stampTide (leaving s slip r) s).1 := by
    rw [leaving_of_ex hex, stampTide_of_now (congrArg TideUnit.count htide)]
  obtain ⟨hget, htx, hj, hb, hn⟩ := startReplica_fields (s := c) (slip := slip) l k q r
  rw [hcu] at hx
  generalize hu : startReplica slip l k q r c = u at hx hget htx hj hb hn
  rw [hpkt, hawserOf_of_hawsers hhaw, getHawser_of_hawsers hhaw] at hget
  rw [hawserOf_of_hawsers hhaw, getHawser_of_hawsers hhaw] at htx
  refine ⟨_, hx, ?_, ?_, hj.trans hjobs, hb.trans hhbm, hn.trans hnet⟩
  · exact sends_packet (replicaTaken slip l k q r c) slip k _ _ _ (by rw [getSlip_settle, hget])
      (by rw [getSlip_replicaTaken, hltx])
  · exact htx

theorem exists_packetStart_failover {fp : SentPkt} (hf : (getHawser s (hawserOf s slip)).failover ≠ [])
    (hh : failoverHead s slip = some fp) (hfit : framesFit s slip fp.pkt = true) (hm : maySend s slip = true) :
    ∃ t, exec (.packetStart slip) s = .next t ∧
      ((∃ new, (getSlip t slip).ltx.held = (getSlip s slip).ltx.held ++ new ∧ ∀ z ∈ new, z.ftype = 0 ∧ z.pkts = [fp]) ∧
        tabGet (getSlip t slip).ltx.consumed fp.pkt.hdr.cls 0 = tabGet (getSlip s slip).ltx.consumed fp.pkt.hdr.cls 0 +
          BitVec.ofNat 24 (pktUnits fp.pkt)) ∧
      (getHawser t (hawserOf s slip)).txSeq = (getHawser s (hawserOf s slip)).txSeq ∧
      (getHawser t (hawserOf s slip)).failover = (getHawser s (hawserOf s slip)).failover.filter (fun x => x.seq != fp.seq) := by
  have hx : exec (.packetStart slip) s = .next (settle (startFailover slip fp s)) := by
    change execPacketStart slip s = _
    unfold execPacketStart
    have hne : (getHawser s (hawserOf s slip)).failover.isEmpty = false := List.isEmpty_eq_false_iff.mpr hf
    simp only [hm, hh, hfit, hne, Bool.not_true, Bool.false_eq_true, if_false, Bool.not_false, if_true]
    rfl
  have hhaw : (startFailover slip fp s).hawsers = (modHawser (hawserOf s slip) (fun x =>
      { x with failover := x.failover.filter (fun g => g.seq != fp.seq) }) s).hawsers := hawsers_of_view (by simp [startFailover])
  have hget : getHawser (startFailover slip fp s) (hawserOf s slip) = { getHawser s (hawserOf s slip) with
      failover := (getHawser s (hawserOf s slip)).failover.filter (fun g => g.seq != fp.seq) } := by
    rw [getHawser_of_hawsers hhaw, getHawser_modHawser]
  have hsend := sends_packet (modHawser (hawserOf s slip) (fun x =>
    { x with failover := x.failover.filter (fun g => g.seq != fp.seq) }) s) slip fp.pkt.hdr.cls fp.seq fp.pkt fp.via
    (t := startFailover slip fp s) rfl rfl
  generalize startFailover slip fp s = u at hx hget hsend
  exact ⟨_, hx, hsend, by rw [getHawser_settle, hget], by rw [getHawser_settle, hget]⟩

theorem powerReq_after (x : LaneTx) (prbs : BitVec 31) (m0 m1 : Nat) (last spacious : Bool) :
    (x.after prbs m0 m1 last spacious).powerReq = x.powerReq := by
  cases last <;> rfl

/-- The codeword of a frame leaves the lane power state it asks for. -/
theorem powerReq_sendCodeword (b : List Byte) : (getSlip (sendCodeword slip b s) slip).tx.powerReq = (getSlip s slip).tx.powerReq := by
  unfold sendCodeword
  dsimp only
  rw [getSlip_modSlip_same]
  dsimp only [LaneTx.word]
  rw [powerReq_after]

theorem getSlip_transmit_req (ftype : Nat) (f : FSeq) (m : List Nat) (us : List (List Byte)) (hs : List Seq) :
    (getSlip (transmit slip ftype f m us hs s) slip).tx.powerReq = (getSlip s slip).tx.powerReq := by
  obtain ⟨l, hl⟩ := getSlip_refreshCredits_same s slip
  unfold transmit
  dsimp only
  rw [powerReq_sendCodeword, getSlip_emit, hl]

theorem frame_mem_transmit (ftype : Nat) (f : FSeq) (m : List Nat) (us : List (List Byte)) (hs : List Seq) :
    ∃ b, Output.frame slip b ∈ (transmit slip ftype f m us hs s).outbox := by
  refine ⟨frameBytes (refreshCredits slip s) slip ftype f m us hs, ?_⟩
  unfold transmit sendCodeword
  dsimp only
  split <;> simp [emit, modSlip]

theorem getSlip_sendIdle : (getSlip (sendIdle slip s) slip).ltx = (getSlip s slip).ltx ∧
    (getSlip (sendIdle slip s) slip).tx.powerReq = (getSlip s slip).tx.powerReq := by
  unfold sendIdle
  rw [getSlip_countSlip, getSlip_transmit_req]
  obtain ⟨l, x, h⟩ := getSlip_transmit_same s slip 1 (getSlip s slip).ltx.nextFseq (List.replicate 9 0) [] []
  rw [h]
  exact ⟨rfl, rfl⟩

theorem exists_packetStart_idle (hm : maySend s slip = false) (hd : (getSlip s slip).tx.data = true)
    (hp : (getSlip s slip).power ≤ 1 ∨ (getSlip s slip).waking = true) : ∃ t b, exec (.packetStart slip) s = .next t ∧
      LanesOnly slip s t ∧ Output.frame slip b ∈ t.outbox ∧ (getSlip t slip).ltx = (getSlip s slip).ltx ∧
      (getSlip t slip).tx.powerReq = laneRequest s slip := by
  have hx : exec (.packetStart slip) s = .next (settle (sendIdle slip (setPowerReq slip (laneRequest s slip) s))) := by
    have hg : ((getSlip s slip).tx.data && (decide ((getSlip s slip).power ≤ 1) || (getSlip s slip).waking)) = true := by simpa [hd] using hp
    change execPacketStart slip s = _
    unfold execPacketStart sendNothing
    rw [hm]
    exact congrArg finish (if_pos hg)
  obtain ⟨b, hb⟩ := frame_mem_transmit (s := setPowerReq slip (laneRequest s slip) s) (slip := slip) 1
    (getSlip (setPowerReq slip (laneRequest s slip) s) slip).ltx.nextFseq (List.replicate 9 0) [] []
  have hout : Output.frame slip b ∈ (sendIdle slip (setPowerReq slip (laneRequest s slip) s)).outbox := by
    exact (grows_countPurser _ _ _).subset hb
  obtain ⟨hltx, hreq⟩ := getSlip_sendIdle (s := setPowerReq slip (laneRequest s slip) s) (slip := slip)
  have hset : getSlip (setPowerReq slip (laneRequest s slip) s) slip = { getSlip s slip with
      tx := { (getSlip s slip).tx with powerReq := laneRequest s slip } } := getSlip_modSlip_same _ _ _
  have hview : view (.slips :: loud) (sendIdle slip (setPowerReq slip (laneRequest s slip) s)) = view (.slips :: loud) s := by
    simp [setPowerReq, loud]
  have hne (n : Nat) (hn : n ≠ slip) : getSlip (sendIdle slip (setPowerReq slip (laneRequest s slip) s)) n = getSlip s n := by
    simp [hn, sendIdle, setPowerReq]
  rw [hset] at hltx hreq
  generalize sendIdle slip (setPowerReq slip (laneRequest s slip) s) = u at hx hout hltx hreq hview hne
  refine ⟨_, b, hx, lanesOnly_of_view ?_ hne, hout, hltx, hreq⟩
  rw [view_settle _ (by simp [loud]), hview]

theorem replayTimeout_of_idle (h : (getSlip s slip).state = .down ∨ (getSlip s slip).ltx.held = [] ∨
    tideSince (getSlip s slip).ltx.ackChanged s.tide.count < 8000) : exec (.replayTimeout slip) s = .next (settle s) := by
  rcases h with h | h | h
  · have hr : replay slip true s = s := by simp [replay, h]
    change (if _ then finish (replay slip true s) else finish s) = _
    rw [hr, ite_self]
    rfl
  · exact if_neg (by simp [h])
  · refine if_neg ?_
    simp only [Bool.and_eq_true, decide_eq_true_eq, not_and]
    exact fun _ => Nat.not_le.mpr h

end

/-- Settles O44. -/
theorem replayAndPackets : Obligations.replay_and_packets := by
  unfold Obligations.replay_and_packets
  intro s slip l k f fs q r fp
  refine ⟨fun h => exists_nakReplay h f fs, fun h => ?_, fun hst hh hlate => exists_replayTimeout hst hh hlate, fun h => ?_,
    exists_packetStart, exists_packetStart_failover, exists_packetStart_idle, fun hm hd => ?_⟩
  · exact if_neg (by simp [h])
  · exact replayTimeout_of_idle h
  · change execPacketStart slip s = _
    unfold execPacketStart sendNothing
    rw [hm]
    exact congrArg finish (if_neg (by simp [hd]))

end Sys2Proof.Proofs

/-!
The tide tick (O47).
-/
namespace Sys2Proof.Proofs
open Sys2Proof Sys2Proof.Machine Sys2Proof.Laws

section
variable (s : State)

/-- The states that the slips had as the tick started. -/
def startStates (s : State) (n : Nat) : SlipState := (getSlip s n).startState

theorem qps_of_view {t : State} (h : view (others [.qps, .host]) t = view (others [.qps, .host]) s) : t.host.qps = s.host.qps := by
  have hv (u : State) : (view (others [.qps, .host]) u).host.qps = u.host.qps := by simp [view, viewHost]
  rw [← hv t, h, hv]

theorem startStates_of_slips {t : State} (h : t.slips = s.slips) : startStates t = startStates s := by
  funext n
  unfold startStates
  rw [getSlip_of_slips h]

theorem startStates_modSlip (slip : Nat) (f : Slip → Slip) (hf : ∀ p, (f p).startState = p.startState) :
    startStates (modSlip slip f s) = startStates s := by
  funext n
  unfold startStates
  by_cases h : n = slip
  · rw [h, getSlip_modSlip_same, hf]
  · rw [getSlip_modSlip_ne s h f]

theorem startStates_modTx (slip : Nat) (f : LaneTx → LaneTx) : startStates (modTx slip f s) = startStates s :=
  startStates_modSlip s slip _ (fun _ => rfl)

theorem startStates_restartBringup (slip : Nat) : startStates (restartBringup slip s) = startStates s := by
  funext n
  unfold startStates
  by_cases h : n = slip
  · obtain ⟨x, seeds, hx⟩ := getSlip_restartBringup_same s slip
    rw [h, hx]
    rfl
  · rw [getSlip_restartBringup_ne s h]

theorem startStates_wakeSlip (slip : Nat) : startStates (wakeSlip slip s) = startStates s := by
  funext n
  unfold startStates
  by_cases h : n = slip
  · obtain ⟨w, v, x, hx⟩ := getSlip_wakeSlip_same s slip
    rw [h, hx]
  · rw [getSlip_wakeSlip_ne s h]

theorem startStates_lanesTick (slip : Nat) : startStates (lanesTick slip s) = startStates s := by
  have hpat (u : State) : startStates (sendPattern slip u) = startStates u := startStates_modTx _ slip _
  have htrain (u : State) : startStates (sendTraining slip u) = startStates u := by
    refine (startStates_modTx _ slip _).trans ?_
    split <;> rfl
  have htest (u : State) : startStates (sendTestWord slip u) = startStates u := by
    refine (startStates_modSlip _ slip _ ?_).trans ?_
    · exact fun _ => rfl
    · rfl
  unfold lanesTick
  extract_lets p trains tests period due u
  have hu : startStates u = startStates s := startStates_modTx s slip _
  split
  · rfl
  · split
    · exact hpat s
    · split
      · exact hu
      · split
        · exact (htrain u).trans hu
        · exact (htest u).trans hu

theorem startStates_applyDeferred (d : Deferred) : startStates (applyDeferred d s) = startStates s := by
  cases d with
  | toll slip c t => exact startStates_modSlip s slip _ (fun _ => rfl)
  | releaseSlips =>
    refine (foldl_keeps _ startStates (fun u n => ?_) _ _).trans (startStates_of_slips _ rfl)
    split
    · exact startStates_restartBringup u n
    · rfl
  | buffers l b => rfl
  | switch c => rfl
  | throttle cap temp => rfl
  | deviceBudget b => rfl
  | jobBudget j b => rfl
  | hawserBudget h b => rfl

/-- A change of every slip that is there, where a slip that is not there keeps its reset state. -/
theorem getSlip_map (f : Slip → Slip) (n : Nat) : getSlip { s with slips := s.slips.map (fun p => (p.1, f p.2)) } n =
    ((tabGet? s.slips n).map f).getD Slip.reset :=
  congrArg (fun o => o.getD Slip.reset) (tabGet?_mapVal s.slips f n)

theorem startStates_gainTokens : startStates (gainTokens s) = startStates s := by
  funext n
  unfold startStates gainTokens
  rw [getSlip_map s (fun p => { p with tolls := p.tolls.map (fun t =>
      (t.1, if t.2.enable then { t.2 with tokens := min (t.2.tokens + t.2.rate) (t.2.burst * 1000) } else t.2)) }) n]
  unfold getSlip tabGet
  cases tabGet? s.slips n <;> rfl

theorem startStates_applyAll : startStates (applyAll s) = startStates s :=
  (foldl_keeps _ startStates (fun u d => startStates_applyDeferred u d) _ _).trans (startStates_gainTokens s)

theorem startStates_wakeOverBudget : startStates (wakeOverBudget s) = startStates s := by
  refine (foldl_keeps _ startStates (fun u k => startStates_of_slips _ ?_) _ _).trans ?_
  · dsimp only
    split
    · cases k <;> rfl
    · rfl
  · refine foldl_keeps _ startStates (fun u n => ?_) _ _
    dsimp only
    split
    · exact startStates_wakeSlip u n
    · rfl

theorem startStates_closeTick (n : Nat) : startStates (closeTick s) n = (getSlip s n).state := by
  have hs : (settleEvents s).slips = s.slips := slips_of_view (by simp)
  have h := tabGet?_mapVal s.slips (fun p : Slip => { p with startState := p.state }) n
  unfold startStates closeTick getSlip tabGet
  dsimp only
  rw [hs, h]
  cases tabGet? s.slips n <;> rfl

/-- What a tick does after the count has risen. -/
def afterCount (s : State) : State :=
  let wraps := s.tide.count == BitVec.allOnes 64
  let s := modTide (fun t => { t with count := t.count + 1 }) (closeTick s)
  if wraps then raiseEvent 0x0083 none [] s else s

/-- What a tick does once the changes that waited are made. -/
def afterChanges (s : State) : State :=
  let s := watchDrain (if s.pwr.k < 16 then countNoted 0x0008 s else s)
  sendLanes (wakeOverBudget (noteWork s))

theorem tideTick_of_locked (h : s.clk.tide = .locked) : tideTick s = afterChanges (countIdleTicks (applyAll (afterCount s))) := by
  unfold tideTick
  rw [h]
  rfl

theorem startStates_afterChanges : startStates (afterChanges s) = startStates s := by
  unfold afterChanges sendLanes
  refine (foldl_keeps _ startStates (fun u n => startStates_lanesTick u n) _ _).trans ((startStates_wakeOverBudget _).trans ?_)
  refine startStates_of_slips _ (slips_of_view ?_)
  split <;> simp

theorem startStates_afterCount (n : Nat) : startStates (afterCount s) n = (getSlip s n).state := by
  refine (congrFun (startStates_of_slips (closeTick s) ?_) n).trans (startStates_closeTick s n)
  unfold afterCount
  dsimp only
  refine slips_of_view ?_
  split <;> simp

theorem tide_afterCount : (afterCount s).tide.count = s.tide.count + 1 ∧ (afterCount s).tide.stepped = 0 := by
  have hs : (settleEvents s).tide = s.tide := tide_of_view (by simp)
  have h : (afterCount s).tide = { s.tide with stepped := 0, count := s.tide.count + 1 } := by
    unfold afterCount
    dsimp only
    split
    · rw [tide_raiseEvent, ← hs]; rfl
    · rw [← hs]; rfl
  rw [h]
  exact ⟨rfl, rfl⟩

/-- What one tick does (R140, R190, R230). -/
theorem tideTick_fields (h : s.clk.tide = .locked) : (tideTick s).tide.count = s.tide.count + 1 ∧ (tideTick s).tide.stepped = 0 ∧
    (tideTick s).deferred = [] ∧ (∀ n, (getSlip (tideTick s) n).startState = (getSlip s n).state) := by
  have htide : (afterChanges (countIdleTicks (applyAll (afterCount s)))).tide = (afterCount s).tide := by
    refine (tide_of_view ?_).trans ((tide_of_view (view_countIdleTicks _ (by simp))).trans (tide_of_view (view_applyAll _ (by simp))))
    unfold afterChanges
    dsimp only
    split <;> simp
  have hdef : (afterChanges (countIdleTicks (applyAll (afterCount s)))).deferred = (applyAll (afterCount s)).deferred := by
    refine (deferred_of_view ?_).trans (deferred_of_view (view_countIdleTicks _ (by simp)))
    unfold afterChanges
    dsimp only
    split <;> simp
  have hnone (u : State) : (applyAll u).deferred = [] :=
    foldl_keeps (fun s d => applyDeferred d s) State.deferred (fun v d => deferred_of_view (view_applyDeferred _ _ (by simp))) _ _
  obtain ⟨hcount, hstep⟩ := tide_afterCount s
  rw [tideTick_of_locked s h, htide, hdef]
  refine ⟨hcount, hstep, hnone _, fun n => ?_⟩
  have hidle : startStates (countIdleTicks (applyAll (afterCount s))) = startStates (applyAll (afterCount s)) :=
    startStates_of_slips _ (slips_of_view (view_countIdleTicks _ (by simp)))
  exact (congrFun ((startStates_afterChanges _).trans (hidle.trans (startStates_applyAll _))) n).trans (startStates_afterCount s n)

end

/-- Settles O47. -/
theorem tideTick : Obligations.tide_tick := by
  unfold Obligations.tide_tick
  intro s
  refine ⟨fun hp hl => ?_, fun hp hl => ?_, fun hl hc => ?_, fun hc => if_neg (by rw [decide_eq_false hc, Bool.and_false]; exact Bool.false_ne_true)⟩
  · have hx : step s = .next (settle (Machine.tideTick s)) := by
      unfold step
      rw [hp]
      rfl
    obtain ⟨hcount, hstep, hdef, hstart⟩ := tideTick_fields s hl
    have hpend : (Machine.tideTick s).pending = [] := (pending_of_view (by simp)).trans hp
    have hslots : (Machine.tideTick s).aon.slots = s.aon.slots := congrArg AlwaysOn.slots (aon_of_view (by simp))
    have hqps : (Machine.tideTick s).host.qps = s.host.qps := qps_of_view s (by simp)
    have hmem : (Machine.tideTick s).hbm.mem = s.hbm.mem := mem_of_view (by simp)
    exact ⟨_, hx, hcount, hdef, hstep, hstart, hpend, hslots, hqps, hmem⟩
  · have ht : Machine.tideTick s = s := if_pos (by simpa using hl)
    unfold step
    rw [hp, ht]
    rfl
  · have hx : exec .tideWrap s = .next (settle (Machine.tideTick s)) := if_pos (by simp [hl, hc])
    obtain ⟨hcount, _⟩ := tideTick_fields s hl
    have hmem : (Machine.tideTick s).hbm.mem = s.hbm.mem := mem_of_view (by simp)
    exact ⟨_, hx, hcount.trans (by rw [hc]; decide), hmem⟩

end Sys2Proof.Proofs

/-!
Fold batches, as they start and end (O55).
-/
namespace Sys2Proof.Proofs
open Sys2Proof Sys2Proof.Machine Sys2Proof.Laws

/-! ### Positions that are put back -/

section
variable {s : State} {c q : Nat} {r : Rctx}

theorem standing_closeIfDue (r : Rctx) : standing (closeIfDue r) = standing r := by
  unfold closeIfDue
  split
  · rfl
  · split
    · exact standing_closePeriod r
    · rfl

theorem standing_openPeriod (s : State) (r : Rctx) (p : Position) : standing (openPeriod s r p) = standing r := by
  unfold openPeriod
  split
  · rfl
  · split
    · split <;> rfl
    · dsimp only
      split
      · split
        · rfl
        · exact standing_closePeriod r
      · rfl

theorem positions_of_standing {a b : Rctx} (h : standing a = standing b) : a.positions = b.positions := congrArg (fun x => x.2.2.1) h

theorem rctx_putPosition (hr : tabGet? s.rctxs c = some r) (q : Nat) (p : Position) :
    tabGet? (putPosition c q p s).rctxs c = some (closeIfDue { r with positions := tabPut r.positions q p }) := by
  unfold putPosition
  refine rctx_modRctx_of_get (r := r) ?_ _
  rw [← hr]
  split
  · rw [rctxs_of_view (view_foldReason _ _ _ (by simp))]
  · rfl

/-- A position that is put back is the only one of its context that changes. -/
theorem exists_putPosition (hr : tabGet? s.rctxs c = some r) (q : Nat) (p : Position) : ∃ r', tabGet? (putPosition c q p s).rctxs c = some r' ∧
    tabGet? r'.positions q = some p ∧ (∀ k, k ≠ q → tabGet? r'.positions k = tabGet? r.positions k) := by
  refine ⟨_, rctx_putPosition hr q p, ?_, fun k hk => ?_⟩
  · rw [positions_of_standing (standing_closeIfDue _), tabGet?_tabPut_same]
  · rw [positions_of_standing (standing_closeIfDue _), tabGet?_tabPut_ne _ _ hk]

end

/-! ### What a batch makes of a position -/

theorem mem_of_mem_tabPut {α : Type} {t : Tab α} {k : Nat} {v : α} {x : Nat × α} (h : x ∈ tabPut t k v) : x = (k, v) ∨ x ∈ t := by
  induction t with
  | nil => exact .inl (List.mem_singleton.mp h)
  | cons y t ih =>
    unfold tabPut at h
    split at h
    · exact (List.mem_cons.mp h).imp_right id
    · split at h
      · exact (List.mem_cons.mp h).imp_right (List.mem_cons_of_mem _)
      · rcases List.mem_cons.mp h with h | h
        · exact .inr (h ▸ List.mem_cons_self)
        · exact (ih h).imp_right (List.mem_cons_of_mem _)

theorem mem_tabPut_same {α : Type} (t : Tab α) (k : Nat) (v : α) : (k, v) ∈ tabPut t k v := by
  induction t with
  | nil => exact List.mem_singleton.mpr rfl
  | cons y t ih =>
    unfold tabPut
    split
    · exact List.mem_cons_self
    · split
      · exact List.mem_cons_self
      · exact List.mem_cons_of_mem _ ih

theorem mem_tabPut_ne {α : Type} {t : Tab α} {k : Nat} (v : α) {x : Nat × α} (h : x ∈ t) (hk : x.1 ≠ k) : x ∈ tabPut t k v := by
  induction t with
  | nil => cases h
  | cons y t ih =>
    unfold tabPut
    split
    · exact List.mem_cons_of_mem _ h
    · split
      case isTrue hy =>
        refine List.mem_cons_of_mem _ ((List.mem_cons.mp h).resolve_left fun e => hk ?_)
        rw [e, hy]
      · rcases List.mem_cons.mp h with h | h
        · exact h ▸ List.mem_cons_self
        · exact List.mem_cons_of_mem _ (ih h)

section
variable {trunc : Bool} {r : Rctx} {n : Nat}

theorem mem_presentSlots {p : Position} {i : Nat} : i ∈ presentSlots p ↔ ∃ x, (i, x) ∈ p.contribs ∧ x.present = true := by
  simp [presentSlots]

theorem mem_foldedSlots {p : Position} {i : Nat} : i ∈ foldedSlots p ↔ ∃ x, (i, x) ∈ p.contribs ∧ x.folded = true := by
  simp [foldedSlots]

/-- What a slot's contribution, folded, changes of its position: the contribution's mark, and the berths. -/
theorem foldSlot_fields (p : Position) (slot : Nat) : (foldSlot trunc r n p slot).contribs = tabPut p.contribs slot
      { tabGet p.contribs slot (Contribution.empty 0 0) with folded := true } ∧
    (foldSlot trunc r n p slot).state = p.state ∧ (foldSlot trunc r n p slot).sweeping = p.sweeping ∧
    (foldSlot trunc r n p slot).chunk = p.chunk := by
  unfold foldSlot
  dsimp only
  split <;> exact ⟨rfl, rfl, rfl, rfl⟩

theorem mem_presentSlots_of_foldSlot {p : Position} {slot i : Nat} (h : i ∈ presentSlots (foldSlot trunc r n p slot)) :
    i = slot ∨ i ∈ presentSlots p := by
  obtain ⟨x, hx, hp⟩ := mem_presentSlots.mp h
  rw [(foldSlot_fields p slot).1] at hx
  exact (mem_of_mem_tabPut hx).imp (congrArg Prod.fst) (fun hx => mem_presentSlots.mpr ⟨x, hx, hp⟩)

theorem mem_foldedSlots_foldSlot {p : Position} {slot i : Nat} (h : i = slot ∨ i ∈ foldedSlots p) :
    i ∈ foldedSlots (foldSlot trunc r n p slot) := by
  rw [mem_foldedSlots, (foldSlot_fields p slot).1]
  by_cases hi : i = slot
  · subst hi
    exact ⟨_, mem_tabPut_same _ _ _, rfl⟩
  · obtain ⟨x, hx, hf⟩ := mem_foldedSlots.mp (h.resolve_left hi)
    exact ⟨x, mem_tabPut_ne _ hx hi, hf⟩

theorem foldSlots_fields (l : List Nat) (p : Position) : (l.foldl (foldSlot trunc r n) p).state = p.state ∧
    (l.foldl (foldSlot trunc r n) p).sweeping = p.sweeping ∧ (l.foldl (foldSlot trunc r n) p).chunk = p.chunk := by
  induction l generalizing p with
  | nil => exact ⟨rfl, rfl, rfl⟩
  | cons i l ih =>
    obtain ⟨h1, h2, h3⟩ := ih (foldSlot trunc r n p i)
    obtain ⟨_, g1, g2, g3⟩ := foldSlot_fields (trunc := trunc) (r := r) (n := n) p i
    exact ⟨h1.trans g1, h2.trans g2, h3.trans g3⟩

theorem mem_presentSlots_of_foldSlots {l : List Nat} {p : Position} {i : Nat} (h : i ∈ presentSlots (l.foldl (foldSlot trunc r n) p)) :
    i ∈ l ∨ i ∈ presentSlots p := by
  induction l generalizing p with
  | nil => exact .inr h
  | cons j l ih =>
    rcases ih h with h | h
    · exact .inl (List.mem_cons_of_mem _ h)
    · exact (mem_presentSlots_of_foldSlot h).imp_left (fun h => List.mem_cons.mpr (.inl h))

theorem mem_foldedSlots_foldSlots {l : List Nat} {p : Position} {i : Nat} (h : i ∈ l ∨ i ∈ foldedSlots p) :
    i ∈ foldedSlots (l.foldl (foldSlot trunc r n) p) := by
  induction l generalizing p with
  | nil => exact h.resolve_left (by simp)
  | cons j l ih =>
    refine ih (p := foldSlot trunc r n p j) ?_
    rcases h with h | h
    · exact (List.mem_cons.mp h).elim (fun h => .inr (mem_foldedSlots_foldSlot (.inl h))) .inl
    · exact .inr (mem_foldedSlots_foldSlot (.inr h))

/-- A position with the contributions of a batch folded. -/
def foldedPosition (trunc : Bool) (r : Rctx) (slots : List Nat) (p : Position) : Position :=
  let n := ((knownOp r p.op).map (fun o => chunkElems r.d o p.chunk)).getD 0
  let p' := (slots.filter (fun i => (presentSlots p).contains i)).foldl (foldSlot trunc r n) { p with sweeping := false }
  if p'.again then { p' with dots := p.dots } else p'

theorem foldedPosition_fields (slots : List Nat) (p : Position) : (foldedPosition trunc r slots p).state = p.state ∧
    (foldedPosition trunc r slots p).sweeping = false ∧ (foldedPosition trunc r slots p).chunk = p.chunk ∧
    (∀ i ∈ slots, i ∈ presentSlots p → i ∈ foldedSlots (foldedPosition trunc r slots p)) ∧
    ∀ i ∈ presentSlots (foldedPosition trunc r slots p), i ∈ presentSlots p := by
  generalize hl : slots.filter (fun i => (presentSlots p).contains i) = l
  generalize hn : ((knownOp r p.op).map (fun o => chunkElems r.d o p.chunk)).getD 0 = n
  generalize hx : l.foldl (foldSlot trunc r n) { p with sweeping := false } = x
  obtain ⟨hstate, hsweep, hchunk⟩ := foldSlots_fields (trunc := trunc) (r := r) (n := n) l { p with sweeping := false }
  rw [hx] at hstate hsweep hchunk
  have hfolded (i : Nat) (hi : i ∈ slots) (hp : i ∈ presentSlots p) : i ∈ foldedSlots x :=
    hx ▸ mem_foldedSlots_foldSlots (.inl (hl ▸ List.mem_filter.mpr ⟨hi, by simpa using hp⟩))
  have hpresent (i : Nat) (hi : i ∈ presentSlots x) : i ∈ presentSlots p := by
    rw [← hx] at hi
    refine (mem_presentSlots_of_foldSlots hi).elim (fun h => ?_) id
    rw [← hl] at h
    simpa using (List.mem_filter.mp h).2
  have heq : foldedPosition trunc r slots p = if x.again then { x with dots := p.dots } else x := by
    rw [← hx, ← hl, ← hn]
    rfl
  rw [heq]
  split <;> exact ⟨hstate, hsweep, hchunk, hfolded, hpresent⟩

theorem allPresent_foldedPosition {slots : List Nat} {p : Position} (h : allPresent r p = false) :
    allPresent r (foldedPosition trunc r slots p) = false := by
  obtain ⟨_, _, hchunk, _, hpresent⟩ := foldedPosition_fields (trunc := trunc) (r := r) slots p
  rw [Bool.eq_false_iff] at h ⊢
  refine fun hall => h ?_
  unfold allPresent at hall ⊢
  rw [hchunk] at hall
  refine List.all_eq_true.mpr (fun i hi => ?_)
  have := List.all_eq_true.mp hall i hi
  simp only [List.contains_eq_mem, decide_eq_true_eq] at this ⊢
  exact hpresent i this

end

/-! ### The deck's sweep -/

section
variable (s : State)

theorem sweep_deckReason : (deckReason s).deck.sweep = s.deck.sweep := by
  unfold deckReason
  split <;> rfl

theorem sweep_putPosition (c q : Nat) (p : Position) : (putPosition c q p s).deck.sweep = s.deck.sweep := by
  have hmod (f : Rctx → Rctx) (u : State) : (modRctx c f u).deck = u.deck := deck_of_view (view_modRctx _ _ _ (by simp))
  unfold putPosition
  rw [hmod]
  split
  · unfold foldReason
    dsimp only
    split
    · rw [deck_of_view (view_touchStack _ _ (by simp)), sweep_deckReason]
    · exact sweep_deckReason s
  · rfl

theorem sweep_placeChunk (c q : Nat) : (placeChunk c q s).deck.sweep = s.deck.sweep := by
  unfold placeChunk
  split
  · rfl
  · split
    · dsimp only
      split
      · exact congrArg Deck.sweep (deck_of_view (by simp))
      · split
        · rw [sweep_deckReason]
          exact (congrArg Deck.sweep (deck_of_view (view_touchRange _ _ (by simp)))).trans (sweep_putPosition s _ _ _)
        · split <;> exact congrArg Deck.sweep (deck_of_view (by simp))
    · rfl

theorem sweep_emitResult (c q : Nat) : (emitResult c q s).deck.sweep = s.deck.sweep := by
  unfold emitResult
  split
  · rfl
  · split
    · rfl
    · split
      · rfl
      · dsimp only
        refine (congrArg Deck.sweep (deck_of_view (view_foldl _ (fun s b => by simp) _ _))).trans ?_
        rw [deck_of_view (view_beginEmission _ _ _ _ (by simp)), sweep_putPosition]

theorem sweep_completeChunk (c q : Nat) : (completeChunk c q s).deck.sweep = s.deck.sweep := by
  unfold completeChunk
  split
  · rfl
  · split
    · rfl
    · dsimp only
      split
      · split
        · rw [deck_of_view (view_forwardPartial _ _ _ _ (by simp)), deck_of_view (view_beginEmission _ _ _ _ (by simp)), sweep_putPosition]
        · exact sweep_putPosition s _ _ _
      · split
        · rw [sweep_placeChunk, sweep_putPosition]
        · rw [sweep_emitResult, sweep_putPosition]

/-- A fold batch's output, as far as its position is put back. -/
def foldPut (c q : Nat) (slots : List Nat) (r : Rctx) (p : Position) (s : State) : State :=
  putPosition c q (noteReady (now s) r { foldedPosition s.deck.trunc r slots p with readyAt := none }) s

theorem foldOutput_of_sweeping {s : State} {c q : Nat} {r : Rctx} {p : Position} (slots : List Nat) (hr : tabGet? s.rctxs c = some r)
    (hp : tabGet? r.positions q = some p) (hs : p.sweeping = true) : foldOutput c q slots s =
      if r.state != .stopped && allPresent r (foldedPosition s.deck.trunc r slots p) &&
          (unfoldedSlots (foldedPosition s.deck.trunc r slots p)).isEmpty then
        (if (foldedPosition s.deck.trunc r slots p).again then finishAgain c q (foldPut c q slots r p s)
         else completeChunk c q (foldPut c q slots r p s))
      else foldPut c q slots r p s := by
  unfold foldOutput
  rw [hr]
  dsimp only
  rw [hp]
  exact if_neg (by simp [hs])

theorem sweep_foldOutput (c q : Nat) (slots : List Nat) : (foldOutput c q slots s).deck.sweep = s.deck.sweep := by
  cases hr : tabGet? s.rctxs c with
  | none => simp [foldOutput, hr]
  | some r =>
    cases hp : tabGet? r.positions q with
    | none => simp [foldOutput, hr, hp]
    | some p =>
      cases hs : p.sweeping with
      | false => simp [foldOutput, hr, hp, hs]
      | true =>
        have hput : (foldPut c q slots r p s).deck.sweep = s.deck.sweep := sweep_putPosition s _ _ _
        rw [foldOutput_of_sweeping slots hr hp hs]
        generalize foldPut c q slots r p s = u at hput
        split
        · split
          · rw [deck_of_view (view_finishAgain _ _ _ (by simp)), hput]
          · rw [sweep_completeChunk, hput]
        · exact hput

end

/-! ### Fold batches -/

section
variable {s : State} {c q : Nat} {w : Candidacy} {slots : List Nat} {r : Rctx} {p : Position}

/-- A context, one of whose positions enters a sweep. -/
def sweepBegun (s : State) (q : Nat) (p : Position) (r : Rctx) : Rctx :=
  let r := { r with positions := tabPut r.positions q { p with sweeping := true } }
  if p.again then r else openPeriod s r p

theorem exists_foldBatch (hr : tabGet? s.rctxs c = some r) (hp : tabGet? r.positions q = some p) (hw : nextSweep s = some w)
    (hs : w.sweep = .fold c q []) : ∃ t r', exec .foldBatch s = .next t ∧
      t.deck.sweep = some (.fold c q ((unfoldedSlots p).take 32)) ∧ tabGet? t.rctxs c = some r' ∧
      tabGet? r'.positions q = some { p with sweeping := true } ∧ (∀ k, k ≠ q → tabGet? r'.positions k = tabGet? r.positions k) ∧
      t.deck.queue = s.deck.queue ∧ t.hbm = s.hbm ∧ t.lands = s.lands := by
  have hx : exec .foldBatch s = .next (settle (startFold c q s)) := by
    change execFoldBatch s = _
    unfold execFoldBatch
    rw [hw]
    dsimp only
    rw [hs]
    rfl
  have hstart : startFold c q s = deckWorks { modRctx c (sweepBegun s q p) s with
      deck := { (modRctx c (sweepBegun s q p) s).deck with sweep := some (.fold c q ((unfoldedSlots p).take 32)) } } := by
    unfold startFold
    rw [hr, Option.bind_some, hp]
    rfl
  have hpos : (sweepBegun s q p r).positions = tabPut r.positions q { p with sweeping := true } := by
    unfold sweepBegun
    dsimp only
    split
    · rfl
    · exact positions_of_standing (standing_openPeriod s _ p)
  have hget : tabGet? (startFold c q s).rctxs c = some (sweepBegun s q p r) := hstart ▸ rctx_modRctx_of_get hr _
  refine ⟨_, _, hx, hstart ▸ rfl, hget, ?_, fun k hk => ?_, hstart ▸ rfl, hbm_of_view (by simp), lands_of_view (by simp)⟩
  · rw [hpos, tabGet?_tabPut_same]
  · rw [hpos, tabGet?_tabPut_ne _ _ hk]

theorem foldBatchDone_eq (hs : s.deck.sweep = some (.fold c q slots)) : exec .foldBatchDone s =
    .next (settle (foldOutput c q slots (deckWorks { s with deck := { s.deck with sweep := none } }))) := by
  change execFoldBatchDone s = _
  unfold execFoldBatchDone
  rw [hs]
  rfl

theorem exists_foldBatchDone (hr : tabGet? s.rctxs c = some r) (hp : tabGet? r.positions q = some p)
    (hs : s.deck.sweep = some (.fold c q slots)) (hsw : p.sweeping = true) (hall : allPresent r p = false) :
    ∃ t r' p', exec .foldBatchDone s = .next t ∧
      t.deck.sweep = none ∧ tabGet? t.rctxs c = some r' ∧ tabGet? r'.positions q = some p' ∧ p'.sweeping = false ∧
      p'.state = p.state ∧ (∀ i ∈ slots, i ∈ presentSlots p → i ∈ foldedSlots p') ∧
      (∀ k, k ≠ q → tabGet? r'.positions k = tabGet? r.positions k) ∧ t.hbm.mem = s.hbm.mem ∧ t.lands = s.lands := by
  have hx := foldBatchDone_eq hs
  generalize hu : deckWorks { s with deck := { s.deck with sweep := none } } = u at hx
  have hru : tabGet? u.rctxs c = some r := by rw [← hu]; exact hr
  have hout : foldOutput c q slots u = foldPut c q slots r p u := by
    rw [foldOutput_of_sweeping slots hru hp hsw]
    refine if_neg ?_
    rw [allPresent_foldedPosition hall, Bool.and_false, Bool.false_and]
    exact Bool.false_ne_true
  obtain ⟨r', hr', hq, hne⟩ := exists_putPosition hru q
    (noteReady (now u) r { foldedPosition u.deck.trunc r slots p with readyAt := none })
  obtain ⟨hstate, hsweep, _, hfolded, _⟩ := foldedPosition_fields (trunc := u.deck.trunc) (r := r) slots p
  have hdeck : (foldPut c q slots r p u).deck.sweep = none := (sweep_putPosition u _ _ _).trans (by rw [← hu]; rfl)
  have hmem : (foldPut c q slots r p u).hbm.mem = s.hbm.mem := (mem_of_view (view_putPosition _ _ _ _ (by simp))).trans (by rw [← hu]; rfl)
  have hlands : (foldPut c q slots r p u).lands = s.lands := (lands_of_view (view_putPosition _ _ _ _ (by simp))).trans (by rw [← hu]; rfl)
  rw [hout] at hx
  exact ⟨_, r', _, hx, hdeck, hr', hq, hsweep, hstate, hfolded, hne, hmem, hlands⟩

end

/-- Settles O55. -/
theorem foldBatches : Obligations.fold_batches := by
  unfold Obligations.fold_batches
  intro s c q w slots r p hr hp
  refine ⟨exists_foldBatch hr hp, fun hw => ?_, exists_foldBatchDone hr hp, fun hs => ⟨_, foldBatchDone_eq hs, ?_⟩⟩
  · change execFoldBatch s = _
    unfold execFoldBatch
    rw [hw]
    rfl
  · exact sweep_foldOutput _ c q slots

end Sys2Proof.Proofs

/-!
The timers of the window of a reduction context (O56).
-/
namespace Sys2Proof.Proofs
open Sys2Proof Sys2Proof.Machine Sys2Proof.Laws

section
variable {s : State} {ctx q slot : Nat} {r : Rctx} {p : Position}

/-! ### Lags -/

/-- A slot whose contribution to a chunk lags, for the first time in its norm period or again. -/
def noteLag (ctx : Nat) (r : Rctx) (p : Position) (i : Nat) (s : State) : State :=
  let seen := ((tabGet? s.rctxs ctx).map (fun r' => r'.lagged.contains (lagPeriod r p, i))).getD false
  if seen then countJob r.d.job 16 s
  else
    let who := if i < r.d.m then slotRank r.d i else (slotPeer r.d i).1
    raiseEvent 0x0060 (some r.d.job)
      (le 2 ctx ++ le 2 i ++ le 4 p.chunk ++ le 2 p.op ++ le 2 who ++ le 1 (b2n (decide (r.d.m ≤ i))))
      (modRctx ctx (fun r' => { r' with lagged := r'.lagged ++ [(lagPeriod r p, i)] }) s)

theorem view_noteLag {ps : List Part} (i : Nat) (hp : [.events, .eventSeq, .purser, .accts, .rctxVals, .outbox] ⊆ ps) :
    view ps (noteLag ctx r p i s) = view ps s := by
  simp only [List.cons_subset, List.nil_subset, and_true] at hp
  unfold noteLag
  dsimp only
  split <;> simp [hp]

theorem standing_noteLag (i : Nat) : rctxGet standing ctx (noteLag ctx r p i s) = rctxGet standing ctx s := by
  unfold noteLag
  dsimp only
  split
  · exact rctxGet_of_view standing ctx (view_countJob _ _ _ (by simp)) (fun _ _ => rfl)
  · rw [rctxGet_of_view standing ctx (view_raiseEvent _ _ _ _ (by simp)) (fun _ _ => rfl)]
    exact rctxGet_modRctx standing ctx s _ _ (fun _ _ => rfl)

theorem exists_softLagExpiry (hr : tabGet? s.rctxs ctx = some r) (hp : tabGet? r.positions q = some p) (hst : r.state ≠ .stopped)
    (ho : p.state = .opened) (hs : p.softFired = false) (hm : missingSlots r p ≠ []) (hl : lagDue s p r.d.softLag = true)
    (ha : arrivalsDue s = false) : ∃ t r' p', exec (.softLagExpiry ctx q) s = .next t ∧ tabGet? t.rctxs ctx = some r' ∧
      tabGet? r'.positions q = some p' ∧ p' = { p with softFired := true, readyAt := p'.readyAt } ∧ t.hbm.mem = s.hbm.mem ∧
      t.lands = s.lands := by
  have hdue : softLagDue s r p = true := by
    have hme : (missingSlots r p).isEmpty = false := List.isEmpty_eq_false_iff.mpr hm
    simp [softLagDue, hst, ho, hs, hme, hl]
  have hx : exec (.softLagExpiry ctx q) s = .next (settle (putPosition ctx q (noteReady
      (now ((missingSlots r p).foldl (fun s i => noteLag ctx r p i s) s)) r { p with softFired := true })
      ((missingSlots r p).foldl (fun s i => noteLag ctx r p i s) s))) := by
    change execSoftLagExpiry ctx q s = _
    unfold execSoftLagExpiry
    rw [hr]
    dsimp only
    rw [hp]
    exact if_neg (by simp [hdue, ha])
  have hget : rctxGet standing ctx ((missingSlots r p).foldl (fun s i => noteLag ctx r p i s) s) = some (standing r) :=
    (foldl_keeps (fun s i => noteLag ctx r p i s) (rctxGet standing ctx) (fun _ i => standing_noteLag i) _ _).trans
      (rctxGet_of_get _ _ _ hr)
  have hview {ps : List Part} (hp' : [.events, .eventSeq, .purser, .accts, .rctxVals, .outbox] ⊆ ps) :
      view ps ((missingSlots r p).foldl (fun s i => noteLag ctx r p i s) s) = view ps s :=
    view_foldl _ (fun _ i => view_noteLag i hp') _ _
  generalize (missingSlots r p).foldl (fun s i => noteLag ctx r p i s) s = u at hx hget hview
  obtain ⟨ru, hru, _⟩ := exists_of_rctxGet _ _ _ hget
  obtain ⟨r', hr', hq, _⟩ := exists_putPosition hru q (noteReady (now u) r { p with softFired := true })
  refine ⟨_, r', _, hx, hr', hq, rfl, ?_, ?_⟩
  · exact (mem_of_view (view_putPosition _ _ _ _ (by simp))).trans (mem_of_view (hview (by simp)))
  · exact (lands_of_view (view_putPosition _ _ _ _ (by simp))).trans (lands_of_view (hview (by simp)))

/-- A context that stops keeps all but its state. -/
theorem exists_stopRctx (hr : tabGet? s.rctxs ctx = some r) (hst : r.state ≠ .stopped) (slot chunk opNum origin cause : Nat) :
    ∃ a, tabGet? (stopRctx ctx slot chunk opNum origin cause s).rctxs ctx = some { r with state := .stopped, acct := a } := by
  unfold stopRctx
  rw [hr]
  dsimp only
  rw [if_neg hst]
  refine rctx_of_view (s := modRctx ctx (fun r => { r with state := .stopped }) s) ?_ (rctx_modRctx_of_get hr _)
  simp

theorem exists_hardLagExpiry (hr : tabGet? s.rctxs ctx = some r) (hp : tabGet? r.positions q = some p) (hst : r.state ≠ .stopped)
    (ho : p.state = .opened) (hm : missingSlots r p ≠ []) (hl : lagDue s p r.d.hardLag = true) (ha : arrivalsDue s = false) :
    ∃ t r', exec (.hardLagExpiry ctx q) s = .next t ∧ tabGet? t.rctxs ctx = some r' ∧ r'.state = .stopped ∧
      r'.positions = r.positions ∧ r'.d = r.d := by
  have hdue : hardLagDue s r p = true := by
    have hme : (missingSlots r p).isEmpty = false := List.isEmpty_eq_false_iff.mpr hm
    simp [hardLagDue, hst, ho, hme, hl]
  obtain ⟨a, hget⟩ := exists_stopRctx hr hst ((missingSlots r p).headD 0) p.chunk p.op (ownAddr s) 0
  generalize hu : stopRctx ctx ((missingSlots r p).headD 0) p.chunk p.op (ownAddr s) 0 s = u at hget
  have hx : exec (.hardLagExpiry ctx q) s = .next (settle (if r.d.role = 4 then sendRingStop r (ownAddr u) u else u)) := by
    change execHardLagExpiry ctx q s = _
    unfold execHardLagExpiry
    rw [hr]
    dsimp only
    rw [hp, ← hu]
    exact if_neg (by simp [hdue, ha])
  refine ⟨_, { r with state := .stopped, acct := a }, hx, ?_, rfl, rfl, rfl⟩
  rw [← hget]
  split
  · exact congrArg (tabGet? · ctx) (rctxs_of_view (view_sendRingStop _ _ _ (by simp)))
  · rfl

/-! ### Credits and releases -/

theorem exists_creditSend (hr : tabGet? s.rctxs ctx = some r) (hd : slot ∈ r.creditDue) (hc : creditOpen s r slot = true)
    (he : slotEnabled r slot = true) : ∃ t r', exec (.creditSend ctx slot) s = .next t ∧
      tabGet? t.rctxs ctx = some r' ∧ r'.creditDue = r.creditDue.filter (fun i => i != slot) ∧
      tabGet? r'.creditSent slot = some s.tide.count ∧ r'.positions = r.positions := by
  have hx : exec (.creditSend ctx slot) s = .next (settle (sendCredit ctx slot s)) := by
    change execCreditSend ctx slot s = _
    unfold execCreditSend
    rw [hr]
    exact if_pos (by simp [hd, hc])
  have hget : tabGet? (sendCredit ctx slot s).rctxs ctx = some { r with
      creditDue := r.creditDue.filter (· != slot), creditSent := tabPut r.creditSent slot (now s) } := by
    unfold sendCredit
    rw [hr]
    dsimp only
    rw [if_pos he, rctxs_toSlot]
    exact rctx_modRctx_of_get hr _
  exact ⟨_, _, hx, hget, rfl, tabGet?_tabPut_same _ _ _, rfl⟩

/-- A position that is released leaves its context's table, and no other does. -/
theorem exists_releasePosition (hr : tabGet? s.rctxs ctx = some r) (hp : tabGet? r.positions q = some p) :
    ∃ r', tabGet? (releasePosition ctx q s).rctxs ctx = some r' ∧ r'.positions = tabDel r.positions q := by
  unfold releasePosition
  rw [hr]
  dsimp only
  rw [hp]
  dsimp only
  obtain ⟨r', hr', hst⟩ := exists_of_rctxGet standing ctx _ ((standing_advanceWindow ctx ctx _).trans
    (rctxGet_of_get standing ctx _ (rctx_modRctx_of_get hr _)))
  exact ⟨r', hr', positions_of_standing hst⟩

theorem exists_chunkRelease (hr : tabGet? s.rctxs ctx = some r) (hp : tabGet? r.positions q = some p) (hst : p.state = .emitted)
    (hroot : isRootOf r.d p.chunk = true) : ∃ t r', exec (.chunkRelease ctx q) s = .next t ∧
      tabGet? t.rctxs ctx = some r' ∧ tabGet? r'.positions q = none ∧
      (∀ k, k ≠ q → tabGet? r'.positions k = tabGet? r.positions k) := by
  have hx : exec (.chunkRelease ctx q) s = .next (settle (releasePosition ctx q s)) := by
    change execChunkRelease ctx q s = _
    unfold execChunkRelease
    rw [hr]
    dsimp only
    rw [hp]
    exact if_pos (by simp [hst, hroot])
  obtain ⟨r', hr', hpos⟩ := exists_releasePosition hr hp
  refine ⟨_, r', hx, hr', ?_, fun k hk => ?_⟩
  · rw [hpos, tabGet?_tabDel_same]
  · rw [hpos, tabGet?_tabDel_ne _ hk]

end

/-- Settles O56. -/
theorem windowTimers : Obligations.window_timers := by
  unfold Obligations.window_timers
  intro s ctx q slot r p hr
  refine ⟨exists_softLagExpiry hr, exists_hardLagExpiry hr, exists_creditSend hr, fun hd => ?_, exists_chunkRelease hr, fun hp hst => ?_⟩
  · change execCreditSend ctx slot s = _
    unfold execCreditSend
    rw [hr]
    exact if_neg (by simp [hd])
  · change execChunkRelease ctx q s = _
    unfold execChunkRelease
    rw [hr]
    dsimp only
    rw [hp]
    exact if_neg (by simp [hst])

end Sys2Proof.Proofs

/-!
How a commit and a fence end (O58).
-/
namespace Sys2Proof.Proofs
open Sys2Proof Sys2Proof.Machine Sys2Proof.Laws

section
variable {s : State} {n i : Nat} {o : Octx} {r : Rctx} {y : Running} {f : Fence}

theorem exists_beaconTimeout_unsealed (ho : tabGet? s.octxs n = some o) (hst : o.state = .committing)
    (hd : tideReached o.deadline s.tide.count = true) (hs : o.sealedStep = false) (hy : o.command = some y) (horphan : y.orphan = false) :
    ∃ t o', exec (.beaconTimeout n) s = .next t ∧ tabGet? t.octxs n = some o' ∧ o'.state = .opened ∧ o'.command = none ∧ o'.s = o.s ∧
      Answered y.x stTimeout 0 0 [] s t := by
  generalize hu : modOctx n (fun o => { o with state := .opened, command := none }) s = u
  have hx : exec (.beaconTimeout n) s = .next (settle (complete y stTimeout 0 0 [] u)) := by
    have hg : (o.state != .committing || !tideReached o.deadline (now s)) = false := by
      have hd' : tideReached o.deadline (now s) = true := hd
      simp [hst, hd']
    change execBeaconTimeout n s = _
    unfold execBeaconTimeout
    simp only [ho, hg, hs, hy, hu, Bool.false_eq_true, if_false]
    rfl
  have hget : tabGet? u.octxs n = some { o with state := .opened, command := none } := hu ▸ octx_modOctx_of_get ho _
  obtain ⟨a, ha⟩ := octx_of_view (view_complete y stTimeout 0 0 [] u (by simp)) hget
  have hout : u.outbox = s.outbox := by rw [← hu]; rfl
  exact ⟨_, { o with state := .opened, command := none, acct := a }, hx, ha, rfl, rfl, rfl, answered_complete rfl horphan _ _ _ _ hout⟩

/-- A split ends the commit, and answers it. -/
theorem exists_splitStep (ho : tabGet? s.octxs n = some o) (hy : o.command = some y) (horphan : y.orphan = false)
    (peer reason step status r0 r1 : Nat) : ∃ o', tabGet? (splitStep n peer reason step status r0 r1 s).octxs n = some o' ∧
      o'.state = .split ∧ o'.command = none ∧ o'.s = o.s ∧ Replied y.x status r0 r1 (splitStep n peer reason step status r0 r1 s) := by
  unfold splitStep
  simp only [ho, hy]
  generalize hu : raiseFault 6 0 n (peer % 2 ^ 16 + 2 ^ 16 * reason) 2 _ = u
  have hget : ∃ a, tabGet? u.octxs n = some { o with state := .split, command := none, sentReady := false, acct := a } := by
    rw [← hu]
    refine octx_of_view (s := modOctx n (fun o => { o with state := .split, command := none, sentReady := false }) s) ?_
      (octx_modOctx_of_get ho _)
    simp
  obtain ⟨a, ha⟩ := hget
  obtain ⟨b, hb⟩ := octx_of_view (view_complete y status r0 r1 [] u (by simp)) ha
  exact ⟨_, hb, rfl, rfl, rfl, replied_of_answered (complete_answers u y status r0 r1 [] horphan)⟩

theorem exists_beaconTimeout_sealed (ho : tabGet? s.octxs n = some o) (hst : o.state = .committing)
    (hd : tideReached o.deadline s.tide.count = true) (hs : o.sealedStep = true) (hi : i < o.d.peers.length)
    (hp : peerAgrees o (o.s + 1) i = false) (hy : o.command = some y) (horphan : y.orphan = false) :
    ∃ t o', exec (.beaconTimeout n) s = .next t ∧ tabGet? t.octxs n = some o' ∧ o'.state = .split ∧ o'.command = none ∧ o'.s = o.s ∧
      Replied y.x stTimeout 0 0 t := by
  have hsome : ((List.range o.d.peers.length).find? (fun i => !peerAgrees o (o.s + 1) i)).isSome = true := by
    rw [List.find?_isSome]
    exact ⟨i, List.mem_range.mpr hi, by simp [hp]⟩
  obtain ⟨j, hj⟩ := Option.isSome_iff_exists.mp hsome
  have hx : exec (.beaconTimeout n) s = .next (settle (splitStep n (o.d.peers.getD j (0xFFFF, 0)).1 2 (peerStep (getPeer o j))
      stTimeout 0 0 s)) := by
    have hg : (o.state != .committing || !tideReached o.deadline (now s)) = false := by
      have hd' : tideReached o.deadline (now s) = true := hd
      simp [hst, hd']
    change execBeaconTimeout n s = _
    unfold execBeaconTimeout
    simp only [ho, hg, hs, hj, Bool.false_eq_true, if_false, if_true]
    rfl
  obtain ⟨o', ho', hst', hc, hv, hr⟩ := exists_splitStep ho hy horphan (o.d.peers.getD j (0xFFFF, 0)).1 2 (peerStep (getPeer o j))
    stTimeout 0 0
  exact ⟨_, o', hx, ho', hst', hc, hv, hr⟩

theorem beaconTimeout_of_early (ho : tabGet? s.octxs n = some o)
    (h : o.state ≠ .committing ∨ tideReached o.deadline s.tide.count = false) : exec (.beaconTimeout n) s = .next (settle s) := by
  have hg : (o.state != .committing || !tideReached o.deadline (now s)) = true := by
    rcases h with h | h
    · simp [h]
    · have h' : tideReached o.deadline (now s) = false := h
      simp [h']
  change execBeaconTimeout n s = _
  unfold execBeaconTimeout
  simp only [ho, hg, if_true]
  rfl

/-! ### The end of a fence -/

theorem waits_failWaits (g : GatherWait → Bool) (status : Nat) (s : State) :
    (failWaits g status s).hbm.waits = s.hbm.waits.filter (fun w => !g w) := by
  unfold failWaits
  dsimp only
  refine foldl_keeps _ (fun s => s.hbm.waits) (fun s w => ?_) _ _
  split
  · rfl
  · exact waits_of_view (view_originateTo _ _ _ _ (by simp))

/-- A context's requests answered, its gathers and images dropped: what a fence's end leaves before its tables take effect. -/
def fenceCleared (n : Nat) (s : State) : State :=
  let s := failWaits (fun w => w.octx == n) stEpoch s
  let keep (e : ReadySweep) : Bool := match e.sweep with
    | .gather k _ _ _ => k != n
    | _ => true
  let s := { s with deck := { s.deck with queue := s.deck.queue.filter keep } }
  mapImages (fun im => if im.octx = n then none else some im) s

/-- The tables and the epoch of a fence, installed (R123). -/
def Fence.installed (f : Fence) (o : Octx) : Octx :=
  { o with d := { o.d with segments := f.segments, layerEntries := f.layers, step := o.s }, chunks := carriedChunks o f,
           epoch := f.epoch, fence := none, fenceActive := true, staleRaised := false, state := .opened }

/-- What follows the tables: the images, the event, and the positions held. -/
def fenceFollowed (n : Nat) (r : Rctx) (o : Octx) (f : Fence) (s : State) : State :=
  let s := f.imaged.foldl (fun s x => installImage n r o f x.1 x.2 s) s
  recheckHeld o.d.rctx (raiseEvent 0x0073 (some o.d.job) (le 2 n ++ le 1 f.epoch) s)

theorem view_fenceFollowed {ps : List Part} (n : Nat) (r : Rctx) (o : Octx) (f : Fence) (s : State)
    (hp : [.events, .eventSeq, .purser, .lands, .accts, .rctxVals, .deck, .stk, .outbox] ⊆ ps) :
    view ps (fenceFollowed n r o f s) = view ps s := by
  simp only [List.cons_subset, List.nil_subset, and_true] at hp
  unfold fenceFollowed
  simp [hp, view_foldl]

theorem exists_reshardInstall (ho : tabGet? s.octxs n = some o) (hf : o.fence = some f) (hst : o.state = .fenced)
    (hr : tabGet? s.rctxs o.d.rctx = some r) (hout : movesOut s f = false) (hin : movesIn r o f = false) :
    ∃ t o', exec (.reshardInstall n) s = .next t ∧
      tabGet? t.octxs n = some o' ∧ o'.state = .opened ∧ o'.epoch = f.epoch ∧ o'.d.segments = f.segments ∧
      o'.d.layerEntries = f.layers ∧ o'.fence = none ∧ o'.s = o.s ∧ (∀ w ∈ t.hbm.waits, w.octx ≠ n) ∧ t.hbm.mem = s.hbm.mem := by
  have hx : exec (.reshardInstall n) s =
      .next (settle (fenceFollowed n r o f (modOctx n (Fence.installed f) (fenceCleared n s)))) := by
    change execReshardInstall n s = _
    unfold execReshardInstall
    simp only [ho, hf, hr, Option.bind_some, Option.map_some, hst, hout, hin, bne_self_eq_false, Bool.false_or, Bool.false_eq_true, if_false]
    rfl
  have hwaits : (fenceCleared n s).hbm.waits = s.hbm.waits.filter (fun w => !(w.octx == n)) := waits_failWaits _ _ s
  have hoctxs : (fenceCleared n s).octxs = s.octxs := octxs_of_view (view_failWaits _ _ s (by simp))
  have hmem : (fenceCleared n s).hbm.mem = s.hbm.mem := mem_of_view (view_failWaits _ _ s (by simp))
  generalize fenceCleared n s = u at hx hwaits hoctxs hmem
  have hget : tabGet? (modOctx n (Fence.installed f) u).octxs n = some (Fence.installed f o) :=
    octx_modOctx_of_get (hoctxs ▸ ho) _
  obtain ⟨a, ha⟩ := octx_of_view (view_fenceFollowed n r o f (modOctx n (Fence.installed f) u) (by simp)) hget
  have hw : (fenceFollowed n r o f (modOctx n (Fence.installed f) u)).hbm.waits = u.hbm.waits :=
    waits_of_view (view_fenceFollowed n r o f (modOctx n (Fence.installed f) u) (by simp))
  have hm : (fenceFollowed n r o f (modOctx n (Fence.installed f) u)).hbm.mem = u.hbm.mem :=
    mem_of_view (view_fenceFollowed n r o f (modOctx n (Fence.installed f) u) (by simp))
  generalize fenceFollowed n r o f (modOctx n (Fence.installed f) u) = v at hx ha hw hm
  refine ⟨_, _, hx, ha, rfl, rfl, rfl, rfl, rfl, rfl, fun w hv => ?_, hm.trans hmem⟩
  have hv' : w ∈ v.hbm.waits := hv
  rw [hw, hwaits] at hv'
  simpa using (List.mem_filter.mp hv').2

end

/-- Settles O58. -/
theorem commitAndFenceEnd : Obligations.commit_and_fence_end := by
  unfold Obligations.commit_and_fence_end
  intro s n i o r y f ho
  refine ⟨exists_beaconTimeout_unsealed ho, exists_beaconTimeout_sealed ho, beaconTimeout_of_early ho, exists_reshardInstall ho, fun hf => ?_⟩
  change execReshardInstall n s = _
  unfold execReshardInstall
  simp only [ho, hf, Option.bind_some, Option.bind_none]
  rfl

end Sys2Proof.Proofs

/-!
What the fabric's time and its service bring about: launches, tide tables, packets routed again, partitions (O50).
-/
namespace Sys2Proof.Proofs
open Sys2Proof Sys2Proof.Machine Sys2Proof.Laws

section
variable (s : State)

/-- Where a landing originates nothing more, another does in its place: the same one for that one. -/
theorem originLanding_originLanding_zero : originLanding s (originLanding s 0) = originLanding s 0 := by
  unfold originLanding
  simp only [Nat.zero_add, Nat.zero_mod]
  cases h : ((List.range 8).map (fun i => i % 8)).find? (fun l => !unitLost s (.landing l)) with
  | none => simp [h]
  | some l =>
    have hup := List.find?_some h
    have hl : l < 8 := by
      obtain ⟨i, _, rfl⟩ := List.mem_map.mp (List.mem_of_find?_eq_some h)
      exact Nat.mod_lt _ (by decide)
    have hhead : (List.range 8).map (fun i => (l + i) % 8) = l :: (List.range' 1 7).map (fun i => (l + i) % 8) := by
      rw [List.range_eq_range', show (8 : Nat) = 7 + 1 from rfl, List.range'_succ, List.map_cons]
      simp [Nat.mod_eq_of_lt hl]
    rw [Option.getD_some, hhead, List.find?_cons_of_pos (p := fun l => !unitLost s (.landing l)) hup, Option.getD_some]

theorem originLanding_of_units {t : State} (h : t.units = s.units) (l : Nat) : originLanding t l = originLanding s l := by
  simp only [originLanding, unitLost, h]

end

/-! ### Launches -/

section
variable {s : State} {job : Nat} {j : Job}

/-- LAUNCH enters the sources for a member that has an address. -/
def launchMember (job : Nat) (l : Tide) (s : State) (m : Nat × Nat) : State :=
  match rankAddr s job m.1 with
  | some a => originateMember (lowestLanding s) m.2 (mkPacket (ownHeader s 0 job a) (.launch l)) s
  | none => s

@[simp] theorem view_launchMember {ps : List Part} (l : Tide) (s : State) (m : Nat × Nat) (hp : [.lands] ⊆ ps) :
    view ps (launchMember job l s m) = view ps s := by
  unfold launchMember
  split
  · exact view_originateMember _ _ _ _ hp
  · rfl

/-- A LAUNCH towards a hawser waits in a landing's sources. -/
def LaunchWaits (s : State) (k : Nat) (l : Tide) (h : Nat) : Prop :=
  ∃ q ∈ (getLanding s k).sources, q.pkt.body = .launch l ∧ ∃ r ∈ q.reps, r.dest = .hawser h

theorem launchWaits_launchMember (s : State) (l : Tide) (m : Nat × Nat) (h : (rankAddr s job m.1).isSome = true) :
    LaunchWaits (launchMember job l s m) (lowestLanding s) l m.2 := by
  obtain ⟨a, ha⟩ := Option.isSome_iff_exists.mp h
  have hs := sources_originate s (lowestLanding s) (mkPacket (ownHeader s 0 job a) (.launch l)) (.hawser m.2) none
  rw [show originLanding s (lowestLanding s) = lowestLanding s from originLanding_originLanding_zero s] at hs
  unfold LaunchWaits launchMember
  rw [ha]
  dsimp only [originateMember]
  rw [hs]
  exact ⟨_, List.mem_append_right _ (List.mem_singleton.mpr rfl), rfl, _, List.mem_singleton.mpr rfl, rfl⟩

theorem launchWaits_later {k : Nat} {l l' : Tide} {h : Nat} (m : Nat × Nat) (hw : LaunchWaits s k l h) :
    LaunchWaits (launchMember job l' s m) k l h := by
  obtain ⟨q, hq, hrest⟩ := hw
  unfold launchMember
  split
  · exact ⟨q, sources_originate_subset _ _ _ _ _ _ hq, hrest⟩
  · exact ⟨q, hq, hrest⟩

/-- Members are launched one after another, none taking another's place. -/
theorem launchWaits_all (l : Tide) (ms : List (Nat × Nat)) (u : State) (m : Nat × Nat)
    (hm : m ∈ ms) (ha : (rankAddr u job m.1).isSome = true) : LaunchWaits (ms.foldl (launchMember job l) u) (lowestLanding u) l m.2 := by
  have hkeep (ms : List (Nat × Nat)) (k h : Nat) (v : State) (hv : LaunchWaits v k l h) : LaunchWaits (ms.foldl (launchMember job l) v) k l h := by
    induction ms generalizing v with
    | nil => exact hv
    | cons x ms ih => exact ih _ (launchWaits_later x hv)
  induction ms generalizing u with
  | nil => cases hm
  | cons x ms ih =>
    have hnet : (launchMember job l u x).net = u.net := net_of_view (view_launchMember l u x (by simp))
    have hjobs : (launchMember job l u x).jobs = u.jobs := jobs_of_view (view_launchMember l u x (by simp))
    have hunits : (launchMember job l u x).units = u.units := units_of_view (view_launchMember l u x (by simp))
    rw [List.foldl_cons]
    rcases List.mem_cons.mp hm with rfl | hm
    · exact hkeep ms _ _ _ (launchWaits_launchMember u l m ha)
    · have h := ih (launchMember job l u x) hm (by rw [← ha]; simp only [rankAddr, hnet, hjobs])
      rwa [show lowestLanding (launchMember job l u x) = lowestLanding u from originLanding_of_units u hunits 0] at h

theorem exists_jobLaunch (hj : tabGet? s.jobs job = some j) (hp : j.launch = .pending) (hl : tideReached j.l s.tide.count = true)
    (ha : arrivalsDue s = false) : ∃ t, exec (.jobLaunch job) s = .next t ∧
      tabGet? t.jobs job = some { j with launch := .launched } ∧ (∀ k, k ≠ job → tabGet? t.jobs k = tabGet? s.jobs k) ∧
      (∀ m ∈ localMembers s job, (rankAddr s job m.1).isSome = true → ∃ q ∈ (getLanding t (lowestLanding s)).sources,
        q.pkt.body = .launch j.l ∧ ∃ r ∈ q.reps, r.dest = .hawser m.2) ∧ t.net = s.net ∧ t.hbm = s.hbm := by
  generalize hu : modJob job (fun x => { x with launch := .launched }) s = u
  have hx : exec (.jobLaunch job) s = .next (settle ((localMembers u job).foldl (launchMember job j.l) u)) := by
    have hdue : (launchDue s j && !arrivalsDue s) = true := by
      have hl' : tideReached j.l (now s) = true := hl
      simp [launchDue, hp, hl', ha]
    change execJobLaunch job s = _
    unfold execJobLaunch
    rw [hj, ← hu]
    exact if_pos hdue
  have hget : tabGet? u.jobs job = some { j with launch := .launched } := by
    rw [← hu]
    exact (tabGet?_tabMod_same s.jobs job (fun x => { x with launch := .launched })).trans (by rw [hj, Option.map_some])
  have hne (k : Nat) (hk : k ≠ job) : tabGet? u.jobs k = tabGet? s.jobs k := by
    rw [← hu]
    exact tabGet?_tabMod_ne s.jobs (fun x => { x with launch := .launched }) hk
  have hmembers : localMembers u job = localMembers s job := by
    unfold localMembers
    rw [hget, hj, ← hu]
    rfl
  have haddr (m : Nat) : rankAddr u job m = rankAddr s job m := by
    unfold rankAddr
    rw [hget, hj, ← hu]
    rfl
  have hlow : lowestLanding u = lowestLanding s := by rw [← hu]; rfl
  have hnet : u.net = s.net := by rw [← hu]; rfl
  have hhbm : u.hbm = s.hbm := by rw [← hu]; rfl
  have hview {ps : List Part} (hps : [.lands] ⊆ ps) : view ps ((localMembers u job).foldl (launchMember job j.l) u) = view ps u :=
    view_foldl _ (fun _ _ => view_launchMember _ _ _ hps) _ _
  have hwaits (m : Nat × Nat) (hm : m ∈ localMembers s job) (h : (rankAddr s job m.1).isSome = true) :
      LaunchWaits ((localMembers u job).foldl (launchMember job j.l) u) (lowestLanding s) j.l m.2 :=
    hlow ▸ launchWaits_all j.l _ u m (hmembers ▸ hm) (haddr m.1 ▸ h)
  generalize (localMembers u job).foldl (launchMember job j.l) u = v at hx hview hwaits
  have hjobs : v.jobs = u.jobs := jobs_of_view (hview (by simp))
  refine ⟨_, hx, ?_, fun k hk => ?_, hwaits, ?_, ?_⟩
  · exact hjobs ▸ hget
  · exact hjobs ▸ hne k hk
  · exact (net_of_view (hview (by simp))).trans hnet
  · exact (hbm_of_view (hview (by simp))).trans hhbm

theorem jobLaunch_of_early (hj : tabGet? s.jobs job = some j)
    (h : j.launch ≠ .pending ∨ tideReached j.l s.tide.count = false ∨ arrivalsDue s = true) : exec (.jobLaunch job) s = .next (settle s) := by
  have hdue : (launchDue s j && !arrivalsDue s) = false := by
    unfold launchDue
    rcases h with h | h | h
    · simp [h]
    · have h' : tideReached j.l (now s) = false := h
      simp [h']
    · simp [h]
  change execJobLaunch job s = _
  unfold execJobLaunch
  simp only [hj, hdue, Bool.false_eq_true, if_false]
  rfl

end

/-! ### Packets routed again -/

section
variable {s : State} {h : Nat}

/-- What routing reads of the slips and hawsers. -/
def SameService (s u : State) : Prop := u.slips = s.slips ∧ u.hawsers = s.hawsers ∧ ownAddr u = ownAddr s

theorem SameService.of_view {s u v : State} (hu : SameService s u)
    (hv : view (others [.slips, .hawsers, .told, .asked, .svcChanged, .net]) v = view (others [.slips, .hawsers, .told, .asked, .svcChanged, .net]) u) :
    SameService s v := by
  obtain ⟨hs, hh, ha⟩ := hu
  refine ⟨(slips_of_view (view_of_subset hv (others_subset (by decide)))).trans hs,
    (hawsers_of_view (view_of_subset hv (others_subset (by decide)))).trans hh, ?_⟩
  rw [ownAddr, net_of_view (view_of_subset hv (others_subset (by decide)))]
  exact ha

theorem SameService.slipsAtStart {u : State} (hu : SameService s u) : slipsAtStart u h = slipsAtStart s h := by
  obtain ⟨hs, hh, _⟩ := hu
  unfold Machine.slipsAtStart
  rw [getHawser_of_hawsers hh]
  simp only [getSlip_of_slips hs]

theorem SameService.stranded {u : State} (hu : SameService s u) (q : Queued) : stranded u h q = stranded s h q := by
  unfold Machine.stranded
  rw [hu.2.2]

/-- A candidate is up only if its hawser has a slip in service. -/
theorem slipsAtStart_of_candidateUp {k : Bank} {c : Candidate16} (hc : candidateUp s (fun n => (getSlip s n).startState) k c = true) :
    slipsAtStart s c.hawser ≠ [] := by
  unfold candidateUp at hc
  simp only [Bool.and_eq_true] at hc
  obtain ⟨⟨⟨_, hany⟩, _⟩, _⟩ := hc
  obtain ⟨n, hn, hst⟩ := List.any_eq_true.mp hany
  exact List.ne_nil_of_mem (List.mem_filter.mpr ⟨hn, hst⟩)

/-- A route leads over a hawser with a slip in service at the start of the tick. -/
theorem slipsAtStart_of_pickRoute {l d : Nat} {p : Packet} {a : Option Nat} (hr : pickRoute s l p a = some d) : slipsAtStart s d ≠ [] := by
  have hmem (c : Candidate16) (hc : c ∈ (tabGet (getBank s p.hdr.rte).routes p.hdr.egress []).filter
      (candidateUsable s (getBank s p.hdr.rte) p.hdr.job a)) : slipsAtStart s c.hawser ≠ [] := by
    have hu := (List.mem_filter.mp hc).2
    unfold candidateUsable at hu
    simp only [Bool.and_eq_true] at hu
    obtain ⟨⟨⟨hup, _⟩, _⟩, _⟩ := hu
    exact slipsAtStart_of_candidateUp hup
  unfold pickRoute at hr
  dsimp only at hr
  generalize (tabGet (getBank s p.hdr.rte).routes p.hdr.egress []).filter
    (candidateUsable s (getBank s p.hdr.rte) p.hdr.job a) = usable at hr hmem
  have hoffer (c : Candidate16) (hc : c ∈ if (usable.filter (fun c => !c.fallback)).isEmpty then usable else
      usable.filter (fun c => !c.fallback)) : c ∈ usable := by
    split at hc
    · exact hc
    · exact (List.mem_filter.mp hc).1
  generalize (if (usable.filter (fun c => !c.fallback)).isEmpty then usable else usable.filter (fun c => !c.fallback)) = offer at hr hoffer
  split at hr
  · obtain ⟨c, hc, rfl⟩ := Option.map_eq_some_iff.mp hr
    exact hmem c (hoffer c (List.mem_of_getElem? hc))
  · obtain ⟨c, hc, rfl⟩ := Option.map_eq_some_iff.mp hr
    exact hmem c (hoffer c (List.mem_of_mem_head? hc))

/-- A landing's queues hold nothing towards a peer by way of a hawser. -/
def Unstranded (s : State) (h : Nat) (u : State) (l : Nat) : Prop := ∀ q ∈ (getLanding u l).voq, stranded s h q = false

theorem unstranded_routeOrDrop {u : State} (hu : SameService s u) (hs : slipsAtStart s h = []) (l k : Nat) (p : Packet)
    (slip : Option Nat) (o : Bool) (e : Option EmitTag) (hk : Unstranded s h u k) : Unstranded s h (routeOrDrop l p slip o e u) k := by
  unfold Unstranded routeOrDrop
  split
  · rw [getLanding_returnTag, getLanding_countLanding]
    exact hk
  · split
    case h_1 d hd =>
      unfold queueTo pushVoq pushNamed
      by_cases hkl : k = l
      · rw [hkl, getLanding_modLanding_same]
        intro q hq
        rcases List.mem_append.mp hq with hq | hq
        · exact hk q (hkl ▸ hq)
        · have hne : d ≠ h := fun e => slipsAtStart_of_pickRoute hd (by rw [e, hu.slipsAtStart, hs])
          rw [List.mem_singleton.mp hq]
          simp [stranded, hne]
      · rw [getLanding_modLanding_ne _ _ _ hkl]
        exact hk
    · unfold dropUnrouted
      rw [getLanding_returnTag, getLanding_countLanding]
      exact hk

/-- One landing's packets that wait for a hawser without slips are routed again. -/
def rerouteAt (h : Nat) (s : State) (l : Nat) : State :=
  let qs := (getLanding s l).voq.filter (stranded s h)
  let s := modLanding l (fun x => { x with voq := x.voq.filter (fun q => !qs.any (fun k => k.id == q.id)) }) s
  qs.foldl (fun s q => routeOrDrop l q.pkt q.chargedSlip q.originated q.emit s) s

@[simp] theorem view_rerouteAt {ps : List Part} (s : State) (l : Nat)
    (hp : [.events, .eventSeq, .purser, .lands, .xings, .accts, .rctxVals, .outbox] ⊆ ps) : view ps (rerouteAt h s l) = view ps s := by
  simp only [List.cons_subset, List.nil_subset, and_true] at hp
  unfold rerouteAt
  simp [hp, view_foldl]

/-- The landing that is worked on is left without stranded packets; the others stay so. -/
theorem unstranded_rerouteAt {u : State} (hu : SameService s u) (hs : slipsAtStart s h = []) (l k : Nat)
    (hk : k = l ∨ Unstranded s h u k) : Unstranded s h (rerouteAt h u l) k := by
  have hfold (qs : List Queued) (v : State) (hv : SameService s v) (hc : Unstranded s h v k) :
      Unstranded s h (qs.foldl (fun s q => routeOrDrop l q.pkt q.chargedSlip q.originated q.emit s) v) k := by
    induction qs generalizing v with
    | nil => exact hc
    | cons q qs ih =>
      exact ih _ (hv.of_view (view_routeOrDrop _ _ _ _ _ _ (by simp))) (unstranded_routeOrDrop hv hs l k _ _ _ _ hc)
  refine hfold _ _ (hu.of_view (view_modLanding _ _ _ (by simp))) ?_
  unfold Unstranded
  by_cases hkl : k = l
  · rw [hkl, getLanding_modLanding_same]
    intro q hq
    obtain ⟨hin, hid⟩ := List.mem_filter.mp hq
    rw [← hu.stranded]
    by_contra hst
    rw [Bool.not_eq_true', List.any_eq_false] at hid
    exact hid q (List.mem_filter.mpr ⟨hin, by simpa using hst⟩) (by simp)
  · rw [getLanding_modLanding_ne _ _ _ hkl]
    exact hk.resolve_left hkl

theorem exists_reroute (hs : slipsAtStart s h = []) : ∃ t, exec (.reroute h) s = .next t ∧
    (∀ l, ∀ q ∈ (getLanding t l).voq, stranded t h q = false) ∧ t.net = s.net ∧ t.slips = s.slips := by
  have hx : exec (.reroute h) s = .next (settle ((s.lands.map Prod.fst).foldl (rerouteAt h) s)) := if_neg (by simp [hs])
  have hall (ls : List Nat) (u : State) (hu : SameService s u) (hc : ∀ k, k ∈ ls ∨ Unstranded s h u k) (k : Nat) :
      Unstranded s h (ls.foldl (rerouteAt h) u) k := by
    induction ls generalizing u with
    | nil => exact (hc k).resolve_left (by simp)
    | cons l ls ih =>
      refine ih _ (hu.of_view (view_rerouteAt _ _ (by simp))) (fun k => ?_)
      rcases hc k with hk | hk
      · exact (List.mem_cons.mp hk).elim (fun hk => .inr (unstranded_rerouteAt hu hs l k (.inl hk))) .inl
      · exact .inr (unstranded_rerouteAt hu hs l k (.inr hk))
  have hclear := hall (s.lands.map Prod.fst) s ⟨rfl, rfl, rfl⟩ (fun k => ?_)
  · have hview {ps : List Part} (hps : [.events, .eventSeq, .purser, .lands, .xings, .accts, .rctxVals, .outbox] ⊆ ps) :
        view ps ((s.lands.map Prod.fst).foldl (rerouteAt h) s) = view ps s := view_foldl _ (fun _ _ => view_rerouteAt _ _ hps) _ _
    generalize (s.lands.map Prod.fst).foldl (rerouteAt h) s = u at hx hclear hview
    have hnet : u.net = s.net := net_of_view (hview (by simp))
    have hslips : u.slips = s.slips := slips_of_view (hview (by simp))
    refine ⟨_, hx, fun l q hq => ?_, hnet, hslips⟩
    have hst : stranded (settle u) h q = stranded s h q := by
      unfold stranded ownAddr
      rw [← hnet]
      rfl
    rw [hst]
    exact hclear l q hq
  · by_cases hk : k ∈ s.lands.map Prod.fst
    · exact .inl hk
    · refine .inr (fun q hq => ?_)
      have hnone : tabGet? s.lands k = none := by
        unfold tabGet?
        rw [Option.map_eq_none_iff, List.find?_eq_none]
        exact fun x hx he => hk (List.mem_map.mpr ⟨x, hx, by simpa using he⟩)
      have hreset : getLanding s k = Landing.reset := by rw [getLanding, tabGet, hnone]; rfl
      rw [hreset] at hq
      cases hq

end

/-! ### Partitions -/

theorem exists_partitionEvaluation {s : State} (hc : s.net.serviceChanged = true) : ∃ t, exec .partitionEvaluation s = .next t ∧
    t.quiet = { s with net := { s.net with
      serviceChanged := false, reach := (((getBank s (activeBank s)).routes.map Prod.fst).filter (hasRoute (getBank s (activeBank s)))).map
        (fun a => (a, reachable s (getBank s (activeBank s)) a)) } }.quiet := by
  generalize hn : (((getBank s (activeBank s)).routes.map Prod.fst).filter (hasRoute (getBank s (activeBank s)))).map
        (fun a => (a, reachable s (getBank s (activeBank s)) a)) = new
  have hx : exec .partitionEvaluation s = .next (settle (new.foldl (fun v e =>
      let was := tabGet s.net.reach e.1 true
      if was && !e.2 then raiseFault 3 0 e.1 0 2 (raiseEvent 0x0041 none (le 2 e.1) v)
      else if !was && e.2 then raiseEvent 0x0042 none (le 2 e.1) v
      else v) { s with net := { s.net with reach := new, serviceChanged := false } })) := by
    rw [← hn]
    exact if_neg (by simp [hc])
  refine ⟨_, hx, ?_⟩
  rw [quiet_settle]
  refine foldl_keeps _ State.quiet (fun v e => ?_) _ _
  dsimp only
  split
  · simp
  · split <;> simp

/-- Settles O50. -/
theorem timedChanges : Obligations.timed_changes := by
  unfold Obligations.timed_changes
  intro s job slip hawser j table
  refine ⟨exists_jobLaunch, jobLaunch_of_early, fun ht hr => ?_, fun ht hr => ?_, exists_reroute, fun hs => if_pos (by simpa using hs),
    exists_partitionEvaluation, fun hc => if_pos (by simp [hc])⟩
  · change execTideTableInstall slip s = _
    unfold execTideTableInstall
    rw [ht]
    refine (if_pos hr).trans ?_
    simp only [List.isEmpty_iff]
    rfl
  · change execTideTableInstall slip s = _
    unfold execTideTableInstall
    rw [ht]
    exact if_neg (by rw [show tideReached table.base (now s - s.tide.stepped) = false from hr]; exact Bool.false_ne_true)

end Sys2Proof.Proofs

/-!
Packets that arrive and are taken, and the messages of crossings (O51).
-/
namespace Sys2Proof.Proofs
open Sys2Proof Sys2Proof.Machine Sys2Proof.Laws

/-! ### What takes a packet -/

section
variable {a : Arrival} {s s' : State}

theorem receive_of_arrives (h : Arrives a s s') (act : State → State) : receive a act s = act s' := by
  unfold receive
  dsimp only
  rw [show takeNext a _ = some s' from h]

/-- A packet that is taken leaves its landing's received packets; nothing else but the landing changes. -/
theorem view_of_arrives {ps : List Part} (h : Arrives a s s') (hp : [.lands] ⊆ ps) : view ps s' = view ps s := by
  refine (view_takeNext h hp).trans ?_
  split
  · rfl
  · exact view_handUp a s hp

theorem voq_of_arrives (h : Arrives a s s') (l : Nat) : (getLanding s' l).voq = (getLanding s l).voq := by
  have hdrop (u : State) : (getLanding (dropArrival a u) l).voq = (getLanding u l).voq := voq_modLanding _ _ _ _ (fun _ => rfl)
  have hup (u : State) : (getLanding (handUp a u) l).voq = (getLanding u l).voq := voq_modLanding _ _ _ _ (fun _ => rfl)
  have htake (u : State) (hu : takeNext a u = some s') : (getLanding s' l).voq = (getLanding u l).voq := by
    unfold takeNext at hu
    dsimp only at hu
    split at hu
    · cases hu
    · split at hu
      · split at hu
        · cases hu
          exact hdrop u
        · cases hu
      · split at hu
        · cases hu
          rw [voq_modLanding, hdrop]
          exact fun _ => rfl
        · cases hu
  rw [htake _ h]
  split
  · rfl
  · exact hup s

theorem fromPeer_of_view {t u : State} (h : view (others [.slips, .told, .asked, .svcChanged, .net]) t =
    view (others [.slips, .told, .asked, .svcChanged, .net]) u) (a : Arrival) : fromPeer t a = fromPeer u a := by
  have hn : t.net = u.net := net_of_view (view_of_subset h (others_subset (by decide)))
  have hs (n : Nat) : getSlip t n = getSlip u n := getSlip_of_view (view_of_subset h (others_subset (by decide))) n
  unfold fromPeer leadsToPeer activeBank getBank
  rw [hn, hs]

theorem fromPeer_of_arrives (h : Arrives a s s') : fromPeer s' a = fromPeer s a := fromPeer_of_view (view_of_arrives h (by simp)) a

theorem net_of_arrives (h : Arrives a s s') : s'.net = s.net := net_of_view (view_of_arrives h (by simp))

theorem ownAddr_of_arrives (h : Arrives a s s') : ownAddr s' = ownAddr s := by rw [ownAddr, ownAddr, net_of_arrives h]

theorem xings_of_arrives (h : Arrives a s s') : s'.xings = s.xings := xings_of_view (view_of_arrives h (by simp))

theorem incs_of_arrives (h : Arrives a s s') : s'.incs = s.incs := incs_of_view (view_of_arrives h (by simp))

theorem arrival_of_arrives (h : Arrives a s s') {kinds : List Nat} (hk : kinds.contains (pktKind a.pkt) = true) :
    arrival kinds a s = actOn a s' := (if_pos hk).trans (receive_of_arrives h _)

/-- What comes from a peer and is bound for here meets its consumer. -/
theorem actOn_peer (hk : knownKind (pktKind a.pkt) = true) (hne : pktKind a.pkt ≠ 0x0B) (hp : fromPeer s a = true)
    (hh : a.pkt.hdr.hops < 2048) (he : a.pkt.hdr.egress = ownAddr s) : actOn a s = peerEgress a s := by
  unfold actOn
  rw [hk, hp, if_neg (by simp), if_neg (by simp), if_neg (Nat.not_le.mpr hh), if_neg hne, if_neg (by simp [he])]

end

/-! ### Crossings -/

section
variable {s : State} {x : Crossing}

theorem sameXing_of_findXing {l p pl : Nat} (h : findXing s l p pl = some x) : x.landing = l ∧ x.peer = p ∧ x.peerLanding = pl := by
  simpa [and_assoc] using List.find?_some h

/-- A crossing that is changed, but for what names it, is found changed. -/
theorem findXing_modXing {l p pl : Nat} (h : findXing s l p pl = some x) (f : Crossing → Crossing)
    (hf : ∀ y, (f y).landing = y.landing ∧ (f y).peer = y.peer ∧ (f y).peerLanding = y.peerLanding) :
    findXing (modXing l p pl f s) l p pl = some (f x) := by
  obtain ⟨hl, hp, hpl⟩ := sameXing_of_findXing h
  have hpred : ((fun y : Crossing => y.landing == l && y.peer == p && y.peerLanding == pl) ∘
      fun y => if y.landing = l && y.peer = p && y.peerLanding = pl then f y else y) =
      fun y => y.landing == l && y.peer == p && y.peerLanding == pl := by
    funext y
    obtain ⟨h1, h2, h3⟩ := hf y
    dsimp only [Function.comp]
    split
    · rw [h1, h2, h3]
    · rfl
  unfold findXing modXing at *
  rw [List.find?_map, hpred, h, Option.map_some, if_pos (by simp [hl, hp, hpl])]

theorem getLane_setLane_ne (y : Crossing) {i k : Nat} (l : XLane) (h : k ≠ i) : getLane (setLane y i l) k = getLane y k := by
  simp [getLane, setLane, List.getD_eq_getElem?_getD, Ne.symm h]

theorem getLane_setLane_same (y : Crossing) {i : Nat} (l : XLane) (h : i < y.lanes.length) : getLane (setLane y i l) i = l := by
  simp [getLane, setLane, List.getD_eq_getElem?_getD, h]

theorem getLane_of_length_le (y : Crossing) {i : Nat} (h : y.lanes.length ≤ i) : getLane y i = XLane.fresh := by
  simp [getLane, List.getD_eq_getElem?_getD, List.getElem?_eq_none h]

theorem length_of_getLane {y : Crossing} {i : Nat} (h : getLane y i ≠ XLane.fresh) : i < y.lanes.length :=
  Nat.lt_of_not_le fun hle => h (getLane_of_length_le y hle)

/-- A lane's copies, filtered in place. -/
theorem copies_setLane_filter (y : Crossing) (i : Nat) (p : Copy → Bool) :
    (getLane (setLane y i { getLane y i with copies := (getLane y i).copies.filter p }) i).copies = (getLane y i).copies.filter p := by
  by_cases h : i < y.lanes.length
  · rw [getLane_setLane_same _ _ h]
  · have hle := Nat.le_of_not_lt h
    rw [getLane_of_length_le y hle, getLane_of_length_le _ (by simpa [setLane] using hle)]
    rfl

end

/-! ### XSYNC and XACK -/

section
variable {s s' : State} {a : Arrival} {x : Crossing} {inc : BitVec 2}

/-- Where a message of a crossing, come from a peer, reaches this F384. -/
def XingMessage (a : Arrival) (s s' : State) : Prop :=
  Arrives a s s' ∧ fromPeer s a = true ∧ a.pkt.hdr.hops < 2048 ∧ a.pkt.hdr.egress = ownAddr s

theorem xsync_eq (h : XingMessage a s s') {o : Bool} (hb : a.pkt.body = .xsync inc o) : exec (.xsync a) s = .next (settle (takeXsync a.pkt s')) := by
  obtain ⟨ha, hp, hh, he⟩ := h
  have hk : pktKind a.pkt = 0x0D := by rw [pktKind, hb]; rfl
  have hact : arrival [0x0D] a s = takeXsync a.pkt s' := by
    rw [arrival_of_arrives ha (by rw [hk]; rfl), actOn_peer (by rw [hk]; rfl) (by rw [hk]; decide) (by rw [fromPeer_of_arrives ha, hp]) hh
      (by rw [he, ownAddr_of_arrives ha])]
    unfold peerEgress
    rw [hk]
    rfl
  exact congrArg finish hact

theorem xack_eq (h : XingMessage a s s') {cum : Seq} {sack : BitVec 256} (hb : a.pkt.body = .xack cum sack) :
    exec (.xack a) s = .next (settle (takeXack a.pkt s')) := by
  obtain ⟨ha, hp, hh, he⟩ := h
  have hk : pktKind a.pkt = 0x0C := by rw [pktKind, hb]; rfl
  have hact : arrival [0x0C] a s = takeXack a.pkt s' := by
    rw [arrival_of_arrives ha (by rw [hk]; rfl), actOn_peer (by rw [hk]; rfl) (by rw [hk]; decide) (by rw [fromPeer_of_arrives ha, hp]) hh
      (by rw [he, ownAddr_of_arrives ha])]
    unfold peerEgress
    rw [hk]
    rfl
  exact congrArg finish hact

theorem xingOf_of_arrives (h : Arrives a s s') (p : Packet) : xingOf s' p = xingOf s p := by
  rw [xingOf, xingOf, findXing, findXing, xings_of_arrives h]

theorem getInc_of_arrives (h : Arrives a s s') (l p pl : Nat) : getInc s' l p pl = getInc s l p pl := by
  rw [getInc, getInc, incs_of_arrives h]

theorem exists_xsync_opened (h : XingMessage a s s') {o : Bool} (hb : a.pkt.body = .xsync inc o) (hx : xingOf s a.pkt = some x)
    (hst : x.state = .syncing) (hi : inc = getInc s x.landing x.peer x.peerLanding) : ∃ t, exec (.xsync a) s = .next t ∧
      (∀ y ∈ t.xings, SameXing x y → y.state = .opened) ∧ t.incs = s.incs ∧ t.net = s.net := by
  have ha := h.1
  have htake : takeXsync a.pkt s' = sendXsync x true (modXing x.landing x.peer x.peerLanding (fun y => { y with state := .opened }) s') := by
    unfold takeXsync
    rw [hb, xingOf_of_arrives ha, hx]
    dsimp only
    rw [if_neg (by simp [getInc_of_arrives ha, hi]), hst]
  have hxings : (takeXsync a.pkt s').xings = (modXing x.landing x.peer x.peerLanding (fun y => { y with state := .opened }) s').xings := by
    rw [htake]
    exact xings_of_view (view_sendXsync _ _ _ (by simp))
  have hincs : (takeXsync a.pkt s').incs = s.incs := by
    rw [htake, ← incs_of_arrives ha]
    exact incs_of_view (view_sendXsync _ _ _ (by simp))
  have hnet : (takeXsync a.pkt s').net = s.net := (net_of_view (view_takeXsync _ _ (by simp))).trans (net_of_arrives ha)
  refine ⟨_, xsync_eq h hb, fun y hy hsame => ?_, hincs, hnet⟩
  have hy' : y ∈ (takeXsync a.pkt s').xings := hy
  exact mem_modXing _ x (P := fun y => y.state = .opened) (fun _ => rfl) (hxings ▸ hy') hsame

theorem exists_xsync_reset (h : XingMessage a s s') {o : Bool} (hb : a.pkt.body = .xsync inc o) (hx : xingOf s a.pkt = some x)
    (hi : inc ≠ getInc s x.landing x.peer x.peerLanding) : ∃ t, exec (.xsync a) s = .next t ∧
      (∀ y ∈ t.xings, SameXing x y → y.state = .syncing ∧ y.lanes = List.replicate 4 XLane.fresh) ∧
      getInc t x.landing x.peer x.peerLanding = inc ∧ t.net = s.net := by
  have ha := h.1
  have htake : takeXsync a.pkt s' = xingReset x inc 1 s' := by
    unfold takeXsync
    rw [hb, xingOf_of_arrives ha, hx]
    dsimp only
    rw [if_pos (by simpa [getInc_of_arrives ha] using hi)]
  have hxings : (xingReset x inc 1 s').xings = (modXing x.landing x.peer x.peerLanding (fun y =>
      { y with state := .syncing, lanes := List.replicate 4 XLane.fresh }) (discardXing x s')).xings :=
    xings_of_view (s := putInc x.landing x.peer x.peerLanding inc (modXing x.landing x.peer x.peerLanding (fun y =>
      { y with state := .syncing, lanes := List.replicate 4 XLane.fresh }) (discardXing x s'))) (view_raiseEvent _ _ _ _ (by simp))
  have hinc : getInc (xingReset x inc 1 s') x.landing x.peer x.peerLanding = inc := by
    have hincs : (xingReset x inc 1 s').incs = (putInc x.landing x.peer x.peerLanding inc (modXing x.landing x.peer x.peerLanding (fun y =>
      { y with state := .syncing, lanes := List.replicate 4 XLane.fresh }) (discardXing x s'))).incs :=
      incs_of_view (view_raiseEvent _ _ _ _ (by simp))
    rw [getInc, hincs]
    simp [putInc]
  have hnet : (xingReset x inc 1 s').net = s.net := (net_of_view (view_xingReset _ _ _ _ (by simp))).trans (net_of_arrives ha)
  have he := xsync_eq h hb
  rw [htake] at he
  refine ⟨_, he, fun y hy hsame => ?_, hinc, hnet⟩
  have hy' : y ∈ (xingReset x inc 1 s').xings := hy
  exact mem_modXing _ x (P := fun y => y.state = .syncing ∧ y.lanes = List.replicate 4 XLane.fresh) (fun _ => ⟨rfl, rfl⟩)
    (hxings ▸ hy') hsame

theorem xsync_down (h : XingMessage a s s') {o : Bool} (hb : a.pkt.body = .xsync inc o) (hx : xingOf s a.pkt = some x)
    (hst : x.state = .down) (hi : inc = getInc s x.landing x.peer x.peerLanding) :
    exec (.xsync a) s = .next (settle (countLanding x.landing 8 s')) := by
  have ha := h.1
  have htake : takeXsync a.pkt s' = countLanding x.landing 8 s' := by
    unfold takeXsync
    rw [hb, xingOf_of_arrives ha, hx]
    dsimp only
    rw [if_neg (by simp [getInc_of_arrives ha, hi]), hst]
  rw [xsync_eq h hb, htake]

theorem exists_xack {cum : Seq} {sack : BitVec 256} (h : XingMessage a s s') (hb : a.pkt.body = .xack cum sack)
    (hx : xingOf s a.pkt = some x) (hst : x.state = .opened) (hi : a.pkt.hdr.inc = getInc s x.landing x.peer x.peerLanding) :
    ∃ t y, exec (.xack a) s = .next t ∧ findXing t x.landing x.peer x.peerLanding = some y ∧
      (getLane y a.pkt.hdr.lane).copies = (getLane x a.pkt.hdr.lane).copies.filter (fun c => !acked cum sack c.seq) ∧
      (∀ k, k ≠ a.pkt.hdr.lane → getLane y k = getLane x k) ∧ y.state = .opened ∧ t.net = s.net := by
  have ha := h.1
  have hfind : findXing s' x.landing x.peer x.peerLanding = some x := by
    obtain ⟨hl, hp, hpl⟩ := sameXing_of_findXing hx
    have hx' := xingOf_of_arrives ha a.pkt ▸ hx
    rw [hl, hp, hpl]
    exact hx'
  have htake : takeXack a.pkt s' = modXing x.landing x.peer x.peerLanding (fun y => setLane y a.pkt.hdr.lane
      { getLane y a.pkt.hdr.lane with copies := (getLane y a.pkt.hdr.lane).copies.filter (fun c => !acked cum sack c.seq) }) s' := by
    unfold takeXack xingAccepts
    simp only [hb, xingOf_of_arrives ha, hx, hst, getInc_of_arrives ha, hi, bne_self_eq_false, Bool.false_eq_true, if_false]
  have hget := findXing_modXing hfind (fun y => setLane y a.pkt.hdr.lane
      { getLane y a.pkt.hdr.lane with copies := (getLane y a.pkt.hdr.lane).copies.filter (fun c => !acked cum sack c.seq) })
    (fun _ => ⟨rfl, rfl, rfl⟩)
  rw [← htake] at hget
  have hnet : (takeXack a.pkt s').net = s.net := (net_of_view (view_takeXack _ _ (by simp))).trans (net_of_arrives ha)
  exact ⟨_, _, xack_eq h hb, hget, copies_setLane_filter x _ _, fun k hk => getLane_setLane_ne _ _ hk, hst, hnet⟩

theorem exists_xsyncTimer (hx : findXing s x.landing x.peer x.peerLanding = some x) (hst : x.state = .syncing) :
    ∃ t, exec (.xsyncTimer x.landing x.peer x.peerLanding) s = .next t ∧ t.xings = s.xings ∧
      ∃ q ∈ (getLanding t (originLanding s x.landing)).sources,
        q.pkt.body = .xsync (getInc s x.landing x.peer x.peerLanding) false ∧ q.pkt.hdr.egress = x.peer := by
  have he : exec (.xsyncTimer x.landing x.peer x.peerLanding) s = .next (settle (sendXsync x false s)) := by
    change execXsyncTimer x.landing x.peer x.peerLanding s = _
    unfold execXsyncTimer
    rw [hx]
    exact if_pos hst
  have hxings : (sendXsync x false s).xings = s.xings := xings_of_view (view_sendXsync _ _ _ (by simp))
  refine ⟨_, he, hxings, ?_⟩
  rw [getLanding_settle]
  unfold sendXsync
  rw [sources_originate]
  exact ⟨_, List.mem_append_right _ (List.mem_singleton.mpr rfl), rfl, rfl⟩

theorem exists_xackTimer {lane : Nat} {t0 : Tide} (hx : findXing s x.landing x.peer x.peerLanding = some x) (hst : x.state = .opened)
    (hf : (getLane x lane).ackFrom = some t0) (ht : 500 ≤ tideSince t0 s.tide.count) (hl : landingAwake s x.landing = true)
    (hd : arrivalsDue s = false) : ∃ t y m, exec (.xackTimer x.landing x.peer x.peerLanding lane) s = .next t ∧
      findXing t x.landing x.peer x.peerLanding = some y ∧ getLane y lane = { getLane x lane with sinceAck := 0, ackFrom := none } ∧
      ∃ q ∈ (getLanding t (originLanding s x.landing)).sources, q.pkt.body = .xack (getLane x lane).cum m := by
  have he : exec (.xackTimer x.landing x.peer x.peerLanding lane) s = .next (settle (sendXack x lane s)) := by
    have hdue : xackDue s x (getLane x lane) = true := by
      have ht' : 500 ≤ tideSince t0 (now s) := ht
      simp [xackDue, hst, hl, hf, ht']
    change execXackTimer x.landing x.peer x.peerLanding lane s = _
    unfold execXackTimer
    rw [hx]
    exact if_pos (by simp [hdue, hd])
  have hlane : lane < x.lanes.length := length_of_getLane (fun hfresh => by rw [hfresh] at hf; cases hf)
  generalize hu : modXing x.landing x.peer x.peerLanding (fun y =>
    setLane y lane { getLane y lane with sinceAck := 0, ackFrom := none }) s = u
  have hget : findXing u x.landing x.peer x.peerLanding = some (setLane x lane { getLane x lane with sinceAck := 0, ackFrom := none }) :=
    hu ▸ findXing_modXing hx _ (fun _ => ⟨rfl, rfl, rfl⟩)
  have horigin : originLanding u x.landing = originLanding s x.landing := originLanding_of_units _ (by rw [← hu]; rfl) _
  obtain ⟨hdr, m, hsend⟩ : ∃ hdr m, sendXack x lane s =
      originate x.landing (mkPacket hdr (.xack (getLane x lane).cum m)) (.crossing x.peer x.peerLanding lane) none u := by
    rw [← hu]
    exact ⟨_, _, rfl⟩
  have hxings : (sendXack x lane s).xings = u.xings := by
    rw [hsend]
    exact xings_of_view (view_originate _ _ _ _ _ (by simp))
  have hsrc := sources_originate u x.landing (mkPacket hdr (.xack (getLane x lane).cum m)) (.crossing x.peer x.peerLanding lane) none
  rw [← hsend, horigin] at hsrc
  generalize sendXack x lane s = v at he hxings hsrc
  refine ⟨_, _, m, he, ?_, getLane_setLane_same x _ hlane, ?_⟩
  · rw [← hget, findXing, findXing, ← hxings]
    rfl
  · rw [getLanding_settle, hsrc]
    exact ⟨_, List.mem_append_right _ (List.mem_singleton.mpr rfl), rfl⟩

end

/-- Settles O51. -/
theorem crossingMessages : Obligations.crossing_messages := by
  unfold Obligations.crossing_messages
  intro s s' a x inc isOpen cum sack lane t0
  refine ⟨fun h hb hx hst hi => exists_xsync_opened h hb hx hst hi, fun h hb hx hi => exists_xsync_reset h hb hx hi,
    fun h hb hx hst hi => xsync_down h hb hx hst hi, fun h hb hx hst hi => exists_xack h hb hx hst hi,
    fun hx hst => exists_xsyncTimer hx hst, fun hx hst => ?_, fun hx hst hf ht hl hd => exists_xackTimer hx hst hf ht hl hd⟩
  change execXsyncTimer x.landing x.peer x.peerLanding s = _
  unfold execXsyncTimer
  rw [hx]
  exact if_neg hst

end Sys2Proof.Proofs

/-!
What a crossing and a source send (O52).
-/
namespace Sys2Proof.Proofs
open Sys2Proof Sys2Proof.Machine Sys2Proof.Laws

/-! ### Crossings that are changed -/

section
variable {s : State} {x : Crossing}

theorem findXing_of_xings {t u : State} (h : t.xings = u.xings) (l p pl : Nat) : findXing t l p pl = findXing u l p pl := by
  rw [findXing, findXing, h]

/-- Whichever crossing is changed, but for what names it, every crossing is found where it was. -/
theorem findXing_modXing_any {l p pl : Nat} (h : findXing s l p pl = some x) (l' p' pl' : Nat) (f : Crossing → Crossing)
    (hf : ∀ y, (f y).landing = y.landing ∧ (f y).peer = y.peer ∧ (f y).peerLanding = y.peerLanding) :
    findXing (modXing l' p' pl' f s) l p pl = some x ∨ findXing (modXing l' p' pl' f s) l p pl = some (f x) := by
  have hpred : ((fun y : Crossing => y.landing == l && y.peer == p && y.peerLanding == pl) ∘
      fun y => if y.landing = l' && y.peer = p' && y.peerLanding = pl' then f y else y) =
      fun y => y.landing == l && y.peer == p && y.peerLanding == pl := by
    funext y
    obtain ⟨h1, h2, h3⟩ := hf y
    dsimp only [Function.comp]
    split
    · rw [h1, h2, h3]
    · rfl
  unfold findXing modXing at *
  rw [List.find?_map, hpred, h, Option.map_some]
  split
  · exact .inr rfl
  · exact .inl rfl

/-- A crossing whose copies stay, but for what they count for. -/
def CopiesStay (x y : Crossing) : Prop :=
  y.state = x.state ∧ y.retransmits = x.retransmits ∧ ∀ lane, ∀ d ∈ (getLane x lane).copies, ∃ e ∈ (getLane y lane).copies,
    e.seq = d.seq ∧ e.pkt = d.pkt ∧ e.sentAt = d.sentAt ∧ e.retries = d.retries

theorem CopiesStay.refl (x : Crossing) : CopiesStay x x := ⟨rfl, rfl, fun _ d hd => ⟨d, hd, rfl, rfl, rfl, rfl⟩⟩

/-- A crossing with a lane's copy of a number counting for an emission. -/
def withTag (i : Nat) (q : Seq) (e : EmitTag) (x : Crossing) : Crossing :=
  let l := getLane x i
  setLane x i { l with copies := l.copies.map (fun c => if c.seq = q then { c with emit := some e } else c) }

theorem copiesStay_withTag (i : Nat) (q : Seq) (e : EmitTag) (x : Crossing) : CopiesStay x (withTag i q e x) := by
  unfold withTag
  refine ⟨rfl, rfl, fun lane d hd => ?_⟩
  by_cases hl : lane = i
  · have hlen : lane < x.lanes.length := length_of_getLane (fun hfresh => by rw [hfresh] at hd; cases hd)
    rw [← hl, getLane_setLane_same _ _ hlen]
    refine ⟨_, List.mem_map.mpr ⟨d, hd, rfl⟩, ?_⟩
    split <;> exact ⟨rfl, rfl, rfl, rfl⟩
  · rw [getLane_setLane_ne _ _ hl]
    exact ⟨d, hd, rfl, rfl, rfl, rfl⟩

theorem exists_returnTag {l p pl : Nat} (h : findXing s l p pl = some x) (k : Packet) (emit : Option EmitTag) :
    ∃ y, findXing (returnTag k emit s) l p pl = some y ∧ CopiesStay x y := by
  have hemit (n : Nat) : findXing (emissionsLeft emit n s) l p pl = some x :=
    (findXing_of_xings (xings_of_view (view_emissionsLeft _ _ _ (by simp))) l p pl).trans h
  unfold returnTag
  split
  · exact ⟨x, h, .refl x⟩
  · split
    · split
      · dsimp only
        rcases findXing_modXing_any h k.hdr.xland k.hdr.egress k.hdr.egressLanding (withTag k.hdr.lane k.hdr.seq _)
          (fun _ => ⟨rfl, rfl, rfl⟩) with hf | hf
        · exact ⟨x, hf, .refl x⟩
        · exact ⟨_, hf, copiesStay_withTag _ _ _ x⟩
      · exact ⟨x, hemit 1, .refl x⟩
    · exact ⟨x, hemit 1, .refl x⟩

theorem exists_routeOrDrop {l p pl : Nat} (h : findXing s l p pl = some x) (k : Nat) (q : Packet) (slip : Option Nat) (o : Bool)
    (e : Option EmitTag) : ∃ y, findXing (routeOrDrop k q slip o e s) l p pl = some y ∧ CopiesStay x y := by
  have hcount (i : Nat) : findXing (countLanding k i s) l p pl = some x :=
    (findXing_of_xings (xings_of_view (view_countLanding _ _ _ (by simp))) l p pl).trans h
  unfold routeOrDrop
  split
  · exact exists_returnTag (hcount 3) q e
  · split
    · exact ⟨x, (findXing_of_xings (xings_of_view (view_queueTo _ _ _ _ _ _ _ (by simp))) l p pl).trans h, .refl x⟩
    · exact exists_returnTag (hcount 4) q e

end

/-! ### What a crossing sends -/

section
variable {s : State} {x : Crossing} {lane : Nat} {q : Queued} {r : Replica} {c : Copy}

/-- The header under which a crossing sends a packet for the first time (R174). -/
def sendHeader (s : State) (x : Crossing) (lane : Nat) (r : Replica) : Header :=
  { r.pkt.hdr with seq := (getLane x lane).nextSeq, xmit := 0, xland := x.landing, xing := true,
                   inc := getInc s x.landing x.peer x.peerLanding, hops := 0, rte := activeBank s, ingress := ownAddr s, egress := x.peer,
                   egressLanding := x.peerLanding, lane := lane }

/-- The crossing with a copy more on a lane. -/
def withCopy (lane : Nat) (n : Seq) (d : Copy) (y : Crossing) : Crossing :=
  setLane y lane { getLane y lane with nextSeq := n, copies := (getLane y lane).copies ++ [d] }

theorem exists_crossingSend (hx : findXing s x.landing x.peer x.peerLanding = some x) (hst : x.state = .opened)
    (hl : lane < x.lanes.length) (hn : nextForXing s x.landing x.peer x.peerLanding lane = some (q, r))
    (ha : landingAwake s x.landing = true) (hs : switchDue s = false) (hw : windowOpen x (getLane x lane) 0 = true)
    (hc : copyRoom s x.landing (pktUnits r.pkt) = true)
    (hr : (pickRoute s x.landing { r.pkt with hdr := sendHeader s x lane r } (q.chargedSlip.map (hawserOf s))).isSome = true ∨
      q.originated = true) :
    ∃ t y d, exec (.crossingSend x.landing x.peer x.peerLanding lane) s = .next t ∧
      findXing t x.landing x.peer x.peerLanding = some y ∧ (getLane y lane).nextSeq = (getLane x lane).nextSeq + 1 ∧
      (getLane y lane).copies = (getLane x lane).copies ++ [d] ∧ d.seq = (getLane x lane).nextSeq ∧ d.pkt.hdr = sendHeader s x lane r ∧
      d.pkt.body = r.pkt.body ∧ d.sentAt = s.tide.count ∧ d.retries = 0 := by
  generalize hp : ({ r.pkt with hdr := sendHeader s x lane r } : Packet) = p at hr
  generalize hroute : pickRoute s x.landing p (q.chargedSlip.map (hawserOf s)) = route at hr
  let d : Copy := { seq := (getLane x lane).nextSeq, pkt := p, sentAt := now (takeReplica x.landing q r s), retries := 0,
                    emit := if route.isNone then q.emit else none }
  obtain ⟨u, hu⟩ : ∃ u, u = modXing x.landing x.peer x.peerLanding (withCopy lane ((getLane x lane).nextSeq + 1) d)
    (takeReplica x.landing q r s) := ⟨_, rfl⟩
  have hexec : ∃ v, exec (.crossingSend x.landing x.peer x.peerLanding lane) s = .next (settle v) ∧ v.xings = u.xings := by
    have hg : (x.state != .opened || switchDue s || !landingAwake s x.landing || !windowOpen x (getLane x lane) 0 ||
        !copyRoom s x.landing (pktUnits r.pkt)) = false := by simp [hst, hs, ha, hw, hc]
    have hopen : exec (.crossingSend x.landing x.peer x.peerLanding lane) s =
        match (generalizing := false) route, q.originated, localHawser (takeReplica x.landing q r s) r.pkt.hdr.src with
        | none, false, some h => finish (answerRefused h (asNamed q.named r.pkt) stPartition
            (countLanding x.landing 4 (takeReplica x.landing q r s)))
        | _, _, _ => match (generalizing := false) route with
          | some h => finish (queueTo x.landing p h none false q.emit u)
          | none => finish (countLanding x.landing 4 u) := by
      change execCrossingSend x.landing x.peer x.peerLanding lane s = _
      unfold execCrossingSend
      rw [hx, hn]
      dsimp only
      rw [hg, if_neg Bool.false_ne_true, hu]
      subst hp hroute
      rfl
    rw [hopen]
    cases route with
    | some h => exact ⟨_, rfl, xings_of_view (view_queueTo _ _ _ _ _ _ _ (by simp))⟩
    | none =>
      rw [hr.resolve_left (by simp)]
      exact ⟨_, rfl, xings_of_view (view_countLanding _ _ _ (by simp))⟩
  obtain ⟨v, hv, hxings⟩ := hexec
  have hx' : findXing (takeReplica x.landing q r s) x.landing x.peer x.peerLanding = some x :=
    (findXing_of_xings (xings_of_view (view_takeReplica _ _ _ _ (by simp))) _ _ _).trans hx
  have hget : findXing (settle v) x.landing x.peer x.peerLanding = some (withCopy lane ((getLane x lane).nextSeq + 1) d x) := by
    refine (findXing_of_xings (t := settle v) (u := u) hxings _ _ _).trans ?_
    rw [hu]
    exact findXing_modXing hx' _ (fun _ => ⟨rfl, rfl, rfl⟩)
  have hnow : now (takeReplica x.landing q r s) = s.tide.count := congrArg TideUnit.count (tide_of_view (view_takeReplica _ _ _ _ (by simp)))
  refine ⟨_, _, d, hv, hget, ?_, ?_, rfl, ?_, ?_, hnow, rfl⟩
  · rw [withCopy, getLane_setLane_same _ _ hl]
  · rw [withCopy, getLane_setLane_same _ _ hl]
  · exact (congrArg Packet.hdr hp).symm
  · exact (congrArg Packet.body hp).symm

/-- A copy as it goes again (R177). -/
def resentCopy (s : State) (c : Copy) : Copy :=
  { c with pkt := { c.pkt with hdr := { c.pkt.hdr with xmit := min 15 (c.retries + 1), hops := 0, rte := activeBank s } },
           sentAt := now s, retries := c.retries + 1, emit := none }

/-- The crossing once a copy has gone again. -/
def withResent (s : State) (lane : Nat) (c : Copy) (y : Crossing) : Crossing :=
  { setLane y lane { getLane y lane with copies := (getLane y lane).copies.map (fun d => if d.seq = c.seq then resentCopy s c else d) } with
    retransmits := y.retransmits + 1 }

theorem exists_retransmit (hx : findXing s x.landing x.peer x.peerLanding = some x) (ha : arrivalsDue s = false) (hst : x.state = .opened)
    (hc : (getLane x lane).copies.find? (copyDue s x) = some c) (hr : c.retries < x.retryLimit) :
    ∃ t y, exec (.retransmitTimeout x.landing x.peer x.peerLanding lane) s = .next t ∧
      findXing t x.landing x.peer x.peerLanding = some y ∧ y.retransmits = x.retransmits + 1 ∧ y.state = .opened ∧
      ∃ d ∈ (getLane y lane).copies, d.seq = c.seq ∧ d.retries = c.retries + 1 ∧ d.sentAt = s.tide.count ∧
        d.pkt.hdr.xmit = min 15 (c.retries + 1) := by
  obtain ⟨u, hu⟩ : ∃ u, u = modXing x.landing x.peer x.peerLanding (withResent s lane c) (countNoted 0x000A s) := ⟨_, rfl⟩
  have he : exec (.retransmitTimeout x.landing x.peer x.peerLanding lane) s =
      .next (settle (routeOrDrop x.landing (resentCopy s c).pkt none false c.emit u)) := by
    change execRetransmitTimeout x.landing x.peer x.peerLanding lane s = _
    unfold execRetransmitTimeout
    rw [hx]
    dsimp only
    rw [ha, if_neg Bool.false_ne_true, hc, hu]
    exact if_neg (Nat.not_le.mpr hr)
  have hx' : findXing (countNoted 0x000A s) x.landing x.peer x.peerLanding = some x :=
    (findXing_of_xings (xings_of_view (view_countNoted _ _ (by simp))) _ _ _).trans hx
  have hget : findXing u x.landing x.peer x.peerLanding = some (withResent s lane c x) := by
    rw [hu]
    exact findXing_modXing hx' _ (fun _ => ⟨rfl, rfl, rfl⟩)
  obtain ⟨y, hy, hstate, hcount, hstay⟩ := exists_routeOrDrop hget x.landing (resentCopy s c).pkt none false c.emit
  have hmem := List.mem_of_find?_eq_some hc
  have hl : lane < x.lanes.length := length_of_getLane (fun hfresh => by rw [hfresh] at hmem; cases hmem)
  have hin : resentCopy s c ∈ (getLane (withResent s lane c x) lane).copies := by
    have hlane : getLane (withResent s lane c x) lane = { getLane x lane with
        copies := (getLane x lane).copies.map (fun d => if d.seq = c.seq then resentCopy s c else d) } := getLane_setLane_same x _ hl
    rw [hlane]
    exact List.mem_map.mpr ⟨c, hmem, if_pos rfl⟩
  obtain ⟨d, hd, hseq, hpkt, hsent, hretry⟩ := hstay lane _ hin
  refine ⟨_, y, he, hy, hcount, hstate.trans hst, d, hd, hseq, hretry, hsent, ?_⟩
  rw [hpkt]
  rfl

theorem exists_retransmit_down (hx : findXing s x.landing x.peer x.peerLanding = some x) (ha : arrivalsDue s = false)
    (hst : x.state = .opened) (hc : (getLane x lane).copies.find? (copyDue s x) = some c) (hr : x.retryLimit ≤ c.retries) :
    ∃ t, exec (.retransmitTimeout x.landing x.peer x.peerLanding lane) s = .next t ∧
      ∀ y ∈ t.xings, y.landing = x.landing → y.peer = x.peer → y.peerLanding = x.peerLanding → y.state = .down := by
  have he : exec (.retransmitTimeout x.landing x.peer x.peerLanding lane) s = .next (settle (xingDown x lane s)) := by
    change execRetransmitTimeout x.landing x.peer x.peerLanding lane s = _
    unfold execRetransmitTimeout
    rw [hx]
    dsimp only
    rw [ha, if_neg Bool.false_ne_true, hc]
    exact if_pos hr
  exact ⟨_, he, fun y hy h1 h2 h3 => xings_xingDown s x (by rw [hst]; decide) lane y hy ⟨h1, h2, h3⟩⟩

end

/-! ### What a source sends -/

section
variable {s : State} {l entry : Nat} {z : Sourced} {q : Queued} {t0 : Tide}

theorem sources_modLanding (k : Nat) (f : Landing → Landing) (hf : ∀ x, (f x).sources = x.sources) :
    (getLanding (modLanding k f s) l).sources = (getLanding s l).sources := by
  by_cases hk : l = k
  · subst hk
    rw [getLanding_modLanding_same]
    exact hf _
  · rw [getLanding_modLanding_ne _ _ _ hk]

theorem sources_pushVoq (k : Nat) (p : Packet) (reps : List Replica) (slip : Option Nat) (o : Bool) (e : Option EmitTag) :
    (getLanding (pushVoq k p reps slip o e s) l).sources = (getLanding s l).sources := sources_modLanding _ _ (fun _ => rfl)

theorem sources_routeOrDrop (k : Nat) (p : Packet) (slip : Option Nat) (o : Bool) (e : Option EmitTag) :
    (getLanding (routeOrDrop k p slip o e s) l).sources = (getLanding s l).sources := by
  unfold routeOrDrop
  split
  · rw [getLanding_returnTag, getLanding_countLanding]
  · split
    · exact sources_pushVoq _ _ _ _ _ _
    · unfold dropUnrouted
      rw [getLanding_returnTag, getLanding_countLanding]

/-- The replicas that nothing takes any more, counted (R214). -/
def goneCounted (l : Nat) (q : Sourced) (rs : List Replica) (s : State) : State :=
  rs.foldl (fun s r => emissionsLeft q.emit 1 (countGone l r s)) s

theorem getLanding_goneCounted (k : Nat) (q : Sourced) (rs : List Replica) : getLanding (goneCounted k q rs s) l = getLanding s l :=
  getLanding_of_view (view_foldl _ (fun s r => by simp) _ _) l

/-- A source's packet as it leaves for its queue. -/
def sourceSent (l : Nat) (z : Sourced) (stay : List Replica) (s : State) : State :=
  match stay with
  | [] => s
  | r :: _ =>
    if pinnedKind z.pkt then routeOrDrop l { r.pkt with hdr := { r.pkt.hdr with rte := activeBank s } } none true none s
    else pushVoq l z.pkt stay none true z.emit s

theorem sources_sourceSent (k : Nat) (z : Sourced) (stay : List Replica) :
    (getLanding (sourceSent k z stay s) l).sources = (getLanding s l).sources := by
  unfold sourceSent
  split
  · rfl
  · split
    · exact sources_routeOrDrop _ _ _ _ _
    · exact sources_pushVoq _ _ _ _ _ _

/-- A landing's sources without a packet. -/
def sourceTaken (l : Nat) (z : Sourced) (s : State) : State := modLanding l (fun x => { x with sources := x.sources.erase z }) s

theorem destTakes_sourceTaken (r : Replica) : destTakes (sourceTaken l z s) l r = destTakes s l r := rfl

theorem originSend_eq (ha : landingAwake s l = true) (hs : switchDue s = false) (hd : arrivalsDue s = false)
    (hz : nextSourced s l [] [] (getLanding s l).sources = some z) : exec (.originSend l) s =
      .next (settle (sourceSent l z (z.reps.filter (destTakes s l))
        (goneCounted l z (z.reps.filter (fun r => !destTakes s l r)) (sourceTaken l z s)))) := by
  change execOriginSend l s = _
  unfold execOriginSend
  dsimp only
  rw [if_pos (by simp [ha, hs, hd]), hz]
  change (match z.reps.filter (destTakes s l) with
    | [] => finish (goneCounted l z (z.reps.filter (fun r => !destTakes s l r)) (sourceTaken l z s))
    | r :: _ => _) = _
  unfold sourceSent
  split
  · rfl
  · split <;> rfl

theorem exists_originSend (ha : landingAwake s l = true) (hs : switchDue s = false) (hd : arrivalsDue s = false)
    (hz : nextSourced s l [] [] (getLanding s l).sources = some z) : ∃ t, exec (.originSend l) s = .next t ∧
      (getLanding t l).sources = (getLanding s l).sources.erase z ∧
      (z.reps ≠ [] → (∀ y ∈ z.reps, destTakes s l y = true) → pinnedKind z.pkt = false →
        ∃ e, (getLanding t l).voq = (getLanding s l).voq ++ [e] ∧ e.pkt = z.pkt ∧ e.reps = z.reps ∧ e.originated = true) := by
  have htaken : (getLanding (sourceTaken l z s) l).sources = (getLanding s l).sources.erase z ∧
      (getLanding (sourceTaken l z s) l).voq = (getLanding s l).voq := by
    rw [sourceTaken, getLanding_modLanding_same]
    exact ⟨rfl, rfl⟩
  refine ⟨_, originSend_eq ha hs hd hz, ?_, fun hne hall hpin => ?_⟩
  · rw [getLanding_settle, sources_sourceSent, getLanding_goneCounted]
    exact htaken.1
  · have hstay : z.reps.filter (destTakes s l) = z.reps := List.filter_eq_self.mpr hall
    have hgone : z.reps.filter (fun r => !destTakes s l r) = [] := List.filter_eq_nil_iff.mpr (fun y hy => by simp [hall y hy])
    obtain ⟨r, rs, hrs⟩ := List.exists_cons_of_ne_nil hne
    rw [getLanding_settle, hstay, hgone]
    have hsent : sourceSent l z z.reps (goneCounted l z [] (sourceTaken l z s)) = pushVoq l z.pkt z.reps none true z.emit (sourceTaken l z s) := by
      unfold sourceSent
      rw [hrs]
      dsimp only
      rw [hpin]
      rfl
    rw [hsent]
    unfold pushVoq pushNamed
    rw [getLanding_modLanding_same, ← htaken.2]
    exact ⟨_, rfl, rfl, rfl, rfl⟩

theorem originSend_of_none (h : nextSourced s l [] [] (getLanding s l).sources = none) : exec (.originSend l) s = .next (settle s) := by
  change execOriginSend l s = _
  unfold execOriginSend
  dsimp only
  rw [h, ite_self]
  rfl

/-- The event and the fault of a multicast that left its queue unsent, and what it counted for. -/
def residueNoted (l : Nat) (q : Queued) (h : Nat) (s : State) : State :=
  let ctx := (q.emit.map (fun e => e.rctx)).getD (longHdr q.pkt).ctx
  let chunk := (longHdr q.pkt).chunk
  let s := q.reps.foldl (fun s r => countResidue l r s) s
  let s := raiseEvent 0x0050 (some q.pkt.hdr.job)
    (le 1 (pktKind q.pkt) ++ zeros 1 ++ le 2 ctx ++ le 4 chunk ++ le 2 h ++ le 2 q.reps.length) s
  emissionsLeft q.emit q.reps.length (raiseFault 4 0 h (chunk + 2 ^ 32 * ctx) 0 s)

@[simp] theorem view_residueNoted {ps : List Part} (l : Nat) (q : Queued) (h : Nat) (s : State)
    (hp : [.fatal, .events, .eventSeq, .records, .purser, .accts, .rctxVals, .outbox] ⊆ ps) :
    view ps (residueNoted l q h s) = view ps s := by
  simp only [List.cons_subset, List.nil_subset, and_true] at hp
  unfold residueNoted
  simp [hp, view_foldl]

/-- The hawser that the event of a multicast's residue names, drawn where none is left (log entry 3). -/
def residueHawser (q : Queued) (s : State) : Nat × State :=
  let hs := q.reps.filterMap (fun r => match r.dest with
    | .hawser h => some h
    | .crossing _ _ _ | .slip _ => none)
  let f := fresh 9 s
  ((hs.min?).getD f.1.toNat, if hs.isEmpty then f.2 else s)

theorem view_residueHawser {ps : List Part} (q : Queued) (s : State)
    (hp : [.freeCount] ⊆ ps) : view ps (residueHawser q s).2 = view ps s := by
  unfold residueHawser
  dsimp only
  split
  · exact view_fresh _ _ hp
  · rfl

theorem exists_mcastResidue (hq : (getLanding s l).voq.find? (fun y => y.id == entry) = some q) (hr : q.residueAt = some t0)
    (ht : tideReached (t0 + 1) s.tide.count = true) : ∃ t, exec (.mcastResidue l entry) s = .next t ∧
      (getLanding t l).voq = (getLanding s l).voq.filter (fun y => y.id != entry) ∧ t.xings = s.xings ∧ t.net = s.net := by
  have he : exec (.mcastResidue l entry) s = .next (settle (residueNoted l q (residueHawser q s).1
      (modLanding l (fun x => { x with voq := x.voq.filter (fun k => k.id != entry) }) (residueHawser q s).2))) := by
    have ht' : tideReached (t0 + 1) (now s) = true := ht
    change execMcastResidue l entry s = _
    unfold execMcastResidue
    rw [hq]
    dsimp only
    rw [hr]
    dsimp only
    rw [ht']
    exact if_neg (by simp)
  have hu := view_residueHawser (ps := [.freeCount]) q s (by simp)
  generalize (residueHawser q s).1 = h at he
  generalize (residueHawser q s).2 = u at he hu
  have hland : getLanding u l = getLanding s l := getLanding_of_view (view_of_subset hu (by simp)) l
  refine ⟨_, he, ?_, ?_, ?_⟩
  · rw [getLanding_settle, getLanding_of_view (view_residueNoted _ _ _ _ (by simp)), getLanding_modLanding_same, hland]
  · have hx : (residueNoted l q h (modLanding l (fun x => { x with voq := x.voq.filter (fun k => k.id != entry) }) u)).xings = u.xings :=
      xings_of_view (by simp)
    exact hx.trans (xings_of_view (view_of_subset hu (by simp)))
  · have hn : (residueNoted l q h (modLanding l (fun x => { x with voq := x.voq.filter (fun k => k.id != entry) }) u)).net = u.net :=
      net_of_view (by simp)
    exact hn.trans (net_of_view (view_of_subset hu (by simp)))

end

/-- Settles O52. -/
theorem transportSends : Obligations.transport_sends := by
  unfold Obligations.transport_sends
  intro s x lane l entry q r c z t0
  refine ⟨fun hx hst hl hn ha hs hw hc hr => exists_crossingSend hx hst hl hn ha hs hw hc hr,
    fun hx ht hst hc hr => exists_retransmit hx ht.1 hst hc hr, fun hx ht hst hc hr => exists_retransmit_down hx ht.1 hst hc hr,
    exists_originSend, originSend_of_none, exists_mcastResidue⟩

end Sys2Proof.Proofs

/-!
Where each kind of packet goes (O53).
-/
namespace Sys2Proof.Proofs
open Sys2Proof Sys2Proof.Machine Sys2Proof.Laws

section
variable {s s' : State} {a : Arrival} {h m : Nat}

/-- The network state but for what members asked for. -/
theorem net_of_view_asked {t u : State} (h : view (others [.net, .told, .svcChanged]) t = view (others [.net, .told, .svcChanged]) u) :
    t.net = { u.net with asked := t.net.asked } := by
  have hv (u : State) : (view (others [.net, .told, .svcChanged]) u).net = { u.net with asked := [] } := by simp [view, viewNet]
  have hn : ({ t.net with asked := [] } : Net) = { u.net with asked := [] } := by rw [← hv t, h, hv]
  exact congrArg (fun n : Net => { n with asked := t.net.asked }) hn

/-! ### Where a packet goes -/

/-- A kind that is routed, or handed up to a consumer: neither a tide message nor one of a crossing's own. -/
abbrev RoutedKind (k : Nat) : Prop := knownKind k = true ∧ k ≠ 0x0B ∧ k ≠ 0x0C ∧ k ≠ 0x0D

theorem peerEgress_of_plain (hk : RoutedKind (pktKind a.pkt)) (hx : a.pkt.hdr.xing = false) : peerEgress a s = deliver a.pkt s := by
  obtain ⟨_, _, hC, hD⟩ := hk
  unfold peerEgress
  rw [hx]
  generalize pktKind a.pkt = k at hC hD
  split
  · exact absurd rfl hC
  · exact absurd rfl hD
  · rfl
  case h_4 he => cases he

theorem peerEgress_of_xing (hk : RoutedKind (pktKind a.pkt)) (hx : a.pkt.hdr.xing = true) {x : Crossing} (hf : xingOf s a.pkt = some x)
    (hst : x.state = .opened) (hi : a.pkt.hdr.inc = getInc s x.landing x.peer x.peerLanding) : peerEgress a s = receiveXing x a s := by
  obtain ⟨_, _, hC, hD⟩ := hk
  have hacc : xingAccepts a.pkt s = .ok x := by simp [xingAccepts, hf, hst, hi]
  unfold peerEgress
  rw [hx, hacc]
  generalize pktKind a.pkt = k at hC hD
  split
  · exact absurd rfl hC
  · exact absurd rfl hD
  case h_3 he => cases he
  · rfl

theorem actOn_member (hk : knownKind (pktKind a.pkt) = true) (hp : fromPeer s a = false) : actOn a s = memberIngress a s := by
  unfold actOn
  rw [hk, hp, if_neg (by simp), if_pos (by simp)]

theorem actOn_hops (hk : knownKind (pktKind a.pkt) = true) (hp : fromPeer s a = true) (hh : 2048 ≤ a.pkt.hdr.hops) :
    actOn a s = countLanding (homeLanding a.hawser) 2 s := by
  unfold actOn
  rw [hk, hp, if_neg (by simp), if_neg (by simp), if_pos hh]

theorem actOn_transit (hk : knownKind (pktKind a.pkt) = true) (hne : pktKind a.pkt ≠ 0x0B) (hp : fromPeer s a = true)
    (hh : a.pkt.hdr.hops < 2048) (he : a.pkt.hdr.egress ≠ ownAddr s) : actOn a s = transit a s := by
  unfold actOn
  rw [hk, hp, if_neg (by simp), if_neg (by simp), if_neg (Nat.not_le.mpr hh), if_neg hne, if_pos (by simpa using he)]

/-! ### Queues that a packet enters -/

/-- A packet enters a landing's queue for a hawser, as one that was received. -/
def Queues (s t : State) (l d : Nat) (p : Packet) : Prop :=
  ∃ e, (getLanding t l).voq = (getLanding s l).voq ++ [e] ∧ e.pkt = p ∧ e.originated = false ∧
    (∃ y, e.reps = [y] ∧ y.dest = .hawser d ∧ y.pkt = p) ∧ t.xings = s.xings ∧ t.hbm = s.hbm

theorem voq_pushVoq (u : State) (l : Nat) (p : Packet) (reps : List Replica) (slip : Option Nat) (o : Bool) (e : Option EmitTag) :
    ∃ i, (getLanding (pushVoq l p reps slip o e u) l).voq = (getLanding u l).voq ++
      [{ id := i, pkt := p, reps := reps, multicast := decide (1 < reps.length), residueAt := none, chargedSlip := slip, originated := o,
         emit := e, named := none }] := by
  unfold pushVoq pushNamed
  rw [getLanding_modLanding_same]
  exact ⟨_, rfl⟩

/-- A packet that passes on enters the queue of the hawser that its route picks. -/
theorem queues_transit (ha : Arrives a s s') (hb : (getBank s' a.pkt.hdr.rte).state ≠ .idle)
    (hr : pickRoute s' (homeLanding a.hawser) a.pkt (some (hawserOf s' a.slip)) = some h) :
    Queues s (transit a s') (homeLanding a.hawser) h a.pkt ∧ (transit a s').net = s.net := by
  have ht : transit a s' = pushVoq (homeLanding a.hawser) a.pkt [{ dest := .hawser h, pkt := a.pkt, follow := none }] (some a.slip) false none s' := by
    unfold transit routeOrDrop
    rw [if_neg hb, Option.map_some, hr]
    rfl
  have hxings : (transit a s').xings = s.xings := by
    rw [ht, ← xings_of_arrives ha]
    exact xings_of_view (view_pushVoq _ _ _ _ _ _ _ (by simp))
  have hhbm : (transit a s').hbm = s.hbm := by
    rw [ht]
    exact (hbm_of_view (view_pushVoq _ _ _ _ _ _ _ (by simp))).trans (hbm_of_view (view_of_arrives ha (by simp)))
  have hnet : (transit a s').net = s.net := by
    rw [ht, ← net_of_arrives ha]
    exact net_of_view (view_pushVoq _ _ _ _ _ _ _ (by simp))
  obtain ⟨i, hi⟩ := voq_pushVoq s' (homeLanding a.hawser) a.pkt [{ dest := .hawser h, pkt := a.pkt, follow := none }] (some a.slip) false none
  rw [← ht, voq_of_arrives ha] at hi
  exact ⟨⟨_, hi, rfl, rfl, ⟨_, rfl, rfl, rfl⟩, hxings, hhbm⟩, hnet⟩

/-- A member's packet as it is named for the member, where it answers a request of its. -/
def memberPacket (m : Nat) (p : Packet) (s : State) : Packet := if pktKind p = 0x47 then nameReply m p s else p

/-- What a packet for a member finds as it enters the queue: the request it answers noted or closed, the landing that follows it drawn up. -/
def memberNoted (m : Nat) (p : Packet) (reply : Bool) (s : State) : Option Packet × State :=
  let s := if reply then noteReply m p s else s
  let f := landingAfter m p s
  (f.1, if reply then closeReply m p f.2 else f.2)

theorem view_memberNoted {ps : List Part} (m : Nat) (p : Packet) (reply : Bool) (s : State) (hp : [.asked, .freeCount] ⊆ ps) :
    view ps (memberNoted m p reply s).2 = view ps s := by
  simp only [List.cons_subset, List.nil_subset, and_true] at hp
  cases reply <;> simp [memberNoted, hp]

theorem deliverMember_eq (p : Packet) (s : State) (hs : slipsUp s m ≠ []) : deliverMember m p s =
    sendDone stOk (memberPacket m p s) (pushVoq (homeLanding m) (memberPacket m p s)
      [{ dest := .hawser m, pkt := memberPacket m p s, follow := (memberNoted m (memberPacket m p s) (pktKind p == 0x47) s).1 }] none false none
      (memberNoted m (memberPacket m p s) (pktKind p == 0x47) s).2) := by
  have hp : (if (pktKind p == 0x47) = true then nameReply m p s else p) = memberPacket m p s := by
    simp [memberPacket]
  have he : (slipsUp s m).isEmpty = false := List.isEmpty_eq_false_iff.mpr hs
  unfold deliverMember
  dsimp only
  rw [he, if_neg Bool.false_ne_true, hp]
  rfl

theorem queues_deliver (ha : Arrives a s s') (hd : localHawser s' a.pkt.hdr.dst = some m) (hs : slipsUp s' m ≠ []) :
    Queues s (deliver a.pkt s') (homeLanding m) m (memberPacket m a.pkt s') ∧
      (deliver a.pkt s').net = { s.net with asked := (deliver a.pkt s').net.asked } := by
  have ht : deliver a.pkt s' = deliverMember m a.pkt s' := by
    unfold deliver
    rw [hd]
  have hx : (deliver a.pkt s').xings = s.xings := by
    rw [ht, ← xings_of_arrives ha]
    exact xings_of_view (view_deliverMember _ _ _ (by simp))
  have hhbm : (deliver a.pkt s').hbm = s.hbm := by
    rw [ht]
    exact (hbm_of_view (view_deliverMember _ _ _ (by simp))).trans (hbm_of_view (view_of_arrives ha (by simp)))
  have hnet : (deliver a.pkt s').net = { s.net with asked := (deliver a.pkt s').net.asked } := by
    rw [ht, ← net_of_arrives ha]
    exact net_of_view_asked (view_deliverMember _ _ _ (by simp))
  have hv := view_memberNoted m (memberPacket m a.pkt s') (pktKind a.pkt == 0x47) s' (ps := [.asked, .freeCount]) (by simp)
  have hland := getLanding_of_view (view_of_subset hv (by simp)) (homeLanding m)
  obtain ⟨i, hi⟩ := voq_pushVoq (memberNoted m (memberPacket m a.pkt s') (pktKind a.pkt == 0x47) s').2 (homeLanding m)
    (memberPacket m a.pkt s')
    [{ dest := .hawser m, pkt := memberPacket m a.pkt s', follow := (memberNoted m (memberPacket m a.pkt s') (pktKind a.pkt == 0x47) s').1 }] none false none
  rw [hland, voq_of_arrives ha, ← voq_sendDone _ _ stOk (memberPacket m a.pkt s'), ← deliverMember_eq a.pkt s' hs, ← ht] at hi
  exact ⟨⟨_, hi, rfl, rfl, ⟨_, rfl, rfl, rfl⟩, hx, hhbm⟩, hnet⟩

/-! ### The rows of a kind -/

theorem passes_of_routed {c : Instr} (ha : Arrives a s s') (hc : exec c s = .next (settle (actOn a s'))) (hk : knownKind (pktKind a.pkt) = true)
    (hne : pktKind a.pkt ≠ 0x0B) (hp : fromPeer s' a = true) (hh : a.pkt.hdr.hops < 2048) (he : a.pkt.hdr.egress ≠ ownAddr s')
    (hb : (getBank s' a.pkt.hdr.rte).state ≠ .idle)
    (hr : pickRoute s' (homeLanding a.hawser) a.pkt (some (hawserOf s' a.slip)) = some h) :
    ∃ t, exec c s = .next t ∧ Queues s t (homeLanding a.hawser) h a.pkt ∧ t.net = s.net := by
  obtain ⟨hq, hn⟩ := queues_transit ha hb hr
  rw [actOn_transit hk hne hp hh he] at hc
  generalize transit a s' = u at hc hq hn
  exact ⟨_, hc, hq, hn⟩

/-- What becomes of a packet of a kind, by where it came from and where it is bound. -/
theorem arrival_goes {n : Nat} {c : Instr} (ha : Arrives a s s') (hkind : pktKind a.pkt = n) (hn : RoutedKind n)
    (hc : exec c s = .next (settle (arrival [n] a s))) :
    ((fromPeer s' a = true ∧ a.pkt.hdr.hops < 2048) ∧ a.pkt.hdr.egress ≠ ownAddr s' ∧ (getBank s' a.pkt.hdr.rte).state ≠ .idle ∧
        pickRoute s' (homeLanding a.hawser) a.pkt (some (hawserOf s' a.slip)) = some h →
      ∃ t, exec c s = .next t ∧ Queues s t (homeLanding a.hawser) h a.pkt ∧ t.net = s.net) ∧
    ((fromPeer s' a = true ∧ a.pkt.hdr.hops < 2048) ∧ a.pkt.hdr.egress = ownAddr s' → a.pkt.hdr.xing = false →
      localHawser s' a.pkt.hdr.dst = some m → slipsUp s' m ≠ [] → ∃ t, exec c s = .next t ∧
        Queues s t (homeLanding m) m (if n = 0x47 then nameReply m a.pkt s' else a.pkt) ∧ t.net = { s.net with asked := t.net.asked }) ∧
    ((fromPeer s' a = true ∧ a.pkt.hdr.hops < 2048) ∧ a.pkt.hdr.egress = ownAddr s' → a.pkt.hdr.xing = false →
      exec c s = .next (settle (deliver a.pkt s'))) ∧
    ((fromPeer s' a = true ∧ a.pkt.hdr.hops < 2048) ∧ a.pkt.hdr.egress = ownAddr s' → a.pkt.hdr.xing = true →
      ∀ x, xingOf s' a.pkt = some x → x.state = .opened → a.pkt.hdr.inc = getInc s' x.landing x.peer x.peerLanding →
        exec c s = .next (settle (receiveXing x a s'))) ∧
    (fromPeer s' a = true → 2048 ≤ a.pkt.hdr.hops → exec c s = .next (settle (countLanding (homeLanding a.hawser) 2 s'))) ∧
    (fromPeer s' a = false → exec c s = .next (settle (memberIngress a s'))) := by
  subst hkind
  obtain ⟨hknown, hB, hC, hD⟩ := hn
  have hc' : exec c s = .next (settle (actOn a s')) := by rw [hc, arrival_of_arrives ha (by simp)]
  have hdeliver (hp : (fromPeer s' a = true ∧ a.pkt.hdr.hops < 2048) ∧ a.pkt.hdr.egress = ownAddr s') (hx : a.pkt.hdr.xing = false) :
      exec c s = .next (settle (deliver a.pkt s')) := by
    rw [hc', actOn_peer hknown hB hp.1.1 hp.1.2 hp.2, peerEgress_of_plain ⟨hknown, hB, hC, hD⟩ hx]
  refine ⟨fun hr => ?_, fun hp hx hd hs => ?_, hdeliver, fun hp hx x hf hst hi => ?_, fun hp hh => ?_, fun hp => ?_⟩
  · obtain ⟨⟨hp, hh⟩, he, hb, hroute⟩ := hr
    exact passes_of_routed ha hc' hknown hB hp hh he hb hroute
  · obtain ⟨hq, hnet⟩ := queues_deliver ha hd hs
    have hx' := hdeliver hp hx
    generalize deliver a.pkt s' = u at hx' hq hnet
    exact ⟨_, hx', hq, hnet⟩
  · rw [hc', actOn_peer hknown hB hp.1.1 hp.1.2 hp.2, peerEgress_of_xing ⟨hknown, hB, hC, hD⟩ hx hf hst hi]
  · rw [hc', actOn_hops hknown hp hh]
  · rw [hc', actOn_member hknown hp]

theorem transitPacket_passes (ha : Arrives a s s') (hk : knownKind (pktKind a.pkt) = true) (hne : pktKind a.pkt ≠ 0x0B)
    (hr : (fromPeer s' a = true ∧ a.pkt.hdr.hops < 2048) ∧ a.pkt.hdr.egress ≠ ownAddr s' ∧ (getBank s' a.pkt.hdr.rte).state ≠ .idle ∧
      pickRoute s' (homeLanding a.hawser) a.pkt (some (hawserOf s' a.slip)) = some h) :
    ∃ t, exec (.transitPacket a) s = .next t ∧ Queues s t (homeLanding a.hawser) h a.pkt ∧ t.net = s.net := by
  obtain ⟨⟨hp, hh⟩, he, hb, hroute⟩ := hr
  refine passes_of_routed ha ?_ hk hne hp hh he hb hroute
  have hg : (fromPeer s a && a.pkt.hdr.egress != ownAddr s && knownKind (pktKind a.pkt) && pktKind a.pkt != 0x0B) = true := by
    rw [← fromPeer_of_arrives ha, ← ownAddr_of_arrives ha]
    simp [hp, he, hk, hne]
  exact (if_pos hg).trans (congrArg finish (receive_of_arrives ha _))

theorem exists_unknownPacket (ha : Arrives a s s') (hk : knownKind (pktKind a.pkt) = false) :
    ∃ t, exec (.unknownPacket a) s = .next t ∧ t = settle (countLanding (homeLanding a.hawser) 0 s') ∧
      (∀ l, (getLanding t l).voq = (getLanding s l).voq) ∧ t.xings = s.xings ∧ t.net = s.net ∧ t.hbm = s.hbm := by
  have htide : tideRow s a = false := by
    unfold tideRow
    cases hb : a.pkt.body with
    | tide m =>
      rw [pktKind, hb] at hk
      exact absurd hk (by simp [bodyKind, knownKind])
    | _ => simp
  have hact : receive a (actOn a) s = countLanding (homeLanding a.hawser) 0 s' := by
    rw [receive_of_arrives ha]
    unfold actOn
    rw [hk]
    rfl
  have hx : exec (.unknownPacket a) s = .next (settle (countLanding (homeLanding a.hawser) 0 s')) := by
    refine (if_pos (by simp [hk, htide])).trans (congrArg finish hact)
  have hxings : (countLanding (homeLanding a.hawser) 0 s').xings = s.xings :=
    (xings_of_view (view_countLanding _ _ _ (by simp))).trans (xings_of_arrives ha)
  have hnet : (countLanding (homeLanding a.hawser) 0 s').net = s.net :=
    (net_of_view (view_countLanding _ _ _ (by simp))).trans (net_of_arrives ha)
  have hhbm : (countLanding (homeLanding a.hawser) 0 s').hbm = s.hbm :=
    (hbm_of_view (view_countLanding _ _ _ (by simp))).trans (hbm_of_view (view_of_arrives ha (by simp)))
  exact ⟨_, hx, rfl, fun l => by rw [getLanding_settle, getLanding_countLanding, voq_of_arrives ha], hxings, hnet, hhbm⟩

end

/-- Settles O53. -/
theorem packetsArrive : Obligations.packets_arrive := by
  unfold Obligations.packets_arrive
  intro s s' a h m ha
  exact ⟨fun hk => arrival_goes ha hk (by decide) rfl, fun hk => arrival_goes ha hk (by decide) rfl,
    fun hk => arrival_goes ha hk (by decide) rfl, fun hk => arrival_goes ha hk (by decide) rfl,
    fun hk => arrival_goes ha hk (by decide) rfl, fun hk => arrival_goes ha hk (by decide) rfl,
    fun hk => arrival_goes ha hk (by decide) rfl, fun hk => arrival_goes ha hk (by decide) rfl,
    fun hk => arrival_goes ha hk (by decide) rfl, fun hk => arrival_goes ha hk (by decide) rfl,
    fun hk => arrival_goes ha hk (by decide) rfl, fun hk => arrival_goes ha hk (by decide) rfl,
    fun hk => arrival_goes ha hk (by decide) rfl, fun hk => arrival_goes ha hk (by decide) rfl,
    fun hk => arrival_goes ha hk (by decide) rfl, fun hk => arrival_goes ha hk (by decide) rfl,
    fun hk => arrival_goes ha hk (by decide) rfl, fun hk => arrival_goes ha hk (by decide) rfl,
    fun hk => arrival_goes ha hk (by decide) rfl, transitPacket_passes ha, exists_unknownPacket ha⟩

end Sys2Proof.Proofs

/-!
What a delivered packet does (O54).
-/
namespace Sys2Proof.Proofs
open Sys2Proof Sys2Proof.Machine Sys2Proof.Laws

section
variable {s s' : State} {a : Arrival} {h : Nat}

theorem localHawser_of_arrives (ha : Arrives a s s') (d : Nat) : localHawser s' d = localHawser s d := by
  unfold localHawser endpoint
  rw [net_of_arrives ha]

theorem slipsUp_of_arrives (ha : Arrives a s s') (n : Nat) : slipsUp s' n = slipsUp s n := by
  have hh : s'.hawsers = s.hawsers := hawsers_of_view (view_of_arrives ha (by simp))
  have hs (k : Nat) : getSlip s' k = getSlip s k := getSlip_of_view (view_of_arrives ha (by simp)) k
  unfold slipsUp
  rw [getHawser_of_hawsers hh]
  simp only [hs]

theorem rctxs_of_arrives (ha : Arrives a s s') : s'.rctxs = s.rctxs := rctxs_of_view (view_of_arrives ha (by simp))

theorem now_of_arrives (ha : Arrives a s s') : now s' = s.tide.count :=
  congrArg TideUnit.count (tide_of_view (view_of_arrives ha (by simp)))

/-- A packet that reaches this F384 from a peer, for itself, outside a crossing. -/
def Reaches (a : Arrival) (s s' : State) : Prop :=
  Arrives a s s' ∧ fromPeer s a = true ∧ a.pkt.hdr.hops < 2048 ∧ a.pkt.hdr.egress = ownAddr s ∧ a.pkt.hdr.xing = false

/-- What reaches this F384 is delivered. -/
theorem exec_of_reaches {n : Nat} {c : Instr} (hr : Reaches a s s') (hk : pktKind a.pkt = n) (hn : RoutedKind n)
    (hc : exec c s = .next (settle (arrival [n] a s))) : exec c s = .next (settle (deliver a.pkt s')) := by
  obtain ⟨ha, hp, hh, he, hx⟩ := hr
  obtain ⟨_, _, hdeliver, _⟩ := arrival_goes (h := 0) (m := 0) ha hk hn hc
  exact hdeliver ⟨⟨by rw [fromPeer_of_arrives ha, hp], hh⟩, by rw [ownAddr_of_arrives ha, he]⟩ hx

/-- A packet that is for no member is for the F384 itself. -/
theorem deliver_of_none (ha : Arrives a s s') (hl : localHawser s a.pkt.hdr.dst = none) : deliver a.pkt s' = consume a.pkt s' := by
  unfold deliver
  rw [localHawser_of_arrives ha, hl]

theorem exec_consumes {n : Nat} {c : Instr} (hr : Reaches a s s') (hl : localHawser s a.pkt.hdr.dst = none) (hk : pktKind a.pkt = n)
    (hn : RoutedKind n) (hc : exec c s = .next (settle (arrival [n] a s))) : exec c s = .next (settle (consume a.pkt s')) := by
  rw [exec_of_reaches hr hk hn hc, deliver_of_none hr.1 hl]

/-- A WRITE for a local member enters the queue of its hawser. -/
theorem exists_write (hr : Reaches a s s') (hl : localHawser s a.pkt.hdr.dst = some h) (hs : slipsUp s h ≠ [])
    (hk : pktKind a.pkt = 0x40) (hlast : a.pkt.hdr.last = false) : ∃ t e,
      exec (.write a) s = .next t ∧ (getLanding t (homeLanding h)).voq = (getLanding s (homeLanding h)).voq ++ [e] ∧ e.pkt = a.pkt ∧
        (∃ y, e.reps = [y] ∧ y.dest = .hawser h ∧ y.pkt = a.pkt ∧ y.follow = none) ∧ t.net = s.net ∧ t.hbm = s.hbm := by
  have ha := hr.1
  have hdone (u : State) : sendDone stOk a.pkt u = u := if_pos (by simp [wantsDone, hlast])
  have hmember : memberPacket h a.pkt s' = a.pkt := if_neg (by rw [hk]; decide)
  have hnoted : memberNoted h a.pkt (pktKind a.pkt == 0x47) s' = (none, s') := by
    rw [hk]
    simp [memberNoted, landingAfter, hlast]
  have hdel : deliver a.pkt s' = pushVoq (homeLanding h) a.pkt [{ dest := .hawser h, pkt := a.pkt, follow := none }] none false none s' := by
    unfold deliver
    rw [localHawser_of_arrives ha, hl]
    dsimp only
    rw [deliverMember_eq a.pkt s' (by rw [slipsUp_of_arrives ha]; exact hs), hmember, hnoted, hdone]
  have hx := exec_of_reaches (c := .write a) hr hk (by decide) rfl
  rw [hdel] at hx
  obtain ⟨i, hi⟩ := voq_pushVoq s' (homeLanding h) a.pkt [{ dest := .hawser h, pkt := a.pkt, follow := none }] none false none
  rw [voq_of_arrives ha] at hi
  have hnet : (pushVoq (homeLanding h) a.pkt [{ dest := .hawser h, pkt := a.pkt, follow := none }] none false none s').net = s.net := by
    rw [← net_of_arrives ha]
    exact net_of_view (view_pushVoq _ _ _ _ _ _ _ (by simp))
  have hhbm : (pushVoq (homeLanding h) a.pkt [{ dest := .hawser h, pkt := a.pkt, follow := none }] none false none s').hbm = s.hbm :=
    (hbm_of_view (view_pushVoq _ _ _ _ _ _ _ (by simp))).trans (hbm_of_view (view_of_arrives ha (by simp)))
  exact ⟨_, _, hx, hi, rfl, ⟨_, rfl, rfl, rfl, rfl⟩, hnet, hhbm⟩

end

/-! ### What takes each kind -/

section
variable {s : State} {p : Packet}

theorem consume_credit (h : pktKind p = 0x02) : consume p s = takeCredit p s := by
  unfold consume
  rw [h]
  rfl

theorem consume_resend (h : pktKind p = 0x03) : consume p s = takeResend p s := by
  unfold consume
  rw [h]
  rfl

theorem consume_status (h : pktKind p = 0x04) : consume p s = takeStatus p s := by
  unfold consume
  rw [h]
  rfl

theorem consume_gatherReq (h : pktKind p = 0x05) : consume p s = takeGatherReq .peer p s := by
  unfold consume
  rw [h]
  rfl

theorem consume_ringStop (h : pktKind p = 0x0A) : consume p s = takeRingStop p s := by
  unfold consume
  rw [h]
  rfl

theorem consume_trailer (h : pktKind p = 0x43) : consume p s = takeContribution .peer p s := by
  unfold consume
  rw [h]
  rfl

theorem consume_pdesc (h : pktKind p = 0x44) : consume p s = takeContribution .peer p s := by
  unfold consume
  rw [h]
  rfl

theorem consume_pdata (h : pktKind p = 0x45) : consume p s = takeContribution .peer p s := by
  unfold consume
  rw [h]
  rfl

theorem consume_result (h : pktKind p = 0x46) : consume p s = takeResult p s := by
  unfold consume
  rw [h]
  rfl

theorem consume_gather (h : pktKind p = 0x47) : consume p s = takeGather p s := by
  unfold consume
  rw [h]
  rfl

theorem consume_beacon (h : pktKind p = 0x48) : consume p s = takeBeacon p s := by
  unfold consume
  rw [h]
  rfl

theorem consume_norm (h : pktKind p = 0x49) : consume p s = takeNorm p s := by
  unfold consume
  rw [h]
  rfl

theorem consume_move (h : pktKind p = 0x4A) : consume p s = takeMove p s := by
  unfold consume
  rw [h]
  rfl

/-- Element data of a partial fit no member's slot. -/
theorem member_of_shapeOk {r : Rctx} {o : Operation} {chunk : Nat} {member : Bool} (hk : pktKind p = 0x45)
    (h : shapeOk r o chunk member p = true) : member = false := by
  unfold shapeOk at h
  rw [hk] at h
  cases member with
  | false => rfl
  | true => cases h

end

/-! ### CREDIT -/

section
variable {s : State} {c : Nat}

theorem tabGet?_foldl_tabPut {α : Type} (v : α) (ks : List Nat) (t : Tab α) {i : Nat} (h : i ∈ ks ∨ tabGet? t i = some v) :
    tabGet? (ks.foldl (fun t k => tabPut t k v) t) i = some v := by
  induction ks generalizing t with
  | nil => exact h.resolve_left (by simp)
  | cons k ks ih =>
    refine ih _ ?_
    by_cases hk : i = k
    · exact .inr (by rw [hk, tabGet?_tabPut_same])
    · exact h.imp (fun h => (List.mem_cons.mp h).resolve_left hk) (fun h => by rw [tabGet?_tabPut_ne _ _ hk, h])

theorem credits_of_standing {a b : Rctx} (h : standing a = standing b) : a.credits = b.credits := congrArg (fun x => x.2.2.2.2) h

theorem rctxGet_credits_putPosition (k q : Nat) (p : Position) : rctxGet Rctx.credits c (putPosition k q p s) = rctxGet Rctx.credits c s := by
  unfold putPosition
  refine (rctxGet_modRctx Rctx.credits c _ k _ ?_).trans ?_
  · exact fun r _ => (credits_of_standing (standing_closeIfDue { r with positions := tabPut r.positions q p }) :)
  split
  · exact rctxGet_of_rctxs _ _ _ (rctxs_of_view (view_foldReason _ _ _ (by simp)))
  · rfl

theorem rctxGet_credits_sendAgain (k q : Nat) : rctxGet Rctx.credits c (sendAgain k q s) = rctxGet Rctx.credits c s := by
  unfold sendAgain
  split
  · exact rctxGet_modRctx _ _ _ _ _ (fun _ _ => rfl)
  · exact rctxGet_of_rctxs _ _ _ (rctxs_of_view (view_forwardPartial _ _ _ _ (by simp)))

theorem rctxGet_credits_resendRefused (k : Nat) : rctxGet Rctx.credits c (resendRefused k s) = rctxGet Rctx.credits c s := by
  unfold resendRefused
  split
  · rfl
  · refine foldl_keeps _ (rctxGet Rctx.credits c) (fun s p => ?_) _ _
    rw [rctxGet_credits_sendAgain, rctxGet_credits_putPosition]

theorem rctxGet_credits_releasePosition (k q : Nat) : rctxGet Rctx.credits c (releasePosition k q s) = rctxGet Rctx.credits c s := by
  unfold releasePosition
  split
  · rfl
  · split
    · rfl
    · dsimp only
      have hstay (u : State) : rctxGet Rctx.credits c (advanceWindow k u) = rctxGet Rctx.credits c u :=
        rctxGet_advanceWindow c u (fun _ _ _ => rfl) k
          (fun r n => credits_of_standing ((standing_retireOps _).trans (standing_advanceBase n r)))
      rw [hstay]
      exact rctxGet_modRctx _ _ _ _ _ (fun _ _ => rfl)

theorem rctxGet_credits_releaseCredited (k : Nat) : rctxGet Rctx.credits c (releaseCredited k s) = rctxGet Rctx.credits c s := by
  unfold releaseCredited
  split
  · rfl
  · exact foldl_keeps _ (rctxGet Rctx.credits c) (fun s (p : Nat × Position) => rctxGet_credits_releasePosition k p.1) _ _

/-- A CREDIT sets the limit and base of its residues (R55). -/
theorem exists_takeCredit {p : Packet} {num chunk bnum bchunk : Nat} {r : Rctx} {cr : Credit}
    (hcr : cr = { limOp := num, limChunk := chunk, baseOp := bnum, baseChunk := bchunk }) (hb : p.body = .credit c num chunk bnum bchunk)
    (hr : tabGet? s.rctxs c = some r) (hj : r.d.job = p.hdr.job) (hne : creditResidues r.d p.hdr.src cr ≠ []) :
    ∃ r', tabGet? (takeCredit p s).rctxs c = some r' ∧ ∀ i ∈ creditResidues r.d p.hdr.src cr, tabGet? r'.credits i = some cr := by
  have htake : takeCredit p s = releaseCredited c (resendRefused c (modRctx c (fun r' =>
      { r' with credits := (creditResidues r.d p.hdr.src cr).foldl (fun t i => tabPut t i cr) r'.credits }) s)) := by
    have he : (creditResidues r.d p.hdr.src cr).isEmpty = false := List.isEmpty_eq_false_iff.mpr hne
    unfold takeCredit
    rw [hb]
    dsimp only
    rw [hr]
    dsimp only
    rw [if_pos hj, ← hcr, he]
    rfl
  obtain ⟨r', hr', hc⟩ := exists_of_rctxGet Rctx.credits c _ ((rctxGet_credits_releaseCredited (c := c) c).trans
    ((rctxGet_credits_resendRefused (c := c) c).trans (rctxGet_of_get Rctx.credits c _ (rctx_modRctx_of_get hr (fun r' =>
      { r' with credits := (creditResidues r.d p.hdr.src cr).foldl (fun t i => tabPut t i cr) r'.credits })))))
  exact ⟨r', htake ▸ hr', fun i hi => hc ▸ tabGet?_foldl_tabPut cr _ _ (.inl hi)⟩

/-! ### RING_STOP -/

theorem exists_takeRingStop {p : Packet} {origin : Nat} {r : Rctx} (hb : p.body = .ringStop c origin) (hr : tabGet? s.rctxs c = some r)
    (hrole : r.d.role = 4) (hj : r.d.job = p.hdr.job) :
    ∃ r', tabGet? (takeRingStop p s).rctxs c = some r' ∧ r'.state = .stopped ∧ r'.d = r.d := by
  have hstop (slot chunk opNum o cause : Nat) (u : State) (hu : tabGet? u.rctxs c = some r) :
      ∃ r', tabGet? (stopRctx c slot chunk opNum o cause u).rctxs c = some r' ∧ r'.state = .stopped ∧ r'.d = r.d := by
    by_cases hst : r.state = .stopped
    · refine ⟨r, ?_, hst, rfl⟩
      unfold stopRctx
      rw [hu]
      dsimp only
      rw [if_pos hst, hu]
    · obtain ⟨acct, hacct⟩ := exists_stopRctx hu hst slot chunk opNum o cause
      exact ⟨_, hacct, rfl, rfl⟩
  obtain ⟨r', hr', hst, hd⟩ : ∃ r', tabGet? (stopUnnamed c origin 1 s).rctxs c = some r' ∧ r'.state = .stopped ∧ r'.d = r.d :=
    hstop _ _ _ _ _ _ hr
  refine ⟨r', ?_, hst, hd⟩
  unfold takeRingStop
  rw [hb]
  dsimp only
  rw [hr]
  dsimp only
  rw [if_pos (by simp [hrole, hj])]
  split
  · exact hr'
  · rw [rctxs_of_view (view_sendRingStop _ _ _ (by simp))]
    exact hr'

/-! ### Element data of a partial -/

/-- The staging of element data puts them with their slot's contribution (R58). -/
theorem exists_stagePacket {p : Packet} {q slot : Nat} {r : Rctx} {o : Operation} {pos : Position} (hr : tabGet? s.rctxs c = some r)
    (hpos : pos = (tabGet? r.positions q).getD (Position.openAt (now s) (longHdr p).opNum (longHdr p).chunk)) (hk : pktKind p = 0x45)
    (hm : decide (slot < r.d.m) = false) (hchecks : checksStep r = false)
    (hvals : ∀ x, tabGet? pos.contribs slot = some x → presentValues pos + (x.desc.map (fun d => d.values)).getD 1 ≤ 65536) :
    ∃ r' pos' x, tabGet? (stagePacket c q slot o .peer p s).rctxs c = some r' ∧ tabGet? r'.positions q = some pos' ∧
      tabGet? pos'.contribs slot = some x ∧ tabGet? x.pkts (longHdr p).pkt = some (payloadOf p) ∧ pos'.op = pos.op ∧
      pos'.chunk = pos.chunk := by
  generalize hx0 : (tabGet? pos.contribs slot).getD (Contribution.empty (longHdr p).step p.hdr.epoch) = x0
  have hstage : x0.stage p = { x0 with pkts := tabPut x0.pkts (longHdr p).pkt (payloadOf p) } := by
    unfold Contribution.stage
    rw [hk]
    rfl
  have hput (k : Position) (x : Contribution) (hs : stagePacket c q slot o .peer p s = putPosition c q k s)
      (hkc : k.contribs = tabPut pos.contribs slot x) (hxp : x.pkts = tabPut x0.pkts (longHdr p).pkt (payloadOf p))
      (hop : k.op = pos.op) (hch : k.chunk = pos.chunk) : ∃ r' pos' x,
      tabGet? (stagePacket c q slot o .peer p s).rctxs c = some r' ∧ tabGet? r'.positions q = some pos' ∧
      tabGet? pos'.contribs slot = some x ∧ tabGet? x.pkts (longHdr p).pkt = some (payloadOf p) ∧ pos'.op = pos.op ∧
      pos'.chunk = pos.chunk := by
    obtain ⟨r', hr', hq, _⟩ := exists_putPosition hr q k
    exact ⟨r', k, x, hs ▸ hr', hq, by rw [hkc, tabGet?_tabPut_same], by rw [hxp, tabGet?_tabPut_same], hop, hch⟩
  have hopen : stagePacket c q slot o .peer p s =
      if contribWhole r (chunkElems r.d o (longHdr p).chunk) (decide (slot < r.d.m)) (x0.stage p) then
        putPosition c q (noteReady (now s) r { pos with
          contribs := tabPut pos.contribs slot { x0.stage p with present := true },
          step := if (presentSlots pos).isEmpty then (x0.stage p).step else pos.step,
          epoch := if (presentSlots pos).isEmpty then (x0.stage p).epoch else pos.epoch }) s
      else putPosition c q { pos with contribs := tabPut pos.contribs slot (x0.stage p) } s := by
    unfold stagePacket
    rw [hr]
    dsimp only
    rw [← hpos, hx0, if_neg (by rw [hk]; decide)]
    by_cases hw : contribWhole r (chunkElems r.d o (longHdr p).chunk) (decide (slot < r.d.m)) (x0.stage p) = true
    · have hfits : ¬ 65536 < presentValues pos + ((x0.stage p).desc.map (fun d => d.values)).getD 1 := by
        rw [hstage]
        cases hget : tabGet? pos.contribs slot with
        | some x =>
          have he : x0 = x := by rw [← hx0, hget]; rfl
          exact Nat.not_lt.mpr (he ▸ hvals x hget)
        | none =>
          have he : x0.desc = none := by rw [← hx0, hget]; rfl
          rw [hm, hstage] at hw
          simp [contribWhole, he] at hw
      rw [if_pos hw, if_pos hw, if_neg hfits, hchecks, if_neg (by simp)]
    · rw [if_neg hw, if_neg hw]
  rw [hopen] at hput ⊢
  split
  case isTrue hw =>
    rw [if_pos hw] at hput
    exact hput _ { x0.stage p with present := true } rfl rfl (by rw [hstage]) rfl rfl
  case isFalse hw =>
    rw [if_neg hw] at hput
    exact hput _ (x0.stage p) rfl rfl (by rw [hstage]) rfl rfl

/-- Element data that Table 03.11 does not refuse are staged. -/
theorem takeContribution_of_data {p : Packet} {slot : Nat} {r : Rctx} {o : Operation} {pos : Position}
    (hr : tabGet? s.rctxs (longHdr p).ctx = some r) (hst : r.state ≠ .stopped) (hslot : senderSlot r .peer p = some slot)
    (hen : slotEnabled r slot = true) (hrole : r.d.role ≠ 4) (hop : knownOp r (longHdr p).opNum = some o)
    (hin : chunkIn r.d o (longHdr p).chunk = true) (hbase : r.base ≤ positionOf r.d o (longHdr p).chunk)
    (hwin : positionOf r.d o (longHdr p).chunk < r.base + r.w) (hrel : positionOf r.d o (longHdr p).chunk ∉ r.released)
    (hpos : pos = (tabGet? r.positions (positionOf r.d o (longHdr p).chunk)).getD
      (Position.openAt (now s) (longHdr p).opNum (longHdr p).chunk))
    (hmiss : slot ∉ presentSlots pos) (hk : pktKind p = 0x45) (hfmt : formatOk r p = true) (hoctx : r.octx = none)
    (hchecks : checksStep r = false) (hshape : shapeOk r o (longHdr p).chunk (decide (slot < r.d.m)) p = true) :
    takeContribution .peer p s = stagePacket (longHdr p).ctx (positionOf r.d o (longHdr p).chunk) slot o .peer p s := by
  have hverdict : packetVerdict (linkedOctx s r) p = .accepted := by simp [packetVerdict, linkedOctx, hoctx]
  have habsent : ((tabGet? r.positions (positionOf r.d o (longHdr p).chunk)).map (fun y => (presentSlots y).contains slot)).getD false =
      false := by
    cases hget : tabGet? r.positions (positionOf r.d o (longHdr p).chunk) with
    | none => rfl
    | some y =>
      rw [hpos, hget] at hmiss
      simpa using hmiss
  have hjudge : judgeContribution (longHdr p).ctx (positionOf r.d o (longHdr p).chunk) slot o .peer p s =
      stagePacket (longHdr p).ctx (positionOf r.d o (longHdr p).chunk) slot o .peer p s := by
    unfold judgeContribution
    rw [hr]
    dsimp only
    rw [hfmt, hverdict, hchecks, hshape, if_neg (by simp), if_neg (by simp), if_neg (by simp), if_neg (by simp), if_neg (by simp)]
  unfold takeContribution
  dsimp only
  rw [hr]
  dsimp only
  rw [if_neg hst, hslot]
  dsimp only
  rw [if_neg (by simp [hen, hrole]), hk]
  simp only [Nat.reduceBEq, Bool.false_and, Bool.false_eq_true, if_false, hr, Option.getD_some, hop, hin, Bool.not_true,
    if_neg (Nat.not_le.mpr hwin), habsent, hjudge]
  rw [if_neg (by simp [hbase, hrel])]

end

/-- Settles O54. -/
theorem packetsTakeEffect : Obligations.packets_take_effect := by
  unfold Obligations.packets_take_effect
  intro s s' a h ctx num chunk bnum bchunk origin slot r o ha
  dsimp only
  intro hp hh he hx
  have hr : Reaches a s s' := ⟨ha, hp, hh, he, hx⟩
  have hget (c : Nat) : tabGet? s'.rctxs c = tabGet? s.rctxs c := by rw [rctxs_of_arrives ha]
  have hconsume {n : Nat} {c : Instr} {act : Packet → State → State} (hl : localHawser s a.pkt.hdr.dst = none) (hn : RoutedKind n)
      (hc : exec c s = .next (settle (arrival [n] a s))) (hact : pktKind a.pkt = n → consume a.pkt s' = act a.pkt s')
      (hk : pktKind a.pkt = n) : exec c s = .next (settle (act a.pkt s')) := by
    rw [exec_consumes hr hl hk hn hc, hact hk]
  refine ⟨fun hl => ?_, exists_write hr, fun hl hb hr' hj hne => ?_, fun hl hb hr' hrole hj => ?_, ?_⟩
  · exact ⟨hconsume hl (by decide) rfl consume_credit, hconsume hl (by decide) rfl consume_resend,
      hconsume hl (by decide) rfl consume_status, hconsume hl (by decide) rfl consume_gatherReq,
      hconsume hl (by decide) rfl consume_ringStop, hconsume hl (by decide) rfl consume_trailer,
      hconsume hl (by decide) rfl consume_pdesc, hconsume hl (by decide) rfl consume_pdata,
      hconsume hl (by decide) rfl consume_result, hconsume hl (by decide) rfl consume_gather,
      hconsume hl (by decide) rfl consume_beacon, hconsume hl (by decide) rfl consume_norm, hconsume hl (by decide) rfl consume_move⟩
  · have hk : pktKind a.pkt = 0x02 := by rw [pktKind, hb]; rfl
    obtain ⟨r', hr'', hc⟩ := exists_takeCredit rfl hb ((hget ctx).trans hr') hj hne
    exact ⟨_, r', hconsume (c := .credit a) hl (by decide) rfl consume_credit hk, hr'', hc⟩
  · have hk : pktKind a.pkt = 0x0A := by rw [pktKind, hb]; rfl
    obtain ⟨r', hr'', hst, hd⟩ := exists_takeRingStop hb ((hget ctx).trans hr') hrole hj
    exact ⟨_, r', hconsume (c := .ringStop a) hl (by decide) rfl consume_ringStop hk, hr'', hst, hd⟩
  · intro hl hk hr' hst hslot hen hrole hop hin hbase hwin hrel hmiss hvals hfmt hoctx hstepped hshape
    have hchecks : checksStep r = false := by simp [checksStep, stepPeriods, hoctx, hstepped]
    have hpartial : decide (slot < r.d.m) = false := member_of_shapeOk hk hshape
    rw [← now_of_arrives ha] at hmiss hvals ⊢
    have htake := takeContribution_of_data (s := s') ((hget _).trans hr') hst hslot hen hrole hop hin hbase hwin hrel rfl hmiss hk hfmt hoctx
      hchecks hshape
    obtain ⟨r', pos', x, h1, h2, h3, h4, h5, h6⟩ := exists_stagePacket (s := s') (slot := slot) (o := o) ((hget _).trans hr') rfl hk hpartial
      hchecks hvals
    rw [← htake] at h1
    exact ⟨_, r', pos', x, hconsume (c := .pdata a) hl (by decide) rfl consume_pdata hk, h1, h2, h3, h4, h5, h6⟩

end Sys2Proof.Proofs

/-!
Sweeps of an optimizer context: updates, gathers, records written and images digested (O57).
-/
namespace Sys2Proof.Proofs
open Sys2Proof Sys2Proof.Machine Sys2Proof.Laws

/-! ### What an optimizer context keeps -/

/-- Something that is read of an optimizer context. -/
def octxGet {α : Type} (g : Octx → α) (n : Nat) (s : State) : Option α := (tabGet? s.octxs n).map g

section
variable {α : Type} (g : Octx → α) (n : Nat) (s : State)

theorem octxGet_of_get {o : Octx} (h : tabGet? s.octxs n = some o) : octxGet g n s = some (g o) := by simp [octxGet, h]

theorem octxGet_of_octxs {t : State} (h : t.octxs = s.octxs) : octxGet g n t = octxGet g n s := by simp only [octxGet, h]

theorem octxGet_of_view {s t : State} (h : view (others [.octxs, .octxVals]) t = view (others [.octxs, .octxVals]) s)
    (hg : ∀ (o : Octx) a, g { o with acct := a } = g o) : octxGet g n t = octxGet g n s := by
  cases hx : tabGet? s.octxs n with
  | none => rw [octxGet, octxGet, octx_none_of_view h hx, hx]
  | some o =>
    obtain ⟨a, ha⟩ := octx_of_view h hx
    rw [octxGet, octxGet, ha, hx, Option.map_some, Option.map_some, hg]

theorem octxGet_modOctx (k : Nat) (f : Octx → Octx) (hf : ∀ o, g (f o) = g o) : octxGet g n (modOctx k f s) = octxGet g n s := by
  by_cases h : n = k
  · subst h
    rw [octxGet, octxGet, octx_modOctx_same, Option.map_map]
    exact congrArg (fun φ => Option.map φ _) (funext hf)
  · rw [octxGet, octxGet, octx_modOctx_ne _ _ _ h]

end

/-! ### The end of a write -/

section
variable {s : State} {n : Nat} {ps : List Part}

theorem fenceNow_of_octxGet (h : octxGet Octx.fence n s = some none) : fenceNow n s = s := by
  obtain ⟨o, ho, hf⟩ := Option.map_eq_some_iff.mp h
  exact fenceNow_of_none ho hf

/-- A commit's own changes of its context leave its fence. -/
theorem octxGet_fence_restart (f : Octx → Octx) (r : RecordIn) (c code : Nat) (job : Option Nat) (b : List Byte) (s : State)
    (hf : ∀ o, (f o).fence = o.fence) :
    octxGet Octx.fence n (raiseEvent code job b (restartAccount n c (queueRecord r (modOctx n f s)))) = octxGet Octx.fence n s := by
  rw [octxGet_of_view (s := restartAccount n c (queueRecord r (modOctx n f s))) _ _ (view_raiseEvent _ _ _ _ (by simp)) (fun _ _ => rfl)]
  have hrestart (u : State) : octxGet Octx.fence n (restartAccount n c u) = octxGet Octx.fence n u := by
    unfold restartAccount
    refine (octxGet_of_octxs _ _ _ (octxs_modRctx _ _ _)).trans (octxGet_modOctx Octx.fence n u n _ ?_)
    exact fun _ => rfl
  rw [hrestart, octxGet_of_octxs _ _ _ (octxs_queueRecord _ _)]
  exact octxGet_modOctx Octx.fence n s n f hf

/-- Without a fence, a commit writes no record. -/
theorem view_commitStep_unfenced {o : Octx} (ho : tabGet? s.octxs n = some o) (hf : o.fence = none)
    (hp : [.fatal, .qps, .evPort, .vectors, .aer, .events, .running, .eventSeq, .svcCmds, .records, .purser, .lands, .accts, .rctxVals,
      .octxVals, .deck, .stk, .audit, .freeCount, .outbox] ⊆ ps) : view ps (commitStep n s) = view ps s := by
  simp only [List.cons_subset, List.nil_subset, and_true] at hp
  unfold commitStep
  rw [ho]
  dsimp only
  split
  · rfl
  · rw [view_confirmIfHeld _ _ (by simp [hp])]
    have hif (b : Bool) (c : Nat) (u : State) : view ps (if b = true then recheckHeld c u else u) = view ps u := by
      cases b <;> simp [hp]
    rw [hif, fenceNow_of_octxGet]
    · rw [view_foldl _ (fun s i => by simp [hp])]
      split <;> simp [hp]
    · refine (foldl_keeps _ (octxGet Octx.fence n) (fun u i => octxGet_of_view _ _ (view_sendBeacon _ _ _ _ _ _ (by simp)) (fun _ _ => rfl))
        _ _).trans ?_
      have hstart : octxGet Octx.fence n s = some none := by rw [octxGet_of_get _ _ _ ho, hf]
      split
      · refine (octxGet_of_view _ _ (view_complete _ _ _ _ _ _ (by simp)) (fun _ _ => rfl)).trans ?_
        refine (octxGet_fence_restart _ _ _ _ _ _ s ?_).trans hstart
        exact fun _ => rfl
      · refine (octxGet_fence_restart _ _ _ _ _ _ s ?_).trans hstart
        exact fun _ => rfl

/-- What of a context decides whether its commit could write records: its state and its fence. -/
def commitFence (o : Octx) : OState × Option Fence := (o.state, o.fence)

theorem commitFence_sealIfWritten : octxGet commitFence n (sealIfWritten n s) = octxGet commitFence n s := by
  unfold sealIfWritten
  split
  · rfl
  · split
    · rfl
    · split
      · rfl
      · dsimp only
        refine (octxGet_of_octxs _ _ _ (octxs_modRctx _ _ _)).trans (octxGet_modOctx commitFence n s n _ ?_)
        exact fun _ => rfl

theorem commitFence_sendReady : octxGet commitFence n (sendReady n s) = octxGet commitFence n s := by
  unfold sendReady
  split
  · rfl
  · split
    · rfl
    · dsimp only
      refine (foldl_keeps _ (octxGet commitFence n) (fun u i => octxGet_of_view _ _ (view_sendBeacon _ _ _ _ _ _ (by simp)) (fun _ _ => rfl))
        _ _).trans (octxGet_modOctx commitFence n s n _ ?_)
      exact fun _ => rfl

/-- A context without a commit under way, or without a fence. -/
def Unfenced (n : Nat) (s : State) : Prop := ∀ x, octxGet commitFence n s = some x → x.1 ≠ .committing ∨ x.2 = none

theorem unfenced_of_octxGet {t : State} (h : octxGet commitFence n t = octxGet commitFence n s) (hs : Unfenced n s) : Unfenced n t :=
  fun x hx => hs x (h ▸ hx)

theorem view_tryCommit_unfenced (hs : Unfenced n s)
    (hp : [.fatal, .qps, .evPort, .vectors, .aer, .events, .running, .eventSeq, .svcCmds, .records, .purser, .lands, .accts, .rctxVals,
      .octxVals, .deck, .stk, .audit, .freeCount, .outbox] ⊆ ps) : view ps (tryCommit n s) = view ps s := by
  unfold tryCommit
  split
  · rfl
  case h_2 o ho =>
    split
    case isTrue hc =>
      simp only [Bool.and_eq_true, beq_iff_eq] at hc
      exact view_commitStep_unfenced ho ((hs _ (octxGet_of_get commitFence n s ho)).resolve_left (fun h => h hc.1.1)) hp
    · rfl

/-- A write that ends, of a context that is not under a fence's commit, writes nothing more. -/
theorem view_afterWrite_unfenced (hs : Unfenced n s)
    (hp : [.fatal, .qps, .evPort, .vectors, .aer, .events, .running, .eventSeq, .svcCmds, .records, .purser, .lands, .accts, .rctxVals,
      .octxVals, .deck, .stk, .audit, .freeCount, .outbox] ⊆ ps) : view ps (afterWrite n s) = view ps s := by
  have hp' := hp
  simp only [List.cons_subset, List.nil_subset, and_true] at hp'
  have hseal : view ps (sealIfWritten n s) = view ps s := by simp [hp']
  unfold afterWrite
  dsimp only
  split
  · exact hseal
  · split
    · rw [view_tryCommit_unfenced (unfenced_of_octxGet (commitFence_sendReady.trans commitFence_sealIfWritten) hs) hp,
        view_sendReady _ _ (by simp [hp']), hseal]
    · exact hseal

theorem exists_recordWriteDone {seg j : Nat} {w : RecordWrite}
    (hw : s.hbm.writes.find? (fun w => w.octx == n && w.seg == seg && w.chunk == j) = some w)
    (hs : ∀ o, tabGet? s.octxs n = some o → o.state ≠ .committing ∨ o.fence = none) : ∃ t, exec (.recordWriteDone n seg j) s = .next t ∧
      readBytes t w.addr w.bytes.length = w.bytes ∧
      (∀ a, a < w.addr ∨ w.addr + w.bytes.length ≤ a → readByte t a = readByte s a) ∧ t.hbm.writes = s.hbm.writes.erase w ∧
      (Memory.wf s.hbm.mem → Memory.wf t.hbm.mem) := by
  obtain ⟨u, hu⟩ : ∃ u, u = writeBytes w.addr w.bytes { s with hbm := { s.hbm with writes := s.hbm.writes.erase w } } := ⟨_, rfl⟩
  obtain ⟨v, hv⟩ : ∃ v, v = queueRow n seg j w.step (modChunk n seg j (fun c => { c with written := true })
    (modEntry n seg j w.step (fun e => { e with valid := true }) u)) := ⟨_, rfl⟩
  have hx : exec (.recordWriteDone n seg j) s = .next (settle (afterWrite n v)) := by
    change execRecordWriteDone n seg j s = _
    unfold execRecordWriteDone
    rw [hw, hv, hu]
    rfl
  have hfence : octxGet commitFence n v = octxGet commitFence n s := by
    have hmod (f : ChunkState → ChunkState) (y : State) : octxGet commitFence n (modChunk n seg j f y) = octxGet commitFence n y := by
      refine octxGet_modOctx commitFence n y n _ ?_
      exact fun _ => rfl
    rw [hv, octxGet_of_view _ _ (view_queueRow _ _ _ _ _ (by simp)) (fun _ _ => rfl), hmod]
    unfold modEntry
    rw [hmod, hu]
    rfl
  have hunf : Unfenced n v := unfenced_of_octxGet hfence (fun x hx => by
    obtain ⟨o, ho, rfl⟩ := Option.map_eq_some_iff.mp hx
    exact hs o ho)
  have hview {ps : List Part} (hp : [.fatal, .qps, .evPort, .vectors, .aer, .events, .running, .eventSeq, .svcCmds, .records, .purser,
      .lands, .accts, .rctxVals, .octxVals, .deck, .stk, .audit, .freeCount, .outbox] ⊆ ps) : view ps (afterWrite n v) = view ps u := by
    have hp' := hp
    simp only [List.cons_subset, List.nil_subset, and_true] at hp'
    rw [view_afterWrite_unfenced hunf hp, hv]
    simp [hp']
  have hbyte (a : Nat) : readByte (settle (afterWrite n v)) a = readByte u a := congrFun (readByte_of_view u (hview (by simp))) a
  have hwrites : (settle (afterWrite n v)).hbm.writes = u.hbm.writes := writes_of_view (hview (by simp))
  have hmem : (settle (afterWrite n v)).hbm.mem = u.hbm.mem := mem_of_view (hview (by simp))
  refine ⟨_, hx, ?_, fun a ha => ?_, ?_, fun hwf => ?_⟩
  · rw [show readBytes (settle (afterWrite n v)) w.addr w.bytes.length = readBytes u w.addr w.bytes.length from
      congrArg (fun f => List.map f _) (funext fun i => hbyte _), hu]
    exact readBytes_writeBytes _ _ _
  · rw [hbyte, hu, readByte_writeBytes, if_neg (by omega)]
    rfl
  · rw [hwrites, hu]
    rfl
  · rw [hmem, hu]
    exact wf_writeCells _ hwf _

end

/-! ### Images -/

section
variable {s : State} {n seg j : Nat} {im : Image}

/-- An image that is put in another's place stands where that one stood. -/
theorem mem_stagedImages_replaced {y : Image} (h : im ∈ stagedImages s) :
    y ∈ stagedImages (mapImages (fun x => if x = im then some y else some x) s) := by
  obtain ⟨l, hl, him⟩ := List.mem_flatten.mp h
  obtain ⟨k, hk, rfl⟩ := List.mem_map.mp hl
  refine List.mem_flatten.mpr ⟨_, List.mem_map.mpr ⟨_, List.mem_map.mpr ⟨k, hk, rfl⟩, rfl⟩, ?_⟩
  exact List.mem_filterMap.mpr ⟨im, him, if_pos rfl⟩

theorem stagedImages_of_view {t u : State} (h : view (others [.stk]) t = view (others [.stk]) u) : stagedImages t = stagedImages u := by
  rw [stagedImages, stagedImages, stk_of_view h]

/-- An image with its digest. -/
def digested (im : Image) : Image := { im with digest := sha3 (im.bytes ++ im.scales), complete := true }

/-- After an image's digest who waits is answered, or the version shows (R119): the images stay. -/
theorem imageDigestDone_eq (him : (stagedImages s).find? (fun y => y.octx == n && y.seg == seg && y.chunk == j && !y.complete) = some im) :
    ∃ v, exec (.imageDigestDone n seg j) s = .next (settle v) ∧ view [.lands, .accts, .rctxVals, .octxVals, .waits] v =
      view [.lands, .accts, .rctxVals, .octxVals, .waits] (mapImages (fun y => if y = im then some (digested im) else some y) s) := by
  change ∃ v, execImageDigestDone n seg j s = _ ∧ _
  unfold execImageDigestDone
  rw [him]
  dsimp only [digested]
  split
  · exact ⟨_, rfl, rfl⟩
  · split
    · exact ⟨_, rfl, by simp⟩
    · split
      · split
        · exact ⟨_, rfl, by simp [view_foldl]⟩
        · exact ⟨_, rfl, rfl⟩
      · exact ⟨_, rfl, by simp⟩

theorem exists_imageDigestDone
    (him : (stagedImages s).find? (fun y => y.octx == n && y.seg == seg && y.chunk == j && !y.complete) = some im) :
    ∃ t, exec (.imageDigestDone n seg j) s = .next t ∧ t.hbm.mem = s.hbm.mem ∧ digested im ∈ stagedImages t := by
  have hmem := mem_stagedImages_replaced (y := digested im) (List.mem_of_find?_eq_some him)
  obtain ⟨v, hx, hv⟩ := imageDigestDone_eq him
  have hm0 : (mapImages (fun y => if y = im then some (digested im) else some y) s).hbm.mem = s.hbm.mem := rfl
  generalize mapImages (fun y => if y = im then some (digested im) else some y) s = u at hv hmem hm0
  have hm : v.hbm.mem = u.hbm.mem := mem_of_view (view_of_subset hv (by simp))
  have hs : stagedImages v = stagedImages u := stagedImages_of_view (view_of_subset hv (by simp))
  exact ⟨_, hx, hm.trans hm0, show _ ∈ stagedImages v from hs ▸ hmem⟩

end

/-! ### Update and gather sweeps -/

section
variable {s : State} {e : Candidacy} {c q n seg j : Nat} {r : Rctx} {o : Octx} {p : Position} {op : Operation}

/-- A chunk's update once its values are known: its context, its optimizer context, its record and, unless a row is gathered whole, its
image. -/
def updateDone (c n seg j v : Nat) (f : Rctx → Rctx) (g : Octx → Octx) (h : ChunkEntry → ChunkEntry) (a : Nat × Nat) (x : RecordWrite)
    (row : Bool) (k : Nat) (im : Image) (s : State) : State :=
  let s := modEntry n seg j v h (modOctx n g (modRctx c f s))
  let s := touchRange a { s with hbm := { s.hbm with writes := s.hbm.writes ++ [x] } }
  if row then s else stageImage k im s

section
variable (n seg j v : Nat) (f : Rctx → Rctx) (g : Octx → Octx) (h : ChunkEntry → ChunkEntry) (a : Nat × Nat) (x : RecordWrite)
  (row : Bool) (k : Nat) (im : Image) (s : State)

theorem view_updateDone : view [.stk] (updateDone c n seg j v f g h a x row k im s) = view [.stk]
    { modEntry n seg j v h (modOctx n g (modRctx c f s)) with hbm :=
      { (modEntry n seg j v h (modOctx n g (modRctx c f s))).hbm with writes := s.hbm.writes ++ [x] } } := by
  unfold updateDone
  cases row <;> simp <;> rfl

theorem rctx_updateDone (hr : tabGet? s.rctxs c = some r) :
    tabGet? (updateDone c n seg j v f g h a x row k im s).rctxs c = some (f r) := by
  rw [rctxs_of_view (view_of_subset (view_updateDone ..) (by simp))]
  exact rctx_modRctx_of_get hr f

theorem writes_updateDone : (updateDone c n seg j v f g h a x row k im s).hbm.writes = s.hbm.writes ++ [x] :=
  writes_of_view (view_of_subset (view_updateDone ..) (by simp))

end

/-- The record that the update of a chunk leaves to be written, and the position it leaves. -/
theorem exists_updateChunk (hr : tabGet? s.rctxs c = some r) (hp : tabGet? r.positions q = some p) (hn : r.octx = some n)
    (ho : tabGet? s.octxs n = some o) (hop : knownOp r p.op = some op) (hseg : segmentOf r o op p.chunk = some (seg, j)) :
    ∃ r' p' x, tabGet? (updateChunk c q s).rctxs c = some r' ∧ tabGet? r'.positions q = some p' ∧ p'.queued = false ∧ p'.emitBegun = true ∧
      (updateChunk c q s).hbm.writes = s.hbm.writes ++ [x] ∧ x.octx = n ∧ x.seg = seg ∧ x.chunk = j ∧ x.step = o.s + 1 ∧
      x.addr = recordAddr o.d (segAt o.d seg) (j * r.d.elems) (o.s + 1) := by
  obtain ⟨p', f, g, h, a, x, row, k, im, hu, hf, hqueued, hbegun, hfields⟩ : ∃ p' f g h a x row k im,
      updateChunk c q s = updateDone c n seg j (o.s + 1) f g h a x row k im s ∧ tabGet? (f r).positions q = some p' ∧ p'.queued = false ∧
      p'.emitBegun = true ∧ x.octx = n ∧ x.seg = seg ∧ x.chunk = j ∧ x.step = o.s + 1 ∧
      x.addr = recordAddr o.d (segAt o.d seg) (j * r.d.elems) (o.s + 1) := by
    unfold updateChunk
    simp only [hr, hp, hn, ho, hop, hseg, Option.bind_some, Option.map_some]
    simp only [updateDone]
    exact ⟨_, _, _, _, _, _, _, _, _, rfl, tabGet?_tabPut_same _ _ _, rfl, rfl, rfl, rfl, rfl, rfl, rfl⟩
  exact ⟨f r, p', x, hu ▸ rctx_updateDone _ _ _ _ _ _ _ _ _ _ _ _ _ hr, hf, hqueued, hbegun, hu ▸ writes_updateDone .., hfields⟩

theorem exists_updateSweep (he : nextSweep s = some e) (hsweep : e.sweep = .update c q) (hr : tabGet? s.rctxs c = some r)
    (hp : tabGet? r.positions q = some p) (hn : r.octx = some n) (ho : tabGet? s.octxs n = some o) (hop : knownOp r p.op = some op)
    (hseg : segmentOf r o op p.chunk = some (seg, j)) :
    ∃ t r' p' x, exec .updateSweep s = .next t ∧ t.deck.queue = s.deck.queue.filter (fun y => y.sweep != e.sweep) ∧
      tabGet? t.rctxs c = some r' ∧ tabGet? r'.positions q = some p' ∧ p'.queued = false ∧ p'.emitBegun = true ∧
      t.hbm.writes = s.hbm.writes ++ [x] ∧ x.octx = n ∧ x.seg = seg ∧ x.chunk = j ∧ x.step = o.s + 1 ∧
      x.addr = recordAddr o.d (segAt o.d seg) (j * r.d.elems) (o.s + 1) ∧ t.hbm.mem = s.hbm.mem ∧ t.jobs = s.jobs := by
  obtain ⟨u, hu⟩ : ∃ u, u = deckWorks (unqueue e.sweep s) := ⟨_, rfl⟩
  have hx : exec .updateSweep s = .next (settle (updateChunk c q u)) := by
    change execUpdateSweep s = _
    unfold execUpdateSweep
    rw [he]
    dsimp only
    rw [hsweep]
    rw [hu, hsweep]
    rfl
  have hrctxs : u.rctxs = s.rctxs := by rw [hu]; rfl
  have hoctxs : u.octxs = s.octxs := by rw [hu]; rfl
  obtain ⟨r', p', x, hr', hp', hqueued, hbegun, hwrites, hfields⟩ :=
    exists_updateChunk (s := u) (hrctxs ▸ hr) hp hn (hoctxs ▸ ho) hop hseg
  obtain ⟨hxn, hxseg, hxj, hxstep, hxaddr⟩ := hfields
  have hdeck : (updateChunk c q u).deck = u.deck := deck_of_view (view_updateChunk _ _ _ (by simp))
  have hmem : (updateChunk c q u).hbm.mem = u.hbm.mem := mem_of_view (view_updateChunk _ _ _ (by simp))
  have hjobs : (updateChunk c q u).jobs = u.jobs := jobs_of_view (view_updateChunk _ _ _ (by simp))
  generalize updateChunk c q u = v at hx hr' hwrites hdeck hmem hjobs
  refine ⟨settle v, r', p', x, hx, ?_, hr', hp', hqueued, hbegun, ?_, hxn, hxseg, hxj, hxstep, hxaddr, ?_, ?_⟩
  · rw [show (settle v).deck = v.deck from rfl, hdeck, hu]
    rfl
  · rw [show (settle v).hbm.writes = v.hbm.writes from rfl, hwrites, hu]
    rfl
  · rw [show (settle v).hbm.mem = v.hbm.mem from rfl, hmem, hu]
    rfl
  · rw [show (settle v).jobs = v.jobs from rfl, hjobs, hu]
    rfl

theorem exec_sweep_of_none (h : nextSweep s = none) :
    exec .updateSweep s = .next (settle s) ∧ exec .gatherSweep s = .next (settle s) := by
  constructor
  · change execUpdateSweep s = _
    unfold execUpdateSweep
    rw [h]
    rfl
  · change execGatherSweep s = _
    unfold execGatherSweep
    rw [h]
    rfl

/-- A gather of a context that is not there answers who waits for it. -/
theorem gatherChunk_of_none {b : Nat} (h : tabGet? s.octxs n = none) : gatherChunk n seg j b s = failWaits (waitsOn n seg j b) stState s := by
  unfold gatherChunk
  rw [h]
  rfl

theorem exists_gatherSweep {b : Nat} (he : nextSweep s = some e) (hsweep : e.sweep = .gather n seg j b) : ∃ t, exec .gatherSweep s = .next t ∧
    t.deck.queue = s.deck.queue.filter (fun y => y.sweep != e.sweep) ∧ t.hbm.mem = s.hbm.mem ∧ t.hbm.writes = s.hbm.writes ∧
    (tabGet? s.octxs n = none → ∀ y ∈ t.hbm.waits, waitsOn n seg j b y = false) := by
  obtain ⟨u, hu⟩ : ∃ u, u = deckWorks (unqueue e.sweep s) := ⟨_, rfl⟩
  have hx : exec .gatherSweep s = .next (settle (gatherChunk n seg j b u)) := by
    change execGatherSweep s = _
    unfold execGatherSweep
    rw [he]
    dsimp only
    rw [hsweep]
    rw [hu, hsweep]
    rfl
  have hoctxs : u.octxs = s.octxs := by rw [hu]; rfl
  have hdeck : (gatherChunk n seg j b u).deck = u.deck := deck_of_view (view_gatherChunk _ _ _ _ _ (by simp))
  have hmem : (gatherChunk n seg j b u).hbm.mem = u.hbm.mem := mem_of_view (view_gatherChunk _ _ _ _ _ (by simp))
  have hwrites : (gatherChunk n seg j b u).hbm.writes = u.hbm.writes := writes_of_view (view_gatherChunk _ _ _ _ _ (by simp))
  have hwaits (h : tabGet? s.octxs n = none) : ∀ y ∈ (gatherChunk n seg j b u).hbm.waits, waitsOn n seg j b y = false := by
    intro y hy
    rw [gatherChunk_of_none (hoctxs ▸ h), waits_failWaits] at hy
    simpa using (List.mem_filter.mp hy).2
  generalize gatherChunk n seg j b u = v at hx hdeck hmem hwrites hwaits
  refine ⟨settle v, hx, ?_, ?_, ?_, hwaits⟩
  · rw [show (settle v).deck = v.deck from rfl, hdeck, hu]
    rfl
  · rw [show (settle v).hbm.mem = v.hbm.mem from rfl, hmem, hu]
    rfl
  · rw [show (settle v).hbm.writes = v.hbm.writes from rfl, hwrites, hu]
    rfl

end

/-- Settles O57: updates and gathers take the deck's next sweep; a record's write ends with its bytes and an image with its digest. -/
theorem optimizerSweeps : Obligations.optimizer_sweeps := by
  unfold Obligations.optimizer_sweeps
  intro s e c q n seg j g b r o p op w im
  exact ⟨exists_updateSweep, exec_sweep_of_none, exists_gatherSweep, exists_recordWriteDone, exists_imageDigestDone⟩

end Sys2Proof.Proofs

/-!
The messages of fabric time: announcements, exchanges with the parent, and a parent that falls silent (O48).
-/
namespace Sys2Proof.Proofs
open Sys2Proof Sys2Proof.Machine Sys2Proof.Laws

section
variable {s : State} {slip : Nat} {m : TideMsg}

/-! ### A message of the tide waits in a landing's sources -/

/-- A tide message towards a slip waits in a landing's sources. -/
def TideWaits (s : State) (k n : Nat) (x : TideMsg) : Prop :=
  ∃ q ∈ (getLanding s k).sources, q.pkt.body = .tide x ∧ q.pkt.hdr.cls = 0 ∧ ∃ y ∈ q.reps, y.dest = .slip n ∧ y.pkt = q.pkt

theorem tideWaits_sendTide (s : State) (n : Nat) (x : TideMsg) : TideWaits (sendTide n x s) (originLanding s (homeLanding n)) n x := by
  unfold TideWaits sendTide originateSlip
  dsimp only
  rw [sources_originate]
  exact ⟨_, List.mem_append_right _ (List.mem_singleton.mpr rfl), rfl, rfl, _, List.mem_singleton.mpr rfl, rfl, rfl⟩

theorem tideWaits_later {k n : Nat} {x : TideMsg} (n' : Nat) (x' : TideMsg) (h : TideWaits s k n x) :
    TideWaits (sendTide n' x' s) k n x := by
  obtain ⟨q, hq, hrest⟩ := h
  exact ⟨q, sources_originate_subset _ _ _ _ _ _ hq, hrest⟩

/-- Messages leave one after another, none taking another's place. -/
theorem tideWaits_all (x : TideMsg) (ns : List Nat) (u : State) {n : Nat} (hn : n ∈ ns) :
    TideWaits (ns.foldl (fun s n => sendTide n x s) u) (originLanding u (homeLanding n)) n x := by
  have hkeep (ns : List Nat) (k n : Nat) (v : State) (hv : TideWaits v k n x) : TideWaits (ns.foldl (fun s n => sendTide n x s) v) k n x := by
    induction ns generalizing v with
    | nil => exact hv
    | cons y ns ih => exact ih _ (tideWaits_later y x hv)
  induction ns generalizing u with
  | nil => cases hn
  | cons y ns ih =>
    rw [List.foldl_cons]
    rcases List.mem_cons.mp hn with rfl | hn
    · exact hkeep ns _ _ _ (tideWaits_sendTide u n x)
    · have hunits : (sendTide y x u).units = u.units := units_of_view (view_sendTide _ _ _ (by simp))
      exact originLanding_of_units u hunits (homeLanding n) ▸ ih (sendTide y x u) hn

/-! ### Announcements -/

theorem exists_announceTimer {a : TideMsg} (ha : announcement s = some a) (hc : s.clk.tide = .locked) :
    ∃ t, exec .announceTimer s = .next t ∧ (∀ n ∈ peerSlips s, TideWaits t (originLanding s (homeLanding n)) n a) ∧ t.tide = s.tide ∧
      t.quiet = { s with lands := t.lands }.quiet := by
  have hx : exec .announceTimer s = .next (settle ((peerSlips s).foldl (fun s n => sendTide n a s) s)) := by
    change execAnnounceTimer s = _
    unfold execAnnounceTimer
    rw [ha]
    exact if_pos hc
  have hview {ps : List Part} (hp : [.lands] ⊆ ps) : view ps ((peerSlips s).foldl (fun s n => sendTide n a s) s) = view ps s :=
    view_foldl _ (fun s x => by simp [hp]) _ _
  have hwaits : ∀ n ∈ peerSlips s, _ := fun n hn => tideWaits_all a _ s hn
  have htide := tide_of_view (hview (by simp))
  have hquiet := quiet_lands_of_view (hview (by simp))
  generalize (peerSlips s).foldl (fun s n => sendTide n a s) s = u at hx hwaits htide hquiet
  exact ⟨settle u, hx, hwaits, htide, (quiet_settle u).trans hquiet⟩

theorem exec_announceTimer_of_none (h : announcement s = none) : exec .announceTimer s = .next (settle s) := by
  change execAnnounceTimer s = _
  unfold execAnnounceTimer
  rw [h]
  rfl

theorem exists_announce (hs : slip < 384) (hup : (getSlip s slip).state = .inService) (hm : m.hops < 16) (hk : m.kind = 0)
    (hc : s.clk.tide = .locked) : ∃ t, exec (.announce slip m) s = .next t ∧
      tabGet? t.tide.heard slip = some { msg := m, heard := s.tide.count } ∧ t.tide.count = s.tide.count ∧ t.jobs = s.jobs := by
  have hslip : getSlip (takeTide slip m s) slip = getSlip s slip := getSlip_of_view (view_takeTide _ _ _ (by simp)) slip
  have hclk : (takeTide slip m s).clk = s.clk := clk_of_view (view_takeTide _ _ _ (by simp))
  have htide : (takeTide slip m s).tide = s.tide := tide_of_view (view_takeTide _ _ _ (by simp))
  have hjobs : (takeTide slip m s).jobs = s.jobs := jobs_of_view (view_takeTide _ _ _ (by simp))
  obtain ⟨v, hv⟩ : ∃ v, v = modTide (fun t => { t with heard := tabPut t.heard slip { msg := m, heard := s.tide.count } }) (takeTide slip m s) :=
    ⟨_, rfl⟩
  have hx : exec (.announce slip m) s = .next (settle (elect v)) := by
    change execAnnounce slip m s = _
    unfold execAnnounce
    dsimp only
    rw [if_pos (by simp [hslip, hclk, hs, hup, hm, hk, hc]), hv, ← htide]
    rfl
  have hej : (elect v).jobs = v.jobs := jobs_of_view (view_elect _ (by simp))
  obtain ⟨_, _, _, _, _, het⟩ := tide_elect v
  have hvt : v.tide = { s.tide with heard := tabPut s.tide.heard slip { msg := m, heard := s.tide.count } } := by
    rw [hv, ← htide]
    rfl
  have hvj : v.jobs = s.jobs := by rw [hv, ← hjobs]; rfl
  generalize elect v = w at hx hej het
  refine ⟨settle w, hx, ?_, ?_, hej.trans hvj⟩
  · rw [show (settle w).tide = w.tide from rfl, het, hvt]
    exact tabGet?_tabPut_same _ _ _
  · rw [show (settle w).tide = w.tide from rfl, het, hvt]

theorem exec_announce_far (h : 16 ≤ m.hops) : exec (.announce slip m) s = .next (settle (takeTide slip m s)) := by
  change execAnnounce slip m s = _
  unfold execAnnounce
  dsimp only
  rw [if_neg (by simp; omega)]
  rfl

/-! ### Exchanges with the parent -/

theorem exists_syncTimer (hp : s.tide.parent = some slip) (hm : s.tide.master = false) (hup : (getSlip s slip).state = .inService) :
    ∃ t x, exec .syncTimer s = .next t ∧ TideWaits t (originLanding s (homeLanding slip)) slip x ∧ x.kind = 1 ∧
      x.seq = (s.tide.seq + 1) % 256 ∧ t.tide.seq = (s.tide.seq + 1) % 256 ∧ t.tide.sentT1 = none ∧ t.tide.count = s.tide.count := by
  obtain ⟨v, hv⟩ : ∃ v, v = modTide (fun t => { t with seq := (s.tide.seq + 1) % 256, sentT1 := none }) (fresh 8 s).2 := ⟨_, rfl⟩
  obtain ⟨x, hx, hk, hq⟩ : ∃ x, exec .syncTimer s = .next (settle (sendTide slip x v)) ∧ x.kind = 1 ∧ x.seq = (s.tide.seq + 1) % 256 := by
    change ∃ x, execSyncTimer s = _ ∧ _
    unfold execSyncTimer
    rw [hp]
    dsimp only
    rw [if_pos (by simp [hm, hup]), hv]
    exact ⟨_, rfl, rfl, rfl⟩
  have hwaits := tideWaits_sendTide v slip x
  rw [originLanding_of_units s (show v.units = s.units by rw [hv]; rfl)] at hwaits
  have htide : (sendTide slip x v).tide = v.tide := tide_of_view (view_sendTide _ _ _ (by simp))
  generalize sendTide slip x v = w at hx hwaits htide
  refine ⟨settle w, x, hx, hwaits, hk, hq, ?_⟩
  rw [show (settle w).tide = w.tide from rfl, htide, hv]
  exact ⟨rfl, rfl, rfl⟩

theorem exists_syncReq {t2 : Tide} {f2 : Nat} (hs : slip < 384) (hup : (getSlip s slip).state = .inService) (hk : m.kind = 1) :
    ∃ t x, exec (.syncReq slip m t2 f2) s = .next t ∧ TideWaits t (originLanding s (homeLanding slip)) slip x ∧
      x = { m with kind := 2, locked := s.tide.locked, t2 := t2, t2Frac := f2, t3 := 0, t3Frac := x.t3Frac } ∧ t.tide = s.tide := by
  obtain ⟨u, hu⟩ : ∃ u, u = takeTide slip m s := ⟨_, rfl⟩
  have hslip : getSlip u slip = getSlip s slip := hu ▸ getSlip_of_view (view_takeTide _ _ _ (by simp)) slip
  have htide : u.tide = s.tide := hu ▸ tide_of_view (view_takeTide _ _ _ (by simp))
  have hunits : u.units = s.units := hu ▸ units_of_view (view_takeTide _ _ _ (by simp))
  obtain ⟨x, hx, hxm⟩ : ∃ x, exec (.syncReq slip m t2 f2) s = .next (settle (sendTide slip x (fresh 8 u).2)) ∧
      x = { m with kind := 2, locked := s.tide.locked, t2 := t2, t2Frac := f2, t3 := 0, t3Frac := x.t3Frac } := by
    change ∃ x, execSyncReq slip m t2 f2 s = _ ∧ _
    unfold execSyncReq
    dsimp only
    rw [← hu, if_pos (by simp [hslip, hs, hup, hk]), htide]
    exact ⟨_, rfl, rfl⟩
  have hwaits := tideWaits_sendTide (fresh 8 u).2 slip x
  rw [originLanding_of_units s (show (fresh 8 u).2.units = s.units from hunits)] at hwaits
  have hsent : (sendTide slip x (fresh 8 u).2).tide = (fresh 8 u).2.tide := tide_of_view (view_sendTide _ _ _ (by simp))
  generalize sendTide slip x (fresh 8 u).2 = w at hx hwaits hsent
  exact ⟨settle w, x, hx, hwaits, hxm, hsent.trans htide⟩

/-- The offset and the delay that an exchange measured. -/
def measured (e : Int × Int) (s : State) : State := modTide (fun t => { t with offset := e.1 / 2, delay := e.2 / 2, sentT1 := none }) s

/-- The exchanges in a row that lay within an unlocked count's window, and outside a locked one's. -/
def goodRun (d : Int) (t : TideUnit) : Nat := if d.natAbs ≤ 1024 then t.inWindow + 1 else 0
def badRun (d : Int) (t : TideUnit) : Nat := if 2560 < d.natAbs then t.outWindow + 1 else 0

/-- A locked follower slews by a rate that the model leaves free, and the runs of its exchanges count on. -/
def slewed (d : Int) (s : State) : State :=
  modTide (fun t => { t with
    rate := if s.tide.locked then ((fresh 32 s).1.toNat % 200001 : Nat) - 100000 else s.tide.rate
    inWindow := goodRun d s.tide, outWindow := badRun d s.tide }) (fresh 32 s).2

/-- A run of exchanges locks a follower, or unlocks it. -/
def judged (d : Int) (s : State) : State :=
  if !s.tide.locked && 8 ≤ goodRun d s.tide then lockTide (slewed d s)
  else if s.tide.locked && 4 ≤ badRun d s.tide then unlockTide 0 (slewed d s)
  else slewed d s

/-- What the SYNC_RESP that is awaited does: it measures, and then steps the count or slews it. -/
theorem exec_syncResp {t4 : Tide} {f4 : Nat} (hp : s.tide.parent = some slip) (hm : s.tide.master = false) (hk : m.kind = 2)
    (ht : s.tide.sentT1.map Prod.fst = some m.seq) : exec (.syncResp slip m t4 f4) s =
      .next (settle (if !s.tide.locked && 512000 < (exchange m t4 f4).1.natAbs
        then stepTide ((exchange m t4 f4).1 / 512) (measured (exchange m t4 f4) (takeTide slip m s))
        else judged (exchange m t4 f4).1 (measured (exchange m t4 f4) (takeTide slip m s)))) := by
  have htide : (takeTide slip m s).tide = s.tide := tide_of_view (view_takeTide _ _ _ (by simp))
  change execSyncResp slip m t4 f4 s = _
  unfold execSyncResp
  dsimp only
  rw [if_pos (by simp [htide, hp, hm, hk, ht]), ← htide]
  generalize takeTide slip m s = u
  generalize exchange m t4 f4 = e
  by_cases hstep : (!u.tide.locked && decide (512000 < e.1.natAbs)) = true
  · rw [if_pos hstep]
    exact if_pos hstep
  · rw [if_neg hstep]
    refine (if_neg hstep).trans ?_
    unfold judged
    by_cases hlock : (!u.tide.locked && decide (8 ≤ goodRun e.1 u.tide)) = true
    · exact (if_pos hlock).trans (congrArg finish (if_pos hlock).symm)
    · refine Eq.trans ((if_neg hlock).trans ?_) (congrArg finish (if_neg hlock).symm)
      by_cases hun : (u.tide.locked && decide (4 ≤ badRun e.1 u.tide)) = true
      · exact (if_pos hun).trans (congrArg finish (if_pos hun).symm)
      · exact (if_neg hun).trans (congrArg finish (if_neg hun).symm)

/-! ### A step of the count -/

/-- A job whose launch is pending or past loses it. -/
def loseLaunch (s : State) (j : Nat × Job) : State :=
  match j.2.launch with
  | .unlaunched => s
  | .pending => modJob j.1 (fun x => { x with launch := .unlaunched }) s
  | .launched =>
    raiseEvent 0x0082 (some j.1) (le 8 j.2.l.toNat ++ le 8 (now s).toNat) (modJob j.1 (fun x => { x with launch := .unlaunched }) s)

theorem jobs_loseLaunch (s : State) (j : Nat × Job) (h : j.2.launch ≠ .unlaunched) :
    (loseLaunch s j).jobs = tabMod s.jobs j.1 (fun x => { x with launch := .unlaunched }) := by
  unfold loseLaunch
  split
  case h_1 hu => exact absurd hu h
  case h_2 => rfl
  case h_3 => exact jobs_of_view (view_raiseEvent _ _ _ _ (by simp))

/-- A job is launched, or to be launched, only while it is among those that are still to lose their launches. -/
def LaunchesIn (js : List (Nat × Job)) (s : State) : Prop :=
  ∀ y ∈ s.jobs, y.2.launch = .unlaunched ∨ ∃ j ∈ js, j.1 = y.1 ∧ j.2.launch ≠ .unlaunched

theorem launchesIn_loseLaunch {j : Nat × Job} {js : List (Nat × Job)} (h : LaunchesIn (j :: js) s) : LaunchesIn js (loseLaunch s j) := by
  by_cases hj : j.2.launch = .unlaunched
  · have hs : loseLaunch s j = s := by unfold loseLaunch; rw [hj]
    rw [hs]
    intro y hy
    refine (h y hy).imp_right fun ⟨k, hk, hky, hkl⟩ => ⟨k, (List.mem_cons.mp hk).resolve_left ?_, hky, hkl⟩
    rintro rfl
    exact hkl hj
  · intro y hy
    rw [jobs_loseLaunch s j hj] at hy
    obtain ⟨x, hx, rfl⟩ := List.mem_map.mp hy
    split
    case isTrue => exact .inl rfl
    case isFalse hne =>
      refine (h x hx).imp_right fun ⟨k, hk, hky, hkl⟩ => ⟨k, (List.mem_cons.mp hk).resolve_left ?_, hky, hkl⟩
      rintro rfl
      exact hne hky.symm

/-- After a step of the count no job is launched (R145). -/
theorem unlaunched_loseLaunches (s : State) : ∀ j ∈ (loseLaunches s).jobs, j.2.launch = .unlaunched := by
  have hall (js : List (Nat × Job)) (u : State) (hu : LaunchesIn js u) : LaunchesIn [] (js.foldl loseLaunch u) := by
    induction js generalizing u with
    | nil => exact hu
    | cons j js ih => exact ih _ (launchesIn_loseLaunch hu)
  have hstart : LaunchesIn s.jobs s := fun y hy => or_iff_not_imp_left.mpr fun hl => ⟨y, hy, rfl, hl⟩
  intro j hj
  exact (hall s.jobs s hstart j hj).resolve_right (by simp)

theorem tide_stepTide (d : Int) (s : State) : (stepTide d s).tide =
    { s.tide with count := s.tide.count + BitVec.ofInt 64 d, stepped := s.tide.stepped + BitVec.ofInt 64 d, inWindow := 0, outWindow := 0 } := by
  unfold stepTide
  dsimp only
  split
  · rw [tide_raiseEvent]
    exact tide_of_view (view_loseLaunches _ (by simp))
  · exact tide_of_view (view_loseLaunches _ (by simp))

theorem unlaunched_stepTide (d : Int) (s : State) : ∀ j ∈ (stepTide d s).jobs, j.2.launch = .unlaunched := by
  unfold stepTide
  dsimp only
  split
  · rw [jobs_of_view (view_raiseEvent _ _ _ _ (by simp))]
    exact unlaunched_loseLaunches _
  · exact unlaunched_loseLaunches _

theorem exists_syncResp_step {t4 : Tide} {f4 : Nat}
    (h : s.tide.parent = some slip ∧ s.tide.master = false ∧ m.kind = 2 ∧ s.tide.sentT1.map Prod.fst = some m.seq)
    (hl : s.tide.locked = false) (hd : 512000 < (exchange m t4 f4).1.natAbs) : ∃ t, exec (.syncResp slip m t4 f4) s = .next t ∧
      t.tide.count = s.tide.count + BitVec.ofInt 64 ((exchange m t4 f4).1 / 512) ∧ t.tide.offset = (exchange m t4 f4).1 / 2 ∧
      t.tide.delay = (exchange m t4 f4).2 / 2 ∧ t.tide.inWindow = 0 ∧ (∀ j ∈ t.jobs, j.2.launch = .unlaunched) := by
  obtain ⟨hp, hm, hk, ht⟩ := h
  have hx := exec_syncResp (t4 := t4) (f4 := f4) hp hm hk ht
  rw [if_pos (by simp [hl, hd])] at hx
  have htide : (takeTide slip m s).tide = s.tide := tide_of_view (view_takeTide _ _ _ (by simp))
  generalize takeTide slip m s = u at hx htide
  generalize exchange m t4 f4 = e at hx
  have hst := tide_stepTide (e.1 / 512) (measured e u)
  have hsj := unlaunched_stepTide (e.1 / 512) (measured e u)
  generalize stepTide (e.1 / 512) (measured e u) = w at hx hst hsj
  refine ⟨settle w, hx, ?_, ?_, ?_, ?_, hsj⟩ <;> rw [show (settle w).tide = w.tide from rfl, hst]
  · rw [← htide]
    rfl
  · rfl
  · rfl

/-! ### A slew of the count -/

theorem jobs_judged (d : Int) (s : State) : (judged d s).jobs = s.jobs := by
  unfold judged
  split
  · exact jobs_of_view (view_lockTide _ (by simp))
  · split
    · exact jobs_of_view (view_unlockTide _ _ (by simp))
    · rfl

/-- A count that is unlocked starts its runs again. -/
theorem tide_unlockTide (c : Nat) (s : State) : (unlockTide c s).tide = { s.tide with locked := false, inWindow := 0, outWindow := 0 } := by
  unfold unlockTide markUnlocked
  simp only [modTide, tide_raiseEvent]

/-- An exchange's run decides whether the follower is locked, and nothing else of its tide but the windows. -/
theorem tide_judged (d : Int) (s : State) : ∃ i o, (judged d s).tide = { (slewed d s).tide with
    locked := if s.tide.locked then decide (badRun d s.tide < 4) else decide (8 ≤ goodRun d s.tide), inWindow := i, outWindow := o } := by
  unfold judged
  cases hl : s.tide.locked
  case false =>
    by_cases hg : 8 ≤ goodRun d s.tide
    · refine ⟨goodRun d s.tide, badRun d s.tide, ?_⟩
      rw [if_pos (by simp [hg])]
      unfold lockTide
      rw [tide_raiseEvent]
      simp [hg, slewed, modTide]
    · refine ⟨goodRun d s.tide, badRun d s.tide, ?_⟩
      rw [if_neg (by simp [hg]), if_neg (by simp)]
      simp [hg, slewed, modTide, hl, fresh]
  case true =>
    by_cases hb : 4 ≤ badRun d s.tide
    · refine ⟨0, 0, ?_⟩
      rw [if_neg (by simp), if_pos (by simp [hb])]
      rw [tide_unlockTide]
      simp [hb, slewed, modTide]
    · refine ⟨goodRun d s.tide, badRun d s.tide, ?_⟩
      rw [if_neg (by simp), if_neg (by simp [hb])]
      simp [Nat.lt_of_not_le hb, slewed, modTide, hl, fresh]

/-- A slew stays within 100 ppm; an unlocked count is not slewed. -/
theorem rate_slewed (d : Int) (s : State) : if s.tide.locked = true then -100000 ≤ (slewed d s).tide.rate ∧ (slewed d s).tide.rate ≤ 100000
    else (slewed d s).tide.rate = s.tide.rate := by
  have hlt := Nat.mod_lt (fresh 32 s).1.toNat (show 0 < 200001 by decide)
  have hrate : (slewed d s).tide.rate =
    if s.tide.locked then (((fresh 32 s).1.toNat % 200001 : Nat) : Int) - 100000 else s.tide.rate := rfl
  rw [hrate]
  split
  · omega
  · rfl

theorem exists_syncResp_slew {t4 : Tide} {f4 : Nat}
    (h : s.tide.parent = some slip ∧ s.tide.master = false ∧ m.kind = 2 ∧ s.tide.sentT1.map Prod.fst = some m.seq)
    (hd : s.tide.locked = true ∨ (exchange m t4 f4).1.natAbs ≤ 512000) : ∃ t, exec (.syncResp slip m t4 f4) s = .next t ∧
      t.tide.count = s.tide.count ∧ t.tide.offset = (exchange m t4 f4).1 / 2 ∧ t.tide.delay = (exchange m t4 f4).2 / 2 ∧
      (if s.tide.locked = true then -100000 ≤ t.tide.rate ∧ t.tide.rate ≤ 100000 else t.tide.rate = s.tide.rate) ∧
      t.tide.locked = (if s.tide.locked = true then decide (badRun (exchange m t4 f4).1 s.tide < 4)
        else decide (8 ≤ goodRun (exchange m t4 f4).1 s.tide)) ∧ t.jobs = s.jobs := by
  obtain ⟨hp, hm, hk, ht⟩ := h
  have hx := exec_syncResp (t4 := t4) (f4 := f4) hp hm hk ht
  rw [if_neg (by rcases hd with hl | hd <;> simp [*])] at hx
  have htide : (takeTide slip m s).tide = s.tide := tide_of_view (view_takeTide _ _ _ (by simp))
  have hjobs : (takeTide slip m s).jobs = s.jobs := jobs_of_view (view_takeTide _ _ _ (by simp))
  generalize takeTide slip m s = u at hx htide hjobs
  generalize exchange m t4 f4 = e at hx
  obtain ⟨i, o, hjt⟩ := tide_judged e.1 (measured e u)
  have hjj := jobs_judged e.1 (measured e u)
  have hrate := rate_slewed e.1 (measured e u)
  generalize judged e.1 (measured e u) = w at hx hjt hjj
  rw [← htide]
  refine ⟨settle w, hx, ?_, ?_, ?_, ?_, ?_, hjj.trans hjobs⟩ <;> rw [show (settle w).tide = w.tide from rfl, hjt]
  · rfl
  · rfl
  · rfl
  · exact hrate
  · rfl

/-! ### A silent parent -/

/-- Where nothing is heard, a part that may be master becomes it. -/
theorem master_elect (hh : s.tide.heard = []) (hp : s.tide.priority ≠ 255) (hc : s.clk.tide = .locked) : (elect s).tide.master = true := by
  unfold elect
  rw [if_neg (by simp [hc]), hh]
  dsimp only [bestHeard, List.foldl_nil]
  rw [if_neg hp]
  split
  case isTrue h => exact h
  case isFalse =>
    unfold becomeMaster lockTide
    dsimp only
    split
    · rfl
    · rw [tide_raiseEvent]
      rfl

theorem exists_parentSilence {c : Candidate} (hp : s.tide.parent = some slip) (hc : tabGet? s.tide.heard slip = some c)
    (hs : 375000 ≤ tideSince c.heard s.tide.count) (ha : arrivalsDue s = false) : ∃ t, exec .parentSilence s = .next t ∧
      t.tide.heard = s.tide.heard.filter (fun x => decide (tideSince x.2.heard s.tide.count < 375000)) ∧ t.tide.count = s.tide.count ∧
      t.jobs = s.jobs ∧ (t.tide.heard = [] → s.tide.priority ≠ 255 → s.clk.tide = .locked → t.tide.master = true) := by
  obtain ⟨left, hleft⟩ : ∃ left, left = s.tide.heard.filter (fun x => decide (tideSince x.2.heard s.tide.count < 375000)) := ⟨_, rfl⟩
  obtain ⟨u, hu⟩ : ∃ u, u = if left.isEmpty && s.tide.locked then unlockTide 1 s else s := ⟨_, rfl⟩
  obtain ⟨v, hv⟩ : ∃ v, v = modTide (fun t => { t with heard := left, parent := none }) u := ⟨_, rfl⟩
  have hx : exec .parentSilence s = .next (settle (elect v)) := by
    have hsilent : (decide (375000 ≤ tideSince c.heard (now s)) && !arrivalsDue s) = true := by
      rw [show now s = s.tide.count from rfl]
      simp [hs, ha]
    change execParentSilence s = _
    unfold execParentSilence
    rw [hp]
    dsimp only
    rw [hc]
    refine (if_pos hsilent).trans ?_
    rw [hv, hu, hleft]
    rfl
  have hview {ps : List Part} (hps : [.events, .eventSeq, .purser, .sentT1, .tide, .accts, .outbox] ⊆ ps) : view ps u = view ps s := by
    rw [hu]
    split
    · exact view_unlockTide _ _ hps
    · rfl
  have hut : u.tide.count = s.tide.count ∧ u.tide.priority = s.tide.priority := by
    rw [hu]
    split
    · rw [tide_unlockTide]
      exact ⟨rfl, rfl⟩
    · exact ⟨rfl, rfl⟩
  have hvc : v.clk = s.clk := by rw [hv]; exact clk_of_view (hview (by simp))
  have hvj : v.jobs = s.jobs := by rw [hv]; exact jobs_of_view (hview (by simp))
  have hvt : v.tide.heard = left ∧ v.tide.count = s.tide.count ∧ v.tide.priority = s.tide.priority := by
    rw [hv]
    exact ⟨rfl, hut⟩
  obtain ⟨hvh, hvn, hvp⟩ := hvt
  have hmaster := master_elect (s := v)
  have hej : (elect v).jobs = v.jobs := jobs_of_view (view_elect _ (by simp))
  obtain ⟨_, _, _, _, _, het⟩ := tide_elect v
  generalize elect v = w at hx hmaster hej het
  have hwh : w.tide.heard = left := by rw [het]; exact hvh
  have hwn : w.tide.count = s.tide.count := by rw [het]; exact hvn
  refine ⟨settle w, hx, hwh.trans hleft, hwn, hej.trans hvj, fun hnone hpr hcl => ?_⟩
  exact hmaster (hvh.trans (hwh.symm.trans hnone)) (hvp ▸ hpr) (hvc ▸ hcl)

theorem exec_parentSilence_heard {c : Candidate} (hp : s.tide.parent = some slip) (hc : tabGet? s.tide.heard slip = some c)
    (hs : tideSince c.heard s.tide.count < 375000) : exec .parentSilence s = .next (settle s) := by
  have hsilent : ¬ (decide (375000 ≤ tideSince c.heard (now s)) && !arrivalsDue s) = true := by
    rw [show now s = s.tide.count from rfl]
    simp [Nat.not_le_of_lt hs]
  change execParentSilence s = _
  unfold execParentSilence
  rw [hp]
  dsimp only
  rw [hc]
  exact if_neg hsilent

end

/-- Settles O48: what the tide's messages originate, measure and change, and how a silent parent is dropped. -/
theorem tideMessages : Obligations.tide_messages := by
  unfold Obligations.tide_messages
  intro s slip f4 f2 m a t2 t4 c
  exact ⟨exists_announceTimer, exec_announceTimer_of_none, exists_announce, exec_announce_far, exists_syncTimer, exists_syncReq,
    exists_syncResp_step, exists_syncResp_slew, exists_parentSilence, exec_parentSilence_heard⟩

end Sys2Proof.Proofs
